-- ==== Sys2Proof/Word.lean ====
section
/-! DEFINITION. The word types of the LSX-9210 and the sparse maps that hold its indexed state. -/

namespace Sys2Proof

/-- A byte of memory (R161). -/
abbrev Byte := BitVec 8
/-- A 16-bit value. -/
abbrev W16 := BitVec 16
/-- A 32-bit word: one scalar instruction word, one lane register of one lane. -/
abbrev W32 := BitVec 32
/-- A 64-bit word: a scalar register, an address, a latch. -/
abbrev W64 := BitVec 64
/-- A 96-bit lane instruction word (R42). -/
abbrev W96 := BitVec 96
/-- A 128-bit word: an accumulator entry, a certified value. -/
abbrev W128 := BitVec 128

/-- A sparse map from numbers: keys strictly rising, no entry equal to the default of the map
(the default is named where the map is read). -/
abbrev SMap (α : Type) := List (Nat × α)

end Sys2Proof
end

