-- ==== Sys2Proof/Fields.lean ====
section
/-! DEFINITION. The operand types of instructions: lane words, pair halves, names of crews and teams. -/

namespace Sys2Proof

/-- The fields of a single-form or immediate-form lane word (R48, R56). imm is true for FORM 10; the
immediate is then held in b, c and x[13:6]. -/
structure LaneWord where
  imm : Bool
  ty : BitVec 4
  d : BitVec 10
  nw : BitVec 1
  a : BitVec 12
  b : BitVec 12
  c : BitVec 12
  pred : BitVec 6
  pn : BitVec 1
  u : BitVec 1
  rm : BitVec 3
  md : BitVec 8
  x : BitVec 14
  deriving DecidableEq, Repr

/-- One half of a pair-form lane word (R57). -/
structure PairHalf where
  hopc : BitVec 7
  ty3 : BitVec 3
  d : BitVec 10
  a : BitVec 12
  b : BitVec 12
  pred : BitVec 3
  deriving DecidableEq, Repr

/-- The name of a crew: the order in which the scheduler took its record, the linear team index and the
crew index, which is also the order of R11. -/
structure CrewKey where
  job : Nat
  team : Nat
  crew : Nat
  deriving DecidableEq, Repr

/-- The type codes of R76. -/
inductive Ty where
  | s32 | z32 | s64 | z64 | s16 | z16 | s8 | z8 | f64 | f32 | f16 | bf16 | f8a | f8b | q4x | b32
  deriving DecidableEq, Repr

/-- A job slice as a deadline miss or an abort names it: by its take order once taken, or by its slice
queue and its place there while its record still waits. -/
inductive JobRef where
  | taken (job : Nat)
  | queued (q i : Nat)
  deriving DecidableEq, Repr

/-- A page that a die's placement monitor names (R288, R289): its 4 KiB number, its address space and its world. -/
structure MonAdvice where
  page : Nat
  asid : Nat
  secure : Bool
  deriving DecidableEq, Repr

/-- An access arriving from a fabric peer (R188, R342): a read of n bytes, a write, or an atomic of R193 on n bytes. -/
inductive IngressKind where
  | read (n : Nat)
  | write (data : List Byte)
  | amo (op n : Nat) (b cmp : W64)
  deriving DecidableEq, Repr

/-- Another participant's message for a reduction (R350): plan, epoch, rank, its P, TYPE, OP and COUNT,
and its IN elements. -/
structure Contribution where
  planid : W64
  epoch : W64
  rank : Nat
  p : Nat
  ty : Nat
  op : Nat
  count : Nat
  elems : List W64
  deriving DecidableEq, Repr

/-- What the security processor sets up at bring-up (R358): SECRGN base and limit words, HDMBASE and
HDMSIZE. -/
structure BootSetup where
  secrgn : List W64
  hdmbase : W64
  hdmsize : W64
  deriving DecidableEq, Repr

/-- A place a soft error strikes (R362): DRAM or an L2 line at a physical address, a team's scratchpad, a cluster
scratchpad byte, an entry of a data queue or a record of a slice queue (cluster SRAM in FIFO mode), an entry of a crew's
accumulator bank, a scalar or lane register, a weight-buffer byte, or a flit of a die-to-die link; or an unchecked gap
(R364): the write of a scalar register or predicate, a lane register, latch or predicate or an accumulator entry, or a byte
on its way between two codes, to memory, a scratchpad, a cluster scratchpad or the weight space, or to an entry of a data
queue. -/
inductive ErrorPlace where
  | memory (pa : Nat)
  | l2 (pa : Nat)
  | dataEntry (n i : Nat)
  | sliceEntry (q i : Nat)
  | dieLink
  | scratch (job team off : Nat)
  | cluster (cluster off : Nat)
  | scalarReg (k : CrewKey) (r : Nat)
  | laneReg (k : CrewKey) (r lane : Nat)
  | weight (job team off : Nat)
  | acc (k : CrewKey) (bank entry : Nat)
  | gap (k : CrewKey) (r : Nat)
  | gapCond (k : CrewKey) (c : Nat)
  | gapLane (k : CrewKey) (r lane : Nat)
  | gapLatch (k : CrewKey) (b lane : Nat)
  | gapPred (k : CrewKey) (p lane : Nat)
  | gapAcc (k : CrewKey) (bank entry : Nat)
  | gapByte (pa : Nat)
  | gapScratch (job team off : Nat)
  | gapCluster (cluster off : Nat)
  | gapWeight (job team off : Nat)
  | gapEntry (n i : Nat)
  deriving DecidableEq, Repr

end Sys2Proof
end

