-- ==== Sys2Proof/Machine/Bits.lean ====
section
/-! DEFINITION. Bit fields, extension and integer helpers (R78, R79, R84). -/

namespace Sys2Proof.Machine

/-- Field [hi:lo] of a number. -/
def fieldN (v hi lo : Nat) : Nat := (v >>> lo) % 2 ^ (hi + 1 - lo)

/-- Field [hi:lo] of a 64-bit word as a number. -/
def fld (v : W64) (hi lo : Nat) : Nat := fieldN v.toNat hi lo

/-- Bit i of a number. -/
def bitN (v i : Nat) : Bool := v.testBit i

/-- The signed value of the low n bits of v. -/
def sVal (n v : Nat) : Int :=
  let u := v % 2 ^ n
  if n ≠ 0 ∧ 2 ^ (n - 1) ≤ u then (u : Int) - (2 ^ n : Nat) else u

/-- An integer reduced to 64 bits, two's complement. -/
def ofIntW64 (i : Int) : W64 := BitVec.ofInt 64 i

/-- Sext(v, n) of R84. -/
def sext (v : Nat) (n : Nat) : W64 := ofIntW64 (sVal n v)

/-- Zext(v, n) of R84. -/
def zext (v : Nat) (n : Nat) : W64 := BitVec.ofNat 64 (v % 2 ^ n)

/-- An integer reduced modulo 2^n to a natural number. -/
def wrapN (n : Nat) (i : Int) : Nat := (i % (2 ^ n : Nat)).toNat

/-- Flags of astat, bits [9:0] (R85). -/
abbrev Flags := BitVec 10

/-- No flag raised. -/
def fNone : Flags := 0#10
/-- NV, invalid. -/
def fNV : Flags := 0x001#10
/-- DZ, floating division by zero. -/
def fDZ : Flags := 0x002#10
/-- OF, overflow. -/
def fOF : Flags := 0x004#10
/-- UF, underflow. -/
def fUF : Flags := 0x008#10
/-- NX, inexact. -/
def fNX : Flags := 0x010#10
/-- IDZ, integer division by zero. -/
def fIDZ : Flags := 0x020#10
/-- SAT, integer or conversion saturation. -/
def fSAT : Flags := 0x040#10
/-- FMT, Q4X format error. -/
def fFMT : Flags := 0x080#10
/-- ASAT, an accumulator entry saturated. -/
def fASAT : Flags := 0x100#10
/-- MSV, a matrix drain overwrote special values. -/
def fMSV : Flags := 0x200#10

/-- The flag f when the condition holds. -/
def flagIf (c : Bool) (f : Flags) : Flags := if c then f else fNone

/-- The least value of an n-bit signed integer (R78). -/
def sMin (n : Nat) : Int := -((2 ^ (n - 1) : Nat) : Int)
/-- The greatest value of an n-bit signed integer (R78). -/
def sMax (n : Nat) : Int := ((2 ^ (n - 1) : Nat) : Int) - 1
/-- The greatest value of an n-bit unsigned integer (R78). -/
def zMax (n : Nat) : Int := ((2 ^ n : Nat) : Int) - 1

/-- Clamp to a range; SAT when the value changes. -/
def clampI (lo hi x : Int) : Int × Flags :=
  if x < lo then (lo, fSAT) else if hi < x then (hi, fSAT) else (x, fNone)

/-- SatS(x, n) of R84. -/
def satS (x : Int) (n : Nat) : Int × Flags := clampI (sMin n) (sMax n) x
/-- SatZ(x, n) of R84. -/
def satZ (x : Int) (n : Nat) : Int × Flags := clampI 0 (zMax n) x

/-- Signed quotient toward zero with the corners of R78 and R79; sat is the saturating modifier. -/
def divS (n : Nat) (sat : Bool) (a b : Int) : Int × Flags :=
  if b = 0 then (if 0 ≤ a then sMax n else sMin n, fIDZ)
  else if a = sMin n ∧ b = -1 then (if sat then (sMax n, fSAT) else (sMin n, fNone))
  else (a.tdiv b, fNone)

/-- Unsigned quotient (R79). -/
def divZ (n : Nat) (a b : Nat) : Nat × Flags :=
  if b = 0 then (2 ^ n - 1, fIDZ) else (a / b, fNone)

/-- Signed remainder with the sign of the dividend (R78, R79). -/
def remS (a b : Int) : Int × Flags :=
  if b = 0 then (a, fIDZ) else (a.tmod b, fNone)

/-- Unsigned remainder (R79). -/
def remZ (a b : Nat) : Nat × Flags :=
  if b = 0 then (a, fIDZ) else (a % b, fNone)

/-- a rotated left by k of n bits. -/
def rolN (n a k : Nat) : Nat :=
  let k := k % n
  let u := a % 2 ^ n
  (u <<< k) % 2 ^ n ||| (u >>> (n - k))

/-- The number of one bits among the low n bits. -/
def popN : Nat → Nat → Nat
  | 0, _ => 0
  | n + 1, v => v % 2 + popN n (v / 2)

/-- Leading zeros of the low n bits, n for zero. -/
def clzN (n v : Nat) : Nat :=
  let u := v % 2 ^ n
  if u = 0 then n else n - 1 - Nat.log2 u

/-- Trailing zeros of the low n bits, n for zero. -/
def ctzN : Nat → Nat → Nat
  | 0, _ => 0
  | n + 1, v => if v % 2 = 1 then 0 else 1 + ctzN n (v / 2)

/-- a AND NOT b on n bits. -/
def andnN (n a b : Nat) : Nat := (a % 2 ^ n) &&& ((2 ^ n - 1) - b % 2 ^ n)

/-- Arithmetic shift right of an n-bit value. -/
def sarN (n a k : Nat) : Int := sVal n a >>> k

/-- The number of bits of v: 0 for 0, else floor(log2 v) + 1. -/
def bitLen (v : Nat) : Nat := if v = 0 then 0 else Nat.log2 v + 1

/-- One Newton descent of the integer square root. -/
def isqrtIter : Nat → Nat → Nat → Nat
  | 0, _, x => x
  | f + 1, n, x =>
    let y := (x + n / x) / 2
    if y < x then isqrtIter f n y else x

/-- Floor of the square root. -/
def isqrt (n : Nat) : Nat :=
  if n = 0 then 0 else isqrtIter (Nat.log2 n + 2) n (2 ^ (Nat.log2 n / 2 + 1))

/-- Integer division rounded up. -/
def ceilDiv (a b : Nat) : Nat := (a + b - 1) / b

/-- The word with bit i set to b. -/
def setBitN (v i : Nat) (b : Bool) : Nat :=
  if b then v ||| (1 <<< i) else if v.testBit i then v - 2 ^ i else v

end Sys2Proof.Machine
end

