-- ==== Sys2Proof/Machine/Float.lean ====
section
/-! DEFINITION. Binary floating formats, exact values and rounding (R80 to R86). -/

namespace Sys2Proof.Machine

/-- The five rounding modes of R54. -/
inductive Rm where
  | rne | rz | rdn | rup | rna
  deriving DecidableEq, Repr

/-- The mode coded by a three-bit field; none for 101, 110 and 111. -/
def rmOf : Nat → Option Rm
  | 0 => some .rne
  | 1 => some .rz
  | 2 => some .rdn
  | 3 => some .rup
  | 4 => some .rna
  | _ => none

/-- A binary floating format of R80: fraction width m, exponent width e, bias, and whether it has no
infinities and NaNs (F8a, R81). -/
structure Fmt where
  m : Nat
  e : Nat
  bias : Nat
  finiteOnly : Bool
  deriving DecidableEq, Repr

/-- binary64. -/
def fmtF64 : Fmt := ⟨52, 11, 1023, false⟩
/-- binary32. -/
def fmtF32 : Fmt := ⟨23, 8, 127, false⟩
/-- binary16. -/
def fmtF16 : Fmt := ⟨10, 5, 15, false⟩
/-- bf16. -/
def fmtBf16 : Fmt := ⟨7, 8, 127, false⟩
/-- F8a. -/
def fmtF8a : Fmt := ⟨3, 4, 8, true⟩
/-- F8b. -/
def fmtF8b : Fmt := ⟨2, 5, 15, false⟩

/-- The least exponent of a normal value. -/
def fmtEmin (f : Fmt) : Int := 1 - (f.bias : Int)
/-- The code of +infinity (f not F8a). -/
def fmtInf (f : Fmt) : Nat := (2 ^ f.e - 1) <<< f.m
/-- The canonical quiet NaN (R81, R82). -/
def fmtNan (f : Fmt) : Nat := fmtInf f + 2 ^ (f.m - 1)
/-- The code of the largest finite positive value (R81). -/
def fmtMax (f : Fmt) : Nat := if f.finiteOnly then 2 ^ (f.e + f.m) - 1 else fmtInf f - 1
/-- The sign bit of the format. -/
def fmtSign (f : Fmt) (neg : Bool) : Nat := if neg then 2 ^ (f.e + f.m) else 0

/-- An exact value: (-1)^neg · mant · 2^exp, an infinity, or a NaN. A value known only to lie strictly
between two neighbours far below the place of rounding is given by an odd last bit. -/
inductive Ex where
  | nan
  | inf (neg : Bool)
  | fin (neg : Bool) (mant : Nat) (exp : Int)
  deriving DecidableEq, Repr

/-- Plus zero. -/
def exZero : Ex := .fin false 0 0

/-- The value of an encoding (R80, R81). -/
def exOf (f : Fmt) (code : Nat) : Ex :=
  let c := code % 2 ^ (1 + f.e + f.m)
  let neg := c.testBit (f.e + f.m)
  let e := (c >>> f.m) % 2 ^ f.e
  let fr := c % 2 ^ f.m
  if !f.finiteOnly && e = 2 ^ f.e - 1 then (if fr = 0 then .inf neg else .nan)
  else if e = 0 then .fin neg fr (fmtEmin f - f.m)
  else .fin neg (fr + 2 ^ f.m) ((e : Int) - f.bias - f.m)

/-- The encoding is a signalling NaN (R81). -/
def isSnan (f : Fmt) (code : Nat) : Bool :=
  let c := code % 2 ^ (f.e + f.m)
  !f.finiteOnly && decide (fmtInf f < c) && !c.testBit (f.m - 1)

/-- The encoding is a NaN (R81). -/
def isNanC (f : Fmt) (code : Nat) : Bool :=
  !f.finiteOnly && decide (fmtInf f < code % 2 ^ (f.e + f.m))

/-- NV when any encoding is a signalling NaN (R82). -/
def snanFlags (f : Fmt) (l : List Nat) : Flags := flagIf (l.any (isSnan f)) fNV

/-- Whether the magnitude n + (r / 2^s) is rounded up to n + 1 (R83). -/
def roundsUp (rm : Rm) (neg : Bool) (n r half : Nat) : Bool :=
  match rm with
  | .rne => decide (half < r) || (decide (r = half) && n % 2 == 1)
  | .rz => false
  | .rdn => neg && decide (r ≠ 0)
  | .rup => !neg && decide (r ≠ 0)
  | .rna => decide (half ≤ r)

/-- Round mant · 2^exp to a multiple of 2^q: the multiple, and whether it differs. -/
def roundAt (rm : Rm) (neg : Bool) (mant : Nat) (exp q : Int) : Nat × Bool :=
  if q ≤ exp then (mant <<< (exp - q).toNat, false)
  else
    let s := (q - exp).toNat
    let n := mant >>> s
    let r := mant % 2 ^ s
    (if roundsUp rm neg n r (2 ^ (s - 1)) then n + 1 else n, decide (r ≠ 0))

/-- The result of an overflow (R83). -/
def overflowCode (f : Fmt) (rm : Rm) (neg : Bool) : Nat :=
  let big := fmtMax f
  let inf := if f.finiteOnly then big else fmtInf f
  fmtSign f neg + match rm with
    | .rne | .rna => inf
    | .rz => big
    | .rup => if neg then big else inf
    | .rdn => if neg then inf else big

/-- RoundTo(x, fmt, rm) of R83. -/
def roundTo (f : Fmt) (rm : Rm) : Ex → Nat × Flags
  | .nan => if f.finiteOnly then (0, fNV) else (fmtNan f, fNone)
  | .inf neg =>
    if f.finiteOnly then (fmtSign f neg + fmtMax f, fOF) else (fmtSign f neg + fmtInf f, fNone)
  | .fin neg 0 _ => (fmtSign f neg, fNone)
  | .fin neg mant exp =>
    let e := exp + bitLen mant - 1
    let qmin := fmtEmin f - f.m
    let q := max (e - f.m) qmin
    let (n, nx) := roundAt rm neg mant exp q
    let code := ((q - qmin).toNat <<< f.m) + n
    if fmtMax f < code then (overflowCode f rm neg, fOF ||| fNX)
    else
      let tiny : Bool := decide (e < fmtEmin f) &&
        (decide (e + 1 < fmtEmin f) ||
          decide ((roundAt rm neg mant exp (e - f.m)).1 < 2 ^ (f.m + 1)))
      (fmtSign f neg + code, flagIf nx fNX ||| flagIf (tiny && nx) fUF)

/-- Change the sign of an exact value. -/
def exNeg : Ex → Ex
  | .nan => .nan
  | .inf s => .inf (!s)
  | .fin s m e => .fin (!s) m e

/-- The signed integer of a finite value at exponent q, at most its own exponent. -/
def exAt (neg : Bool) (m : Nat) (e q : Int) : Int :=
  let v : Int := (m <<< (e - q).toNat : Nat)
  if neg then -v else v

/-- The exact sum with the zero signs of R83; ∞ − ∞ is invalid (R82). -/
def exAdd (rm : Rm) : Ex → Ex → Ex × Flags
  | .nan, _ => (.nan, fNone)
  | _, .nan => (.nan, fNone)
  | .inf a, .inf b => if a = b then (.inf a, fNone) else (.nan, fNV)
  | .inf a, .fin _ _ _ => (.inf a, fNone)
  | .fin _ _ _, .inf b => (.inf b, fNone)
  | .fin sa ma ea, .fin sb mb eb =>
    let q := min ea eb
    let v := exAt sa ma ea q + exAt sb mb eb q
    if v = 0 then
      if ma = 0 ∧ mb = 0 ∧ sa = sb then (.fin sa 0 0, fNone)
      else (.fin (decide (rm = .rdn)) 0 0, fNone)
    else (.fin (decide (v < 0)) v.natAbs q, fNone)

/-- The exact product; 0 × ∞ is invalid (R82). -/
def exMul : Ex → Ex → Ex × Flags
  | .inf a, .fin b m _ => if m = 0 then (.nan, fNV) else (.inf (a != b), fNone)
  | .fin a m _, .inf b => if m = 0 then (.nan, fNV) else (.inf (a != b), fNone)
  | .inf a, .inf b => (.inf (a != b), fNone)
  | .fin a m e, .fin b n g => (.fin (a != b) (m * n) (e + g), fNone)
  | .nan, _ => (.nan, fNone)
  | _, .nan => (.nan, fNone)

/-- mant · 2^exp with an odd last bit when a remainder is left over. -/
def jam (neg : Bool) (mant : Nat) (exp : Int) (rest : Bool) : Ex :=
  .fin neg (2 * mant + (if rest then 1 else 0)) (exp - 1)

/-- The quotient to at least prec bits (R82). -/
def exDiv (prec : Nat) : Ex → Ex → Ex × Flags
  | .nan, _ => (.nan, fNone)
  | _, .nan => (.nan, fNone)
  | .inf _, .inf _ => (.nan, fNV)
  | .inf a, .fin b _ _ => (.inf (a != b), fNone)
  | .fin a _ _, .inf b => (.fin (a != b) 0 0, fNone)
  | .fin a m e, .fin b n g =>
    if n = 0 then (if m = 0 then (.nan, fNV) else (.inf (a != b), fDZ))
    else if m = 0 then (.fin (a != b) 0 0, fNone)
    else
      let s := prec + bitLen n
      let num := m <<< s
      (jam (a != b) (num / n) (e - g - s) (decide (num % n ≠ 0)), fNone)

/-- The square root to at least prec bits; −0 gives −0 (R82). -/
def exSqrt (prec : Nat) : Ex → Ex × Flags
  | .nan => (.nan, fNone)
  | .inf s => if s then (.nan, fNV) else (.inf false, fNone)
  | .fin s m e =>
    if m = 0 then (.fin s 0 0, fNone)
    else if s then (.nan, fNV)
    else
      let k := 2 * prec + 2
      let (num, g) := if (e - k) % 2 = 0 then (m <<< k, e - k) else (m <<< (k + 1), e - k - 1)
      let r := isqrt num
      (jam false r (g / 2) (decide (r * r ≠ num)), fNone)

/-- Comparison of exact values; none when either is a NaN. −0 equals +0. -/
def exCmp : Ex → Ex → Option Ordering
  | .nan, _ => none
  | _, .nan => none
  | .inf a, .inf b => some (if a = b then .eq else if a then .lt else .gt)
  | .inf a, .fin _ _ _ => some (if a then .lt else .gt)
  | .fin _ _ _, .inf b => some (if b then .gt else .lt)
  | .fin sa ma ea, .fin sb mb eb =>
    let q := min ea eb
    some (compare (exAt sa ma ea q) (exAt sb mb eb q))

/-- The value is negative, or a negative zero. -/
def exIsNeg : Ex → Bool
  | .nan => false
  | .inf s => s
  | .fin s _ _ => s

/-- An integer as an exact value. -/
def exInt (i : Int) : Ex := .fin (decide (i < 0)) i.natAbs 0

/-- A finite value rounded to an integer under rm, and whether it differs. -/
def exToInt (rm : Rm) (neg : Bool) (m : Nat) (e : Int) : Int × Bool :=
  let (n, nx) := roundAt rm neg m e 0
  (if neg then -(n : Int) else n, nx)

/-- Working precision of quotients and roots: two bits beyond every format. -/
def workPrec : Nat := 64

/-- fadd (R102, R131). -/
def fAdd (f : Fmt) (rm : Rm) (a b : Nat) : Nat × Flags :=
  let (x, i) := exAdd rm (exOf f a) (exOf f b)
  let (r, g) := roundTo f rm x
  (r, i ||| g ||| snanFlags f [a, b])

/-- The sign bit inverted. -/
def fFlip (f : Fmt) (a : Nat) : Nat := (a ^^^ 2 ^ (f.e + f.m)) % 2 ^ (1 + f.e + f.m)
/-- The sign bit cleared. -/
def fClearSign (f : Fmt) (a : Nat) : Nat := a % 2 ^ (f.e + f.m)

/-- fsub: the subtrahend negated. -/
def fSub (f : Fmt) (rm : Rm) (a b : Nat) : Nat × Flags := fAdd f rm a (fFlip f b)

/-- fmul. -/
def fMul (f : Fmt) (rm : Rm) (a b : Nat) : Nat × Flags :=
  let (x, i) := exMul (exOf f a) (exOf f b)
  let (r, g) := roundTo f rm x
  (r, i ||| g ||| snanFlags f [a, b])

/-- fdiv. -/
def fDiv (f : Fmt) (rm : Rm) (a b : Nat) : Nat × Flags :=
  let (x, i) := exDiv workPrec (exOf f a) (exOf f b)
  let (r, g) := roundTo f rm x
  (r, i ||| g ||| snanFlags f [a, b])

/-- fsqrt. -/
def fSqrt (f : Fmt) (rm : Rm) (a : Nat) : Nat × Flags :=
  let (x, i) := exSqrt workPrec (exOf f a)
  let (r, g) := roundTo f rm x
  (r, i ||| g ||| snanFlags f [a])

/-- a × b + c with one rounding. -/
def fFma (f : Fmt) (rm : Rm) (a b c : Nat) : Nat × Flags :=
  let (p, i) := exMul (exOf f a) (exOf f b)
  let (x, j) := exAdd rm p (exOf f c)
  let (r, g) := roundTo f rm x
  (r, i ||| j ||| g ||| snanFlags f [a, b, c])

/-- The lesser (wantMax false) or greater operand, −0 below +0, a NaN giving way to a number (R102). -/
def fMinMax (f : Fmt) (wantMax : Bool) (a b : Nat) : Nat × Flags :=
  let w := 2 ^ (1 + f.e + f.m)
  let x := exOf f a
  let y := exOf f b
  let r := match isNanC f a, isNanC f b with
    | true, true => fmtNan f
    | true, false => b % w
    | false, true => a % w
    | false, false =>
      let aLess : Bool := match exCmp x y with
        | some .lt => true
        | some .gt => false
        | _ => exIsNeg x
      if aLess != wantMax then a % w else b % w
  (r, snanFlags f [a, b])

/-- Integer to floating (R86). -/
def fOfInt (f : Fmt) (rm : Rm) (i : Int) : Nat × Flags := roundTo f rm (exInt i)

/-- Floating to integer with bounds lo and hi (R86). -/
def fToInt (rm : Rm) (lo hi : Int) : Ex → Int × Flags
  | .nan => (0, fNV)
  | .inf s => (if s then lo else hi, fNV)
  | .fin s m e =>
    let (i, nx) := exToInt rm s m e
    if i < lo then (lo, fNV) else if hi < i then (hi, fNV) else (i, flagIf nx fNX)

/-- Floating to floating (R86). -/
def fCvt (src dst : Fmt) (rm : Rm) (a : Nat) : Nat × Flags :=
  let (r, g) := roundTo dst rm (exOf src a)
  (r, g ||| snanFlags src [a])

/-- The six floating conditions and `un` (R105); quiet conditions set NV only for a signalling NaN. -/
def fCmp (f : Fmt) (cond : Nat) (a b : Nat) : Bool × Flags :=
  let o := exCmp (exOf f a) (exOf f b)
  let sn := snanFlags f [a, b]
  let any := flagIf (isNanC f a || isNanC f b) fNV
  match cond with
  | 0 => (decide (o = some .eq), sn)
  | 1 => (decide (o ≠ some .eq), sn)
  | 2 => (decide (o = some .lt), any)
  | 3 => (decide (o = some .lt) || decide (o = some .eq), any)
  | 4 => (decide (o = some .gt), any)
  | 5 => (decide (o = some .gt) || decide (o = some .eq), any)
  | _ => (decide (o = none), sn)

end Sys2Proof.Machine
end

