-- ==== Sys2Proof/Machine/Special.lean ====
section
/-! DEFINITION. The special functions of R131 and R132, correctly rounded, by fixed-point bounds that are
refined until both ends round alike. A fixed-point number v at precision p stands for v / 2^p. -/

namespace Sys2Proof.Machine

/-- Σ over j of 2^p / ((2j + 1) · k^(2j + 1)), each step cut to an integer; the sign alternates when alt. -/
def invSeries (alt : Bool) (k2 : Nat) : Nat → Nat → Nat → Int
  | 0, _, _ => 0
  | fuel + 1, t, d =>
    if t = 0 then 0
    else
      let rest := invSeries alt k2 fuel (t / k2) (d + 2)
      (t / d : Nat) + (if alt then -rest else rest)

/-- ln 2 at precision p, within 8p + 64. -/
def ln2At (p : Nat) : Nat := (2 * invSeries false 9 (p + 8) (2 ^ p / 3) 1).toNat

/-- π at precision p, within 64p + 512 (16·arctan(1/5) − 4·arctan(1/239)). -/
def piAt (p : Nat) : Nat :=
  (16 * invSeries true 25 (p + 8) (2 ^ p / 5) 1 -
    4 * invSeries true (239 * 239) (p + 8) (2 ^ p / 239) 1).toNat

/-- Taylor steps of exp: the sum from term t = y^j/j! on, y in absolute value below 1. -/
def expSeries (p : Nat) (y : Int) : Nat → Int → Nat → Int
  | 0, _, _ => 0
  | fuel + 1, t, j => if t = 0 then 0 else t + expSeries p y fuel ((t * y).tdiv ((j : Int) * (2 ^ p : Nat))) (j + 1)

/-- exp(y) at precision p for |y| < 1, within 8p + 64 (y exact). -/
def expAt (p : Nat) (y : Int) : Int := expSeries p y (p + 8) ((2 ^ p : Nat) : Int) 1

/-- Taylor steps of sine and cosine: term t, next divisor j·(j + 1). -/
def trigSeries (p : Nat) (y2 : Int) : Nat → Int → Nat → Int
  | 0, _, _ => 0
  | fuel + 1, t, j =>
    if t = 0 then 0
    else t - trigSeries p y2 fuel ((t * y2).tdiv (((j * (j + 1) * 2 ^ p : Nat)) : Int)) (j + 2)

/-- sin(y) at precision p for |y| < 2, within 8p + 64. -/
def sinAt (p : Nat) (y : Int) : Int := trigSeries p ((y * y).tdiv (2 ^ p : Nat)) (p + 8) y 2
/-- cos(y) at precision p for |y| < 2, within 8p + 64. -/
def cosAt (p : Nat) (y : Int) : Int :=
  trigSeries p ((y * y).tdiv (2 ^ p : Nat)) (p + 8) ((2 ^ p : Nat) : Int) 1

/-- Σ over j of t / (2j + 1) with t shrinking by z² at precision p. -/
def atanhSeries (p : Nat) (z2 : Nat) : Nat → Nat → Nat → Nat
  | 0, _, _ => 0
  | fuel + 1, t, d => if t = 0 then 0 else t / d + atanhSeries p z2 fuel (t * z2 / 2 ^ p) (d + 2)

/-- ln(m) at precision p for m = num / 2^w in [1, 2), within 8p + 64. -/
def lnAt (p num w : Nat) : Nat :=
  let z := ((num - 2 ^ w) * 2 ^ p) / (num + 2 ^ w)
  2 * atanhSeries p (z * z / 2 ^ p) (p + 8) z 1

/-- A magnitude between lo and hi, in units of 2^-p: its rounding when both ends agree. -/
def agreed (f : Fmt) (rm : Rm) (neg : Bool) (p : Nat) (lo hi : Int) : Option (Nat × Flags) :=
  if lo ≤ 0 then none
  else
    let a := roundTo f rm (jam neg lo.toNat (-(p : Int)) true)
    let b := roundTo f rm (jam neg (hi - 1).toNat (-(p : Int)) true)
    if a = b then some a else none

/-- A value v ± err at precision p, its sign taken from v. -/
def agreedSigned (f : Fmt) (rm : Rm) (p : Nat) (v : Int) (err : Nat) : Option (Nat × Flags) :=
  agreed f rm (decide (v < 0)) p (v.natAbs - err) (v.natAbs + err)

/-- The first precision of a list at which both bounds round alike. -/
def firstAgreed (g : Nat → Option (Nat × Flags)) : List Nat → Nat × Flags
  | [] => (0, fNone)
  | p :: r => match g p with
    | some x => x
    | none => firstAgreed g r

/-- The precisions tried in turn. -/
def precisions : List Nat := [96, 192, 384, 768, 1536]

/-- m · 2^e at precision p, cut toward zero, and whether the cut is exact. -/
def fixAt (p m : Nat) (e : Int) : Nat :=
  if 0 ≤ e + p then m <<< (e + p).toNat else m >>> (-(e + p)).toNat

/-- 2^a for a finite a (R131). -/
def exp2Fin (f : Fmt) (rm : Rm) (neg : Bool) (m : Nat) (e : Int) : Nat × Flags :=
  let (i, frac) := exToInt .rdn neg m e
  if 2000 < i then roundTo f rm (.fin false 1 2000)
  else if i < -2000 then roundTo f rm (.fin false 1 (-2000))
  else if !frac then roundTo f rm (.fin false 1 i)
  else
    let w := (-e).toNat
    let num := (exAt neg m e e - i * (2 ^ w : Nat)).toNat
    firstAgreed (fun p =>
      let y := num * ln2At p / 2 ^ w
      let v := expAt p y
      let err := 64 * p + 512
      let q : Int := (p : Int) - i
      let a := roundTo f rm (jam false (v - err).toNat (-q) true)
      let b := roundTo f rm (jam false (v + err - 1).toNat (-q) true)
      if a = b then some a else none) precisions

/-- log2 of a positive finite value (R131). -/
def log2Fin (f : Fmt) (rm : Rm) (m : Nat) (e : Int) : Nat × Flags :=
  let w := Nat.log2 m
  if m = 2 ^ w then roundTo f rm (exInt (e + w))
  else firstAgreed (fun p =>
    let v : Int := (e + w) * (2 ^ p : Nat) + ((lnAt p m w * 2 ^ p / ln2At p : Nat) : Int)
    agreedSigned f rm p v (64 * p + 512)) precisions

/-- Sine (wantCos false) or cosine of a non-zero finite value (R131). -/
def trigFin (f : Fmt) (rm : Rm) (wantCos neg : Bool) (m : Nat) (e : Int) : Nat × Flags :=
  firstAgreed (fun p0 =>
    let p := p0 + 192
    let half := piAt (p + 8) / 2
    let x := fixAt (p + 8) m e
    let n := x / half
    let y : Int := ((x - n * half) / 256 : Nat)
    let k := (if wantCos then n + 1 else n) % 4
    let v := match k with
      | 0 => sinAt p y
      | 1 => cosAt p y
      | 2 => -(sinAt p y)
      | _ => -(cosAt p y)
    let v := if neg && !wantCos then -v else v
    agreedSigned f rm p v ((n + 1) * (128 * p + 1024))) precisions

/-- tanh of a non-zero finite value (R131). -/
def tanhFin (f : Fmt) (rm : Rm) (neg : Bool) (m : Nat) (e : Int) : Nat × Flags :=
  if 64 ≤ (exToInt .rz false m e).1 then roundTo f rm (.fin neg (2 ^ 128 - 1) (-128))
  else firstAgreed (fun p =>
    let x2 := fixAt p (2 * m) e
    let l := ln2At p
    let k := x2 / l
    let w : Nat := (expAt p (-((x2 - k * l : Nat) : Int))).toNat >>> k
    let one := 2 ^ p
    let v : Int := (((one - w) * one / (one + w) : Nat) : Int)
    let v := if neg then -v else v
    agreedSigned f rm p v ((k + 2) * (64 * p + 512))) precisions

/-- 1 / √(m · 2^e) for m > 0. -/
def exRsqrt (prec m : Nat) (e : Int) : Ex :=
  let k0 := 2 * prec + bitLen m
  let k := if (e + k0) % 2 = 0 then k0 else k0 + 1
  let r := isqrt (2 ^ k / m)
  jam false r (-((e + k) / 2)) (decide (r * r * m ≠ 2 ^ k))

/-- vrcp. -/
def fRcp (f : Fmt) (rm : Rm) (a : Nat) : Nat × Flags :=
  let (x, i) := exDiv workPrec (.fin false 1 0) (exOf f a)
  let (r, g) := roundTo f rm x
  (r, i ||| g ||| snanFlags f [a])

/-- A result of a special function on the exact operand, with NaN operands as in R82. -/
def specialOf (f : Fmt) (a : Nat) (onInf : Bool → Nat × Flags) (onFin : Bool → Nat → Int → Nat × Flags) :
    Nat × Flags :=
  match exOf f a with
  | .nan => (fmtNan f, snanFlags f [a])
  | .inf s => onInf s
  | .fin s m e => onFin s m e

/-- The invalid result. -/
def fInvalid (f : Fmt) : Nat × Flags := (fmtNan f, fNV)

/-- vrsqrt (R131, R132). -/
def fRsqrt (f : Fmt) (rm : Rm) (a : Nat) : Nat × Flags :=
  specialOf f a (fun s => if s then fInvalid f else (0, fNone))
    (fun s m e =>
      if m = 0 then (fmtSign f s + fmtInf f, fDZ)
      else if s then fInvalid f
      else roundTo f rm (exRsqrt workPrec m e))

/-- vexp2. -/
def fExp2 (f : Fmt) (rm : Rm) (a : Nat) : Nat × Flags :=
  specialOf f a (fun s => if s then (0, fNone) else (fmtInf f, fNone)) (exp2Fin f rm)

/-- vlog2. -/
def fLog2 (f : Fmt) (rm : Rm) (a : Nat) : Nat × Flags :=
  specialOf f a (fun s => if s then fInvalid f else (fmtInf f, fNone))
    (fun s m e =>
      if m = 0 then (fmtSign f true + fmtInf f, fDZ)
      else if s then fInvalid f
      else log2Fin f rm m e)

/-- vsin. -/
def fSin (f : Fmt) (rm : Rm) (a : Nat) : Nat × Flags :=
  specialOf f a (fun _ => fInvalid f)
    (fun s m e => if m = 0 then (fmtSign f s, fNone) else trigFin f rm false s m e)

/-- vcos. -/
def fCos (f : Fmt) (rm : Rm) (a : Nat) : Nat × Flags :=
  specialOf f a (fun _ => fInvalid f)
    (fun s m e => if m = 0 then roundTo f rm (exInt 1) else trigFin f rm true s m e)

/-- vtanh. -/
def fTanh (f : Fmt) (rm : Rm) (a : Nat) : Nat × Flags :=
  specialOf f a (fun s => roundTo f rm (.fin s 1 0))
    (fun s m e => if m = 0 then (fmtSign f s, fNone) else tanhFin f rm s m e)

/-- vround: an integral value of the same format, no NX (R132). -/
def fRound (f : Fmt) (rm : Rm) (a : Nat) : Nat × Flags :=
  specialOf f a (fun s => (fmtSign f s + fmtInf f, fNone))
    (fun s m e =>
      ((roundTo f rm (.fin s (exToInt rm s m e).1.natAbs 0)).1, fNone))

end Sys2Proof.Machine
end

