-- ==== Sys2Proof/Machine/LaneAlu.lean ====
section
/-! DEFINITION. The arithmetic of lane instructions on one lane's values: types, integer and floating
operations, conversions, Q4X blocks, crew reductions and vrand (R76 to R96, R129 to R154). -/

namespace Sys2Proof.Machine

/-- The type of a TY code (R76). -/
def tyOf (c : Nat) : Ty :=
  match c with
  | 0 => .s32 | 1 => .z32 | 2 => .s64 | 3 => .z64 | 4 => .s16 | 5 => .z16 | 6 => .s8 | 7 => .z8
  | 8 => .f64 | 9 => .f32 | 10 => .f16 | 11 => .bf16 | 12 => .f8a | 13 => .f8b | 14 => .q4x | _ => .b32

/-- The width of a type in bits; a Q4X block counts as 80. -/
def tyWidth : Ty → Nat
  | .s32 | .z32 | .f32 | .b32 => 32
  | .s64 | .z64 | .f64 => 64
  | .s16 | .z16 | .f16 | .bf16 => 16
  | .s8 | .z8 | .f8a | .f8b => 8
  | .q4x => 80

/-- A signed integer type. -/
def tySigned : Ty → Bool
  | .s32 | .s64 | .s16 | .s8 => true
  | _ => false

/-- Int of R129: the eight integer types. -/
def tyIsInt : Ty → Bool
  | .s32 | .z32 | .s64 | .z64 | .s16 | .z16 | .s8 | .z8 => true
  | _ => false

/-- The floating format of a type. -/
def tyFmt : Ty → Option Fmt
  | .f64 => some fmtF64 | .f32 => some fmtF32 | .f16 => some fmtF16 | .bf16 => some fmtBf16
  | .f8a => some fmtF8a | .f8b => some fmtF8b
  | _ => none

/-- F of R131. -/
def tyIsF : Ty → Bool
  | .f64 | .f32 | .f16 | .bf16 => true
  | _ => false

/-- S of R131. -/
def tyIsS : Ty → Bool
  | .f32 | .f16 | .bf16 => true
  | _ => false

/-- Bits of R129. -/
def tyIsBits (t : Ty) : Bool := t == .b32 || t == .z64

/-- The integer an operand stands for. -/
def intVal (t : Ty) (v : Nat) : Int :=
  if tySigned t then sVal (tyWidth t) v else ((v % 2 ^ tyWidth t : Nat) : Int)

/-- Narrow an exact integer result to the type (R130). -/
def intFin (t : Ty) (sat : Bool) (x : Int) : Nat × Flags :=
  let n := tyWidth t
  if sat then
    let (y, f) := if tySigned t then satS x n else satZ x n
    (wrapN n y, f)
  else (wrapN n x, fNone)

/-- The two-operand arithmetic of R129, by a function of the exact integers. -/
def intOp2 (t : Ty) (sat : Bool) (op : Int → Int → Int) (a b : Nat) : Nat × Flags :=
  intFin t sat (op (intVal t a) (intVal t b))

/-- vmul.hi: bits [2n − 1 : n] of the exact product. -/
def intMulHi (t : Ty) (a b : Nat) : Nat × Flags :=
  let n := tyWidth t
  (wrapN n ((intVal t a * intVal t b) >>> n), fNone)

/-- vdiv of R129. -/
def intDiv (t : Ty) (sat : Bool) (a b : Nat) : Nat × Flags :=
  let n := tyWidth t
  if tySigned t then
    let (q, f) := divS n sat (intVal t a) (intVal t b)
    (wrapN n q, f)
  else divZ n (a % 2 ^ n) (b % 2 ^ n)

/-- vrem of R129. -/
def intRem (t : Ty) (a b : Nat) : Nat × Flags :=
  let n := tyWidth t
  if tySigned t then
    let (q, f) := remS (intVal t a) (intVal t b)
    (wrapN n q, f)
  else remZ (a % 2 ^ n) (b % 2 ^ n)

/-- The bitwise operations on n bits. -/
def bitOp (t : Ty) (op : Nat → Nat → Nat) (a b : Nat) : Nat × Flags :=
  let n := tyWidth t
  (op (a % 2 ^ n) (b % 2 ^ n) % 2 ^ n, fNone)

/-- vshl. -/
def intShl (t : Ty) (a b : Nat) : Nat × Flags :=
  let n := tyWidth t
  (((a % 2 ^ n) <<< (b % 2 ^ n % n)) % 2 ^ n, fNone)

/-- vshr: arithmetic for signed types, logical otherwise. -/
def intShr (t : Ty) (a b : Nat) : Nat × Flags :=
  let n := tyWidth t
  (wrapN n (intVal t a >>> (b % 2 ^ n % n)), fNone)

/-- vrol. -/
def intRol (t : Ty) (a b : Nat) : Nat × Flags :=
  let n := tyWidth t
  (rolN n a (b % 2 ^ n % n), fNone)

/-- The integer tests of R143: eq, ne, lt, le, gt, ge, tst. -/
def intCmp (t : Ty) (cond : Nat) (a b : Nat) : Bool :=
  let x := intVal t a
  let y := intVal t b
  match cond with
  | 0 => decide (x = y)
  | 1 => decide (x ≠ y)
  | 2 => decide (x < y)
  | 3 => decide (x ≤ y)
  | 4 => decide (y < x)
  | 5 => decide (y ≤ x)
  | _ => decide ((a % 2 ^ tyWidth t) &&& (b % 2 ^ tyWidth t) ≠ 0)

/-- Convert(v, TS, TD, rm, sat) of R86. -/
def convert (rm : Rm) (sat : Bool) (ts td : Ty) (v : Nat) : Nat × Flags :=
  match tyFmt ts, tyFmt td with
  | none, none => intFin td sat (intVal ts v)
  | none, some g => fOfInt g rm (intVal ts v)
  | some f, none =>
    let n := tyWidth td
    let (i, fl) := if tySigned td then fToInt rm (sMin n) (sMax n) (exOf f v) else fToInt rm 0 (zMax n) (exOf f v)
    (wrapN n i, fl)
  | some f, some g =>
    if ts = td then (v % 2 ^ tyWidth td, fNone)
    else
      let (r, fl) := fCvt f g rm v
      if sat && td == .f8b then
        match exOf f v with
        | .inf s => (fmtSign g s + fmtMax g, fSAT)
        | .nan => (r, fl)
        | .fin s _ _ => if fl &&& fOF = fNone then (r, fl) else (fmtSign g s + fmtMax g, fl ||| fSAT)
      else (r, fl)

/-- A conversion between floating formats that widens exactly (R86, R133). -/
def fWidens (a b : Fmt) : Bool :=
  decide (a.m ≤ b.m) && decide (fmtEmin b - b.m ≤ fmtEmin a - a.m) &&
    decide ((2 : Int) ^ a.e - a.bias ≤ (2 : Int) ^ b.e - b.bias) && !b.finiteOnly && decide (a ≠ b)

/-- Whether a conversion may round, so that its RM field is free (R133). A floating type to itself, in vpack and vunpk,
is none of the kinds that ask RM 000. (DEDUCED, safe: notes/assumptions/47.md) -/
def cvtRounds (ts td : Ty) : Bool :=
  match tyFmt ts, tyFmt td with
  | none, none => decide (tyWidth td < tyWidth ts)
  | none, some _ => true
  | some _, none => true
  | some f, some g => !fWidens f g || ts == td

/-- Whether a conversion has the saturating modifier (R133). (DEDUCED, safe: notes/assumptions/47.md) -/
def cvtSat (ts td : Ty) : Bool :=
  match tyFmt ts, tyFmt td with
  | none, none => decide (tyWidth td < tyWidth ts) ||
      (decide (tyWidth td = tyWidth ts) && (tySigned td != tySigned ts))
  | some _, some _ => td == .f8b
  | _, _ => false

/-! ### Q4X blocks (R87 to R89) -/

/-- Element code i of a block given as a number of 80 bits. -/
def q4Code (blk i : Nat) : Nat := (blk >>> (4 * i)) % 16

/-- The signed value of a nibble. -/
def int4 (c : Nat) : Int := if c < 8 then c else (c : Int) - 16

/-- The walk of R88 from element i on: outliers taken, slots surrendered, values so far, and whether a
third escape was met. -/
def q4Walk (blk : Nat) : Nat → Nat → Nat → List Nat → SMap Ex → Bool → SMap Ex × Bool
  | 0, _, _, _, vals, e => (vals, e)
  | fuel + 1, i, n, sur, vals, e =>
    if sur.contains i then q4Walk blk fuel (i + 1) n sur vals e
    else
      let c := q4Code blk i
      if c ≠ 8 then q4Walk blk fuel (i + 1) n sur (smSet .nan vals i (exInt (int4 c))) e
      else if n < 2 then
        let j := i ^^^ 1
        let hi := if n = 0 then (blk >>> 68) % 16 else (blk >>> 64) % 16
        let v := exOf fmtF8a (hi * 16 + q4Code blk j)
        q4Walk blk fuel (i + 1) (n + 1) (j :: sur) (smSet .nan (smSet .nan vals i v) j exZero) e
      else q4Walk blk fuel (i + 1) n sur (smSet .nan vals i exZero) true

/-- The scale exponent SE of a block. -/
def q4Se (blk : Nat) : Nat := (blk >>> 72) % 256

/-- Multiply an exact value by a power of two. -/
def exScale (k : Int) : Ex → Ex
  | .fin s m e => .fin s m (if m = 0 then 0 else e + k)
  | x => x

/-- The 16 values of a block before scaling (R88), and whether a format error was met. -/
def q4Vals (blk : Nat) : List Ex × Bool :=
  let (m, e) := q4Walk blk 16 0 0 [] [] false
  (smGetMany exZero m 0 16, e)

/-- The 16 values of a block (R88), and whether a format error was met. -/
def q4Decode (blk : Nat) : List Ex × Bool :=
  let (l, e) := q4Vals blk
  (l.map (exScale ((q4Se blk : Int) - 127)), e)

/-- The state of the encoding of R89: codes, surrendered slots, outlier codes, flags. -/
structure Q4Enc where
  codes : SMap Nat
  sur : List Nat
  esc : List Nat
  flags : Flags
  deriving DecidableEq, Repr

/-- Whether |q| ≤ 7 for the rounded value of y; the rounded value. -/
def q4Small (rm : Rm) (y : Ex) : Option (Int × Bool) :=
  match y with
  | .fin s m e =>
    let (q, nx) := exToInt rm s m e
    if -7 ≤ q ∧ q ≤ 7 then some (q, nx) else none
  | _ => none

/-- Step 3 and 4 of R89 for candidate i with scaled source y. -/
def q4Candidate (rm : Rm) (st : Q4Enc) (i : Nat) (y : Ex) : Q4Enc :=
  if st.sur.contains i then { st with flags := st.flags ||| fSAT ||| fNX }
  else if st.esc.length < 2 then
    let (c, fl) := roundTo fmtF8a rm y
    let j := i ^^^ 1
    { codes := smSet 0 (smSet 0 st.codes i 8) j (c % 16), sur := j :: st.sur,
      esc := st.esc ++ [c / 16], flags := st.flags ||| fl }
  else { st with codes := smSet 0 st.codes i (if exIsNeg y then 9 else 7), flags := st.flags ||| fSAT ||| fNX }

/-- The steps of R89 over the remaining elements. -/
def q4Candidates (rm : Rm) (st : Q4Enc) : Nat → List Ex → Q4Enc
  | _, [] => st
  | i, y :: r =>
    let st' := match y with
      | .nan => st
      | _ => match q4Small rm y with
        | some _ => st
        | none => q4Candidate rm st i y
    q4Candidates rm st' (i + 1) r

/-- Step 2 of R89. -/
def q4Codes (rm : Rm) : List Ex → List Nat
  | [] => []
  | y :: r => (match q4Small rm y with
    | some (q, _) => wrapN 4 q
    | none => 0) :: q4Codes rm r

/-- The 80-bit number of element codes and side word. -/
def q4Pack (codes : List Nat) (esc : List Nat) (se : Nat) : Nat :=
  (codes.foldr (fun c acc => c % 16 + 16 * acc) 0) +
    2 ^ 64 * (nth 0 esc 1 % 16 + 16 * (nth 0 esc 0 % 16) + 256 * (se % 256))

/-- Whether two exact values are equal as numbers. -/
def exSame (a b : Ex) : Bool := decide (exCmp a b = some .eq)

/-- Step 2 of R89 rounds a source inexactly, whatever code it then receives. -/
def q4Inexact (rm : Rm) (y : Ex) : Bool :=
  match y with
  | .fin s m e => (exToInt rm s m e).2
  | _ => false

/-- Encode of R89: 16 sources (binary32 codes) and SE give a block. NX compares the decoded block with the sources, and is set
too by every inexact rounding of step 2.
(DEDUCED, unsafe: notes/assumptions/51.md) -/
def q4Encode (rm : Rm) (srcs : List Nat) (se : Nat) : Nat × Flags :=
  let xs := srcs.map (exOf fmtF32)
  let ys := xs.map (exScale (127 - (se : Int)))
  let ys0 := ys.map (fun y => if y = .nan then exZero else y)
  let st0 : Q4Enc := ⟨smSetMany 0 [] 0 (q4Codes rm ys0), [], [], fNone⟩
  let st := q4Candidates rm st0 0 ys
  let blk := q4Pack (smGetMany 0 st.codes 0 16) st.esc se
  let back := (q4Decode blk).1
  let differs := (xs.zip back).any (fun p => decide (p.1 ≠ .nan) && !exSame p.1 p.2)
  (blk, st.flags ||| flagIf (xs.contains .nan) fNV ||| flagIf (differs || ys.any (q4Inexact rm)) fNX)

/-! ### Combining operations of scans and reductions (R95, R152, R153) -/

/-- Combine of the operation code of R152 on two values of a type. -/
def combine (t : Ty) (rm : Rm) (sat : Bool) (op a b : Nat) : Nat × Flags :=
  match tyFmt t, op with
  | some f, 0 => fAdd f rm a b
  | some f, 1 => fMul f rm a b
  | some f, 2 => fMinMax f false a b
  | some f, _ => fMinMax f true a b
  | none, 0 => intOp2 t sat (· + ·) a b
  | none, 1 => intOp2 t sat (· * ·) a b
  | none, 2 => intOp2 t false min a b
  | none, 3 => intOp2 t false max a b
  | none, 4 => bitOp t (· &&& ·) a b
  | none, 5 => bitOp t (· ||| ·) a b
  | none, _ => bitOp t (· ^^^ ·) a b

/-- Identity(op, TY) of R95. -/
def identityOf (t : Ty) (op : Nat) : Nat :=
  let n := tyWidth t
  match tyFmt t, op with
  | some f, 0 => fmtSign f true
  | some f, 1 => (roundTo f .rne (exInt 1)).1
  | some f, 2 => fmtInf f
  | some f, _ => fmtSign f true + fmtInf f
  | none, 0 => 0
  | none, 1 => 1
  | none, 2 => if tySigned t then 2 ^ (n - 1) - 1 else 2 ^ n - 1
  | none, 3 => if tySigned t then 2 ^ (n - 1) else 0
  | none, 4 => 2 ^ n - 1
  | none, _ => 0

/-- One level of the tree of R95. -/
def treeLevel (f : Nat → Nat → Nat × Flags) : List Nat → List Nat × Flags
  | a :: b :: r =>
    let (x, fl) := f a b
    let (l, fl') := treeLevel f r
    (x :: l, fl ||| fl')
  | l => (l, fNone)

/-- The tree over 2^k values. -/
def treeReduce (f : Nat → Nat → Nat × Flags) : Nat → List Nat → Flags → Nat × Flags
  | 0, l, fl => (nth 0 l 0, fl)
  | k + 1, l, fl =>
    let (l', fl') := treeLevel f l
    treeReduce f k l' (fl ||| fl')

/-- The crew reduction of R95: none at an inactive position. -/
def crewReduce (t : Ty) (rm : Rm) (op : Nat) (xs : List (Option Nat)) : Nat × Flags :=
  let leaves := (List.range 32).map (fun i => match nth none xs i with
    | some v => v
    | none => identityOf t op)
  treeReduce (combine t rm false op) 5 leaves fNone

/-! ### vrand (R96) -/

/-- The four rounds of Mix. -/
def mixRounds : Nat → Nat → Nat → Nat → Nat → Nat
  | 0, xl, xh, _, _ => xh * 2 ^ 32 + xl
  | j + 1, xl, xh, kl, kh =>
    let p := xl * 0xCB9B3E5D
    let y := (p / 2 ^ 32) ^^^ rolN 32 xh 11 ^^^ kl
    mixRounds j y ((p % 2 ^ 32 + kh) % 2 ^ 32) ((kl + 0x7F4A7C15) % 2 ^ 32) ((kh + 0xA54FF53A) % 2 ^ 32)

/-- Mix(ctr, key). -/
def mix (ctr key : Nat) : Nat :=
  mixRounds 4 (ctr % 2 ^ 32) (ctr / 2 ^ 32 % 2 ^ 32) (key % 2 ^ 32) (key / 2 ^ 32 % 2 ^ 32)

/-- The key of a lane. -/
def randKey (rseed : W64) (team crew lane : Nat) : Nat :=
  ((rseed.toNat / 2 ^ 32) ^^^ (team % 2 ^ 32)) * 2 ^ 32 + ((rseed.toNat % 2 ^ 32) ^^^ (32 * crew + lane))

/-- The result of vrand by type. -/
def randValue (t : Ty) (out : Nat) : Nat :=
  match t with
  | .f32 => (roundTo fmtF32 .rne (.fin false (out % 2 ^ 32 / 256) (-24))).1
  | .f64 => (roundTo fmtF64 .rne (.fin false (out / 2 ^ 11) (-53))).1
  | .s64 | .z64 => out
  | _ => out % 2 ^ 32

end Sys2Proof.Machine
end

