-- ==== Sys2Proof/Syntax.lean ====
section
/-! DEFINITION. The instructions and events of the LSX-9210, one constructor per row of the opcode table.
Rows 0 to 215 are scalar instructions, then the pair word and the lane instructions, then the steps of the
device, which carry no encoding. -/

namespace Sys2Proof

/-- The operations of the machine (spec/opcode_table.json). -/
inductive Instr where
  /-- R101. sD := sA + sB modulo 2^64. -/
  | add (d a b : BitVec 6)
  /-- R101. sD := sA − sB modulo 2^64. -/
  | sub (d a b : BitVec 6)
  /-- R101. sD := low 64 bits of sA × sB. -/
  | mul (d a b : BitVec 6)
  /-- R101. sD := high 64 bits of the signed 128-bit product. -/
  | mulh (d a b : BitVec 6)
  /-- R101. sD := high 64 bits of the unsigned 128-bit product. -/
  | mulhz (d a b : BitVec 6)
  /-- R101. Signed quotient toward zero; a zero divisor sets IDZ. -/
  | div (d a b : BitVec 6)
  /-- R101. Unsigned quotient; a zero divisor sets IDZ. -/
  | divz (d a b : BitVec 6)
  /-- R101. Signed remainder with the dividend's sign. -/
  | rem (d a b : BitVec 6)
  /-- R101. Unsigned remainder. -/
  | remz (d a b : BitVec 6)
  /-- R101. Signed minimum. -/
  | min (d a b : BitVec 6)
  /-- R101. Signed maximum. -/
  | max (d a b : BitVec 6)
  /-- R101. Unsigned minimum. -/
  | minz (d a b : BitVec 6)
  /-- R101. Unsigned maximum. -/
  | maxz (d a b : BitVec 6)
  /-- R101. Signed saturating add, setting SAT on clamping. -/
  | addSat (d a b : BitVec 6)
  /-- R101. Signed saturating subtract. -/
  | subSat (d a b : BitVec 6)
  /-- R101. Unsigned saturating add. -/
  | addzSat (d a b : BitVec 6)
  /-- R101. Unsigned saturating subtract. -/
  | subzSat (d a b : BitVec 6)
  /-- R101. Bitwise AND. -/
  | and (d a b : BitVec 6)
  /-- R101. Bitwise OR. -/
  | or (d a b : BitVec 6)
  /-- R101. Bitwise XOR. -/
  | xor (d a b : BitVec 6)
  /-- R101. sA AND NOT sB. -/
  | andn (d a b : BitVec 6)
  /-- R101. Shift left by sB mod 64. -/
  | shl (d a b : BitVec 6)
  /-- R101. Logical shift right by sB mod 64. -/
  | shr (d a b : BitVec 6)
  /-- R101. Arithmetic shift right by sB mod 64. -/
  | sar (d a b : BitVec 6)
  /-- R101. Rotate left by sB mod 64. -/
  | rol (d a b : BitVec 6)
  /-- R101. Population count of sA. -/
  | popc (d a : BitVec 6)
  /-- R101. Leading zeros of sA. -/
  | clz (d a : BitVec 6)
  /-- R101. Trailing zeros of sA. -/
  | ctz (d a : BitVec 6)
  /-- R101. 32-bit add, result sign-extended. -/
  | addW (d a b : BitVec 6)
  /-- R101. 32-bit subtract, sign-extended. -/
  | subW (d a b : BitVec 6)
  /-- R101. 32-bit low product, sign-extended. -/
  | mulW (d a b : BitVec 6)
  /-- R101. High 32 bits of the signed 64-bit product. -/
  | mulhW (d a b : BitVec 6)
  /-- R101. High 32 bits of the unsigned product, zero-extended. -/
  | mulhzW (d a b : BitVec 6)
  /-- R101. 32-bit signed quotient. -/
  | divW (d a b : BitVec 6)
  /-- R101. 32-bit unsigned quotient. -/
  | divzW (d a b : BitVec 6)
  /-- R101. 32-bit signed remainder. -/
  | remW (d a b : BitVec 6)
  /-- R101. 32-bit unsigned remainder. -/
  | remzW (d a b : BitVec 6)
  /-- R101. 32-bit signed minimum. -/
  | minW (d a b : BitVec 6)
  /-- R101. 32-bit signed maximum. -/
  | maxW (d a b : BitVec 6)
  /-- R101. 32-bit unsigned minimum. -/
  | minzW (d a b : BitVec 6)
  /-- R101. 32-bit unsigned maximum. -/
  | maxzW (d a b : BitVec 6)
  /-- R101. 32-bit signed saturating add. -/
  | addSatW (d a b : BitVec 6)
  /-- R101. 32-bit signed saturating subtract. -/
  | subSatW (d a b : BitVec 6)
  /-- R101. 32-bit unsigned saturating add. -/
  | addzSatW (d a b : BitVec 6)
  /-- R101. 32-bit unsigned saturating subtract. -/
  | subzSatW (d a b : BitVec 6)
  /-- R101. 32-bit AND, zero-extended. -/
  | andW (d a b : BitVec 6)
  /-- R101. 32-bit OR, zero-extended. -/
  | orW (d a b : BitVec 6)
  /-- R101. 32-bit XOR, zero-extended. -/
  | xorW (d a b : BitVec 6)
  /-- R101. 32-bit AND NOT. -/
  | andnW (d a b : BitVec 6)
  /-- R101. 32-bit shift left, sign-extended. -/
  | shlW (d a b : BitVec 6)
  /-- R101. 32-bit logical shift right. -/
  | shrW (d a b : BitVec 6)
  /-- R101. 32-bit arithmetic shift right. -/
  | sarW (d a b : BitVec 6)
  /-- R101. 32-bit rotate left. -/
  | rolW (d a b : BitVec 6)
  /-- R101. Population count of sA[31:0]. -/
  | popcW (d a : BitVec 6)
  /-- R101. Leading zeros of sA[31:0]. -/
  | clzW (d a : BitVec 6)
  /-- R101. Trailing zeros of sA[31:0]. -/
  | ctzW (d a : BitVec 6)
  /-- R102. Binary64 add rounded by RMDEF. -/
  | faddF64 (d a b : BitVec 6)
  /-- R102. Binary64 subtract. -/
  | fsubF64 (d a b : BitVec 6)
  /-- R102. Binary64 multiply. -/
  | fmulF64 (d a b : BitVec 6)
  /-- R102. Binary64 divide. -/
  | fdivF64 (d a b : BitVec 6)
  /-- R102. Binary64 square root. -/
  | fsqrtF64 (d a : BitVec 6)
  /-- R102. Binary64 minimum with −0 below +0. -/
  | fminF64 (d a b : BitVec 6)
  /-- R102. Binary64 maximum. -/
  | fmaxF64 (d a b : BitVec 6)
  /-- R102. sD := sA × sB + old sD with one rounding. -/
  | ffmaF64 (d a b : BitVec 6)
  /-- R102. s64 to binary64. -/
  | fcvtF64S64 (d a : BitVec 6)
  /-- R102. z64 to binary64. -/
  | fcvtF64Z64 (d a : BitVec 6)
  /-- R102. Binary64 to s64 under R86. -/
  | fcvtS64F64 (d a : BitVec 6)
  /-- R102. Binary64 to z64 under R86. -/
  | fcvtZ64F64 (d a : BitVec 6)
  /-- R102. Binary32 widened exactly to binary64. -/
  | fcvtF64F32 (d a : BitVec 6)
  /-- R102. Clears the binary64 sign bit. -/
  | fabsF64 (d a : BitVec 6)
  /-- R102. Inverts the binary64 sign bit. -/
  | fnegF64 (d a : BitVec 6)
  /-- R102. Binary32 add. -/
  | faddF32 (d a b : BitVec 6)
  /-- R102. Binary32 subtract. -/
  | fsubF32 (d a b : BitVec 6)
  /-- R102. Binary32 multiply. -/
  | fmulF32 (d a b : BitVec 6)
  /-- R102. Binary32 divide. -/
  | fdivF32 (d a b : BitVec 6)
  /-- R102. Binary32 square root. -/
  | fsqrtF32 (d a : BitVec 6)
  /-- R102. Binary32 minimum. -/
  | fminF32 (d a b : BitVec 6)
  /-- R102. Binary32 maximum. -/
  | fmaxF32 (d a b : BitVec 6)
  /-- R102. Binary32 fused multiply-add into sD. -/
  | ffmaF32 (d a b : BitVec 6)
  /-- R102. s64 to binary32. -/
  | fcvtF32S64 (d a : BitVec 6)
  /-- R102. z64 to binary32. -/
  | fcvtF32Z64 (d a : BitVec 6)
  /-- R102. Binary32 to s64. -/
  | fcvtS64F32 (d a : BitVec 6)
  /-- R102. Binary32 to z64. -/
  | fcvtZ64F32 (d a : BitVec 6)
  /-- R102. Binary64 rounded to binary32. -/
  | fcvtF32F64 (d a : BitVec 6)
  /-- R102. Clears the binary32 sign bit. -/
  | fabsF32 (d a : BitVec 6)
  /-- R102. Inverts the binary32 sign bit. -/
  | fnegF32 (d a : BitVec 6)
  /-- R103. sD := sA + sign-extended 14-bit immediate. -/
  | addi (d a : BitVec 6) (i : BitVec 14)
  /-- R103. sD := sA AND sign-extended immediate. -/
  | andi (d a : BitVec 6) (i : BitVec 14)
  /-- R103. sD := sA OR zero-extended immediate. -/
  | ori (d a : BitVec 6) (i : BitVec 14)
  /-- R103. sD := sA XOR zero-extended immediate. -/
  | xori (d a : BitVec 6) (i : BitVec 14)
  /-- R103. 64-bit shift left by an immediate count. -/
  | shli (d a n : BitVec 6)
  /-- R103. 32-bit shift left by an immediate count. -/
  | shliW (d a : BitVec 6) (n : BitVec 5)
  /-- R103. 64-bit logical shift right by an immediate count. -/
  | shri (d a n : BitVec 6)
  /-- R103. 32-bit logical shift right by an immediate count. -/
  | shriW (d a : BitVec 6) (n : BitVec 5)
  /-- R103. 64-bit arithmetic shift right by an immediate count. -/
  | sari (d a n : BitVec 6)
  /-- R103. 32-bit arithmetic shift right by an immediate count. -/
  | sariW (d a : BitVec 6) (n : BitVec 5)
  /-- R103. 64-bit rotate left by an immediate count. -/
  | roli (d a n : BitVec 6)
  /-- R103. 32-bit rotate left by an immediate count. -/
  | roliW (d a : BitVec 6) (n : BitVec 5)
  /-- R104. sD := sign-extended 20-bit immediate (A, IMM). -/
  | li (d : BitVec 6) (i : BitVec 20)
  /-- R104. Long form: sD := Sext(IMM32, 32). -/
  | liW (d : BitVec 6) (i : BitVec 32)
  /-- R104. Long form: sD := Zext(IMM32, 32). -/
  | liWz (d : BitVec 6) (i : BitVec 32)
  /-- R104. Long form: sD[63:32] := IMM32, low half kept. -/
  | liWh (d : BitVec 6) (i : BitVec 32)
  /-- R105. Integer compare of sA and sB under the condition code into cD. -/
  | cmp (d : BitVec 4) (a b : BitVec 6) (c : BitVec 4)
  /-- R105. Binary64 compare under the condition code into cD. -/
  | cmpF64 (d : BitVec 4) (a b : BitVec 6) (c : BitVec 3)
  /-- R105. Binary32 compare under the condition code into cD. -/
  | cmpF32 (d : BitVec 4) (a b : BitVec 6) (c : BitVec 3)
  /-- R105. Integer compare of sA with a 10-bit immediate into cD. -/
  | cmpi (d : BitVec 4) (a : BitVec 6) (c : BitVec 4) (i : BitVec 10)
  /-- R106. cD := cA AND cB. -/
  | predAnd (d a b : BitVec 4)
  /-- R106. cD := cA OR cB. -/
  | predOr (d a b : BitVec 4)
  /-- R106. cD := cA XOR cB. -/
  | predXor (d a b : BitVec 4)
  /-- R106. cD := cA AND NOT cB. -/
  | predAndn (d a b : BitVec 4)
  /-- R106. cD := cA OR NOT cB. -/
  | predOrn (d a b : BitVec 4)
  /-- R106. cD := NOT (cA AND cB). -/
  | predNand (d a b : BitVec 4)
  /-- R106. cD := NOT (cA OR cB). -/
  | predNor (d a b : BitVec 4)
  /-- R106. cD := NOT (cA XOR cB). -/
  | predXnor (d a b : BitVec 4)
  /-- R106. cD := cA. -/
  | predMov (d a : BitVec 4)
  /-- R106. cD := NOT cA. -/
  | predNot (d a : BitVec 4)
  /-- R106. cD := true. -/
  | predSet (d : BitVec 4)
  /-- R106. cD := false. -/
  | predClr (d : BitVec 4)
  /-- R106. cD := (sA ≠ 0). -/
  | predNz (d : BitVec 4) (a : BitVec 6)
  /-- R106. sD := 1 if cA else 0. -/
  | predGet (d : BitVec 6) (a : BitVec 4)
  /-- R107. Conditional PC-relative scalar branch. -/
  | bra (c : BitVec 4) (n : BitVec 1) (o : BitVec 21)
  /-- R107. Conditional PC-relative call writing s63. -/
  | call (c : BitVec 4) (n : BitVec 1) (o : BitVec 21)
  /-- R108. Conditional jump to sA. -/
  | jr (a : BitVec 6) (n : BitVec 1) (c : BitVec 4)
  /-- R108. Conditional jump to s63. -/
  | ret (n : BitVec 1) (c : BitVec 4)
  /-- R108. Conditional indirect call to sA, link to sD. -/
  | calli (d a : BitVec 6) (n : BitVec 1) (c : BitVec 4)
  /-- R109. Decrements sD and branches while it is non-zero. -/
  | loop (d : BitVec 6) (i : BitVec 14)
  /-- R110. Enqueues a lane run at a PC-relative target, waiting while the queue is full. -/
  | lrun (i : BitVec 14)
  /-- R110. Long form: enqueues a lane run at pc + IMM32. -/
  | lrunFar (i : BitVec 32)
  /-- R110. Long form: enqueues a lane run at sA + IMM32. -/
  | lrunFarReg (a : BitVec 6) (i : BitVec 32)
  /-- R112. Writes snapshot slot K from sA. -/
  | lsnap (a : BitVec 6) (k : BitVec 4)
  /-- R112. Writes snapshot slots K and K+1 from sA and sB. -/
  | lsnapPair (a b : BitVec 6) (k : BitVec 4)
  /-- R113. Waits until every enqueued lane run has completed and delivers their flags. -/
  | lwait
  /-- R113. Waits until at most n runs remain, delivering the covered runs' flags. -/
  | lwaitLe (n : BitVec 4)
  /-- R114. Reads the selected special register into sD. -/
  | xrd (d : BitVec 6) (s : BitVec 14)
  /-- R116. Writes sA to the selected special register. -/
  | xwr (a : BitVec 6) (s : BitVec 14)
  /-- R117. Does nothing. -/
  | nop
  /-- R118. Enters the handler with the given cause code. -/
  | trap (c : BitVec 8)
  /-- R118. Enters the handler with cause 0x18. -/
  | brk
  /-- R119. Offers the crew's place to a ready pending crew. -/
  | yield
  /-- R120. Waits for engine counters to reach zero and ends the scalar stream. -/
  | exit
  /-- R294. Ends the handler and continues at trap.pc and trap.lpc. -/
  | resume
  /-- R122. Crew 0 offers a child slice record to a slice queue and sets cD. -/
  | spawnTry (c : BitVec 4) (a b : BitVec 6)
  /-- R124. Team-collective arrival that requests a move of the team toward a hint address. -/
  | graft (a : BitVec 6)
  /-- R191. Scalar load through the normal path. -/
  | ld (d a : BitVec 6) (w : BitVec 3) (o : BitVec 10)
  /-- R191. Scalar load through the read-only path. -/
  | ldRo (d a : BitVec 6) (w : BitVec 3) (o : BitVec 10)
  /-- R192. Scalar store of 1 to 8 bytes. -/
  | st (d a : BitVec 6) (w : BitVec 2) (o : BitVec 12)
  /-- R193. Scalar atomic read-modify-write at the home with the selected op and ordering. -/
  | amo (d a b : BitVec 6) (o : BitVec 4) (w : BitVec 1) (s : BitVec 3)
  /-- R198. Scalar fence of the given order and scope. -/
  | fence (o : BitVec 2) (s : BitVec 3)
  /-- R199. Fykar-compatible wait until an engine counter is at or below a threshold. -/
  | ewait (n : BitVec 12) (c : BitVec 3)
  /-- R201. Issues a copy command into a handle's buffer. -/
  | cpIssue (d : BitVec 6) (a : BitVec 4)
  /-- R201. Issues a copy that arrives on a barrier when done. -/
  | cpIssueBar (d : BitVec 6) (a : BitVec 4) (b : BitVec 5)
  /-- R201. Issues a copy to the current handle of a stage ring. -/
  | cpIssueRing (d : BitVec 6) (a : BitVec 4)
  /-- R203. Long form: branches if the handle is full, else leaves the active set until it is. -/
  | cpYield (d : BitVec 6) (i : BitVec 32)
  /-- R205. Binds a handle name to a core entry and buffer. -/
  | hBind (d a : BitVec 6) (c : BitVec 4)
  /-- R205. Unbinds a free handle. -/
  | hUnbind (d : BitVec 6)
  /-- R205. Waits for a full handle and claims it as draining. -/
  | hClaim (d : BitVec 6)
  /-- R205. Releases a draining handle to free. -/
  | hRelease (d : BitVec 6)
  /-- R205. Waits for a handle to become full without claiming. -/
  | hWait (d : BitVec 6)
  /-- R205. Claims a full handle if possible and sets cN. -/
  | hTry (d : BitVec 6) (c : BitVec 4)
  /-- R205. Returns a handle's state, lap and bound bit. -/
  | hState (d a : BitVec 6)
  /-- R206. Waits for the ring's current handle to fill with the expected lap, then claims it. -/
  | hRclaim (a : BitVec 6)
  /-- R206. Advances a ring descriptor. -/
  | hRadv (d a : BitVec 6)
  /-- R208. Binds a barrier name to a pool entry with an expected count. -/
  | barAlloc (c : BitVec 4) (a : BitVec 6) (b : BitVec 5)
  /-- R208. Arrives at a barrier without waiting. -/
  | barMark (b : BitVec 5)
  /-- R208. Arrives and waits for the phase to complete. -/
  | barMeet (b : BitVec 5)
  /-- R208. Waits for the next completion if the phase matches ph. -/
  | barHold (p : BitVec 1) (b : BitVec 5)
  /-- R208. Adds a signed amount to the barrier's pending bytes. -/
  | barPend (a : BitVec 6) (b : BitVec 5)
  /-- R208. Drops a barrier binding. -/
  | barFree (b : BitVec 5)
  /-- R208. Reads the barrier's phase bit. -/
  | barPhase (d : BitVec 6) (b : BitVec 5)
  /-- R212. Blocking push of an entry or slice record to a queue. -/
  | qPush (a b : BitVec 6) (s : BitVec 3)
  /-- R212. Try push setting cN. -/
  | qPushTry (c : BitVec 4) (a b : BitVec 6) (s : BitVec 3)
  /-- R212. Blocking pop of the oldest data-queue entry into sD. -/
  | qPop (d a : BitVec 6) (s : BitVec 3)
  /-- R212. Try pop setting cN. -/
  | qPopTry (d a : BitVec 6) (c : BitVec 4) (s : BitVec 3)
  /-- R213. Writes back dirty lines over a range in the scope's caches. -/
  | cmoWb (a b : BitVec 6) (s : BitVec 3)
  /-- R213. Writes back and invalidates lines over a range. -/
  | cmoWbinv (a b : BitVec 6) (s : BitVec 3)
  /-- R213. Invalidates lines over a range without write-back. -/
  | cmoInv (a b : BitVec 6) (s : BitVec 3)
  /-- R213. Invalidates instruction caches over a range. -/
  | cmoIinv (a b : BitVec 6) (s : BitVec 3)
  /-- R213. Drops read-only path copies over a range. -/
  | cmoRodrop (a b : BitVec 6) (s : BitVec 3)
  /-- R224. Loads a weight image header now and its blocks asynchronously into the weight space. -/
  | matWload (a b : BitVec 6)
  /-- R219. Waits for and takes the core's matrix token. -/
  | matTokenTake
  /-- R219. Passes the matrix token to the next waiting crew of the team or frees it. -/
  | matTokenPass
  /-- R219. Sets cN if the crew holds the token. -/
  | matTokenQuery (c : BitVec 4)
  /-- R217. Waits for and binds n accumulator banks. -/
  | accAlloc (d : BitVec 4) (n : BitVec 5)
  /-- R217. Waits for matrix operations on the banks, then unbinds them. -/
  | accFree (d : BitVec 4) (n : BitVec 5)
  /-- R228. Issues zeroing of a bank as FX with exponent G. -/
  | matZeroFx (d : BitVec 4) (a : BitVec 6)
  /-- R228. Issues zeroing of a bank as FP. -/
  | matZeroFp (d : BitVec 4)
  /-- R229. Issues a drain of a bank to scratchpad in the given output format. -/
  | matDrain (d : BitVec 4) (a b : BitVec 6)
  /-- R226. Long form: checks a matrix command and hands count steps to the engine. -/
  | mloop (d : BitVec 4) (a : BitVec 6) (rm fmt : BitVec 3) (f : BitVec 2) (i : BitVec 32)
  /-- R268. Binds a tile register, looking the tile up in the micro-program cache. -/
  | spTload (t : BitVec 3) (a : BitVec 6)
  /-- R271. Returns a tile register's path and statistics. -/
  | spTstat (d : BitVec 6) (t : BitVec 3)
  /-- R262. Computes a CSR share's row and non-zero bounds into sD..sD+3. -/
  | spPart (d : BitVec 4) (a b : BitVec 6)
  /-- R269. Issues a sparse-tile multiply-accumulate into a bank. -/
  | spTmul (d : BitVec 4) (a : BitVec 6) (t r : BitVec 3)
  /-- R272. Opens an idempotent region declaring live-ins. -/
  | irBegin (a b : BitVec 6)
  /-- R272. Waits for the region's runs and gather/scatter work, then closes it. -/
  | irEnd
  /-- R140. Loads an activation table bank from a record and sets cD. -/
  | tabLoad (c : BitVec 4) (a : BitVec 6) (b : BitVec 1)
  /-- R328. Extends the job slice's budget from the handler, up to XCAP. -/
  | slcExtend (c : BitVec 4) (a : BitVec 6)
  /-- R327. Aborts the crew's job slice. -/
  | slcAbort
  /-- R327. Returns a slice queue's free record places. -/
  | slcQfree (d a : BitVec 6)
  /-- R329. Reads a queue's chain value Hq into four registers with acquire. -/
  | detDigest (d : BitVec 4) (a : BitVec 6)
  /-- R327. Declares an output region for the grid digest. -/
  | detOut (a b : BitVec 6)
  /-- R327. Returns the crew's current flush interval index. -/
  | detFlush (d : BitVec 6)
  /-- R327. Logical wait until the flush of the current interval. -/
  | detSync
  /-- R346. Issues a put of local bytes to a peer. -/
  | fxPut (a : BitVec 4)
  /-- R347. Put followed by a signal store at the peer. -/
  | fxPutSet (a : BitVec 4) (b : BitVec 6)
  /-- R347. Put followed by a signal add at the peer. -/
  | fxPutAdd (a : BitVec 4) (b : BitVec 6)
  /-- R346. Issues a get of peer bytes to local memory. -/
  | fxGet (a : BitVec 4)
  /-- R347. Signal store to a remote word as a system-scope release. -/
  | fxSignalSet (a b : BitVec 6)
  /-- R347. Signal add to a remote word as a system-scope release. -/
  | fxSignalAdd (a b : BitVec 6)
  /-- R348. Waits until a local word reaches a threshold, then acquires at system scope. -/
  | fxWait (a b : BitVec 6)
  /-- R348. Tests a local word against a threshold once into cN. -/
  | fxWaitTry (c : BitVec 4) (a b : BitVec 6)
  /-- R350. Contributes to a fixed-order reduction across fabric peers. -/
  | fxReduce (a : BitVec 4)
  /-- R334. LU factorisation with partial pivoting of each record of a batch. -/
  | svLu (a : BitVec 6)
  /-- R336. Cholesky factorisation of each record of a batch. -/
  | svChol (a : BitVec 6)
  /-- R337. Triangular solves with each record's factor. -/
  | svTrs (a : BitVec 6)
  /-- R338. One step of mixed-precision refinement per record. -/
  | svRef (a : BitVec 6)
  /-- R339. Returns the summary of the most recent solve command. -/
  | svStat (d : BitVec 6)
  /-- R58. Pair-form lane word executing two half-operations together. -/
  | lanePairWord (op0 op1 : PairHalf)
  /-- R130. Lane integer add, optionally saturating. -/
  | vadd (w : LaneWord)
  /-- R130. Lane integer subtract. -/
  | vsub (w : LaneWord)
  /-- R130. Lane integer low product. -/
  | vmulLo (w : LaneWord)
  /-- R130. Lane integer high product. -/
  | vmulHi (w : LaneWord)
  /-- R130. Lane integer multiply-add. -/
  | vmad (w : LaneWord)
  /-- R130. Lane integer divide. -/
  | vdiv (w : LaneWord)
  /-- R130. Lane integer remainder. -/
  | vrem (w : LaneWord)
  /-- R130. Lane integer minimum. -/
  | vmin (w : LaneWord)
  /-- R130. Lane integer maximum. -/
  | vmax (w : LaneWord)
  /-- R130. Lane integer absolute value. -/
  | vabs (w : LaneWord)
  /-- R130. Lane integer negate. -/
  | vneg (w : LaneWord)
  /-- R130. Lane bitwise AND. -/
  | vand (w : LaneWord)
  /-- R130. Lane bitwise OR. -/
  | vor (w : LaneWord)
  /-- R130. Lane bitwise XOR. -/
  | vxor (w : LaneWord)
  /-- R130. Lane AND NOT. -/
  | vandn (w : LaneWord)
  /-- R130. Lane bitwise NOT. -/
  | vnot (w : LaneWord)
  /-- R130. Lane shift left. -/
  | vshl (w : LaneWord)
  /-- R130. Lane shift right. -/
  | vshr (w : LaneWord)
  /-- R130. Lane rotate left. -/
  | vrol (w : LaneWord)
  /-- R130. Lane population count. -/
  | vpopc (w : LaneWord)
  /-- R130. Lane leading zeros. -/
  | vclz (w : LaneWord)
  /-- R130. Lane trailing zeros. -/
  | vctz (w : LaneWord)
  /-- R130. Lane bit-for-bit move or immediate broadcast. -/
  | vmov (w : LaneWord)
  /-- R131. Lane floating add. -/
  | vaddF (w : LaneWord)
  /-- R131. Lane floating subtract. -/
  | vsubF (w : LaneWord)
  /-- R131. Lane floating multiply. -/
  | vmul (w : LaneWord)
  /-- R131. Lane floating divide. -/
  | vdivF (w : LaneWord)
  /-- R131. Lane fused multiply-add. -/
  | vfma (w : LaneWord)
  /-- R131. Lane fused negated multiply-add. -/
  | vfnma (w : LaneWord)
  /-- R131. Lane fused multiply-subtract. -/
  | vfms (w : LaneWord)
  /-- R132. Lane floating minimum. -/
  | vminF (w : LaneWord)
  /-- R132. Lane floating maximum. -/
  | vmaxF (w : LaneWord)
  /-- R132. Lane floating sign clear. -/
  | vabsF (w : LaneWord)
  /-- R132. Lane floating sign invert. -/
  | vnegF (w : LaneWord)
  /-- R131. Lane square root. -/
  | vsqrt (w : LaneWord)
  /-- R131. Lane round to integral value. -/
  | vround (w : LaneWord)
  /-- R131. Lane reciprocal. -/
  | vrcp (w : LaneWord)
  /-- R131. Lane reciprocal square root. -/
  | vrsqrt (w : LaneWord)
  /-- R131. Lane base-2 exponential. -/
  | vexp2 (w : LaneWord)
  /-- R131. Lane base-2 logarithm. -/
  | vlog2 (w : LaneWord)
  /-- R131. Lane sine. -/
  | vsin (w : LaneWord)
  /-- R131. Lane cosine. -/
  | vcos (w : LaneWord)
  /-- R131. Lane hyperbolic tangent. -/
  | vtanh (w : LaneWord)
  /-- R133. Lane conversion between formats. -/
  | vcvt (w : LaneWord)
  /-- R134. Packs converted narrow values into a 32-bit register. -/
  | vpack (w : LaneWord)
  /-- R134. Extracts and converts one narrow element. -/
  | vunpk (w : LaneWord)
  /-- R136. Decodes one element of a lane's Q4X block. -/
  | vqdec (w : LaneWord)
  /-- R137. Encodes 16 lanes' values into a Q4X block. -/
  | vqenc (w : LaneWord)
  /-- R138. Counter-based random number per active lane. -/
  | vrand (w : LaneWord)
  /-- R141. Piecewise-linear lookup in an activation table bank. -/
  | vtab (w : LaneWord)
  /-- R143. Lane compare into a predicate. -/
  | vcmp (cond : BitVec 3) (w : LaneWord)
  /-- R144. Lane select by predicate. -/
  | vsel (w : LaneWord)
  /-- R145. Lane predicate AND. -/
  | vpand (w : LaneWord)
  /-- R145. Lane predicate OR. -/
  | vpor (w : LaneWord)
  /-- R145. Lane predicate XOR. -/
  | vpxor (w : LaneWord)
  /-- R145. Lane predicate AND NOT. -/
  | vpandn (w : LaneWord)
  /-- R145. Lane predicate NOT. -/
  | vpnot (w : LaneWord)
  /-- R145. Lane predicate move. -/
  | vpmov (w : LaneWord)
  /-- R145. Sets a lane predicate true. -/
  | vpset (w : LaneWord)
  /-- R145. Sets a lane predicate false. -/
  | vpclr (w : LaneWord)
  /-- R146. Predicate from a non-zero register. -/
  | vpnz (w : LaneWord)
  /-- R146. Register from a predicate. -/
  | vpget (w : LaneWord)
  /-- R146. Mask of the gang's lanes whose predicate is set. -/
  | vballot (w : LaneWord)
  /-- R149. Crew-collective Trellis edge exchange with partner crews. -/
  | vedge (w : LaneWord)
  /-- R151. Lane exchange from an indexed lane. -/
  | vlaneFrom (w : LaneWord)
  /-- R151. Lane exchange with lane l XOR k. -/
  | vlaneSwap (w : LaneWord)
  /-- R151. Lane exchange from lane l − k. -/
  | vlaneLag (w : LaneWord)
  /-- R151. Lane exchange from lane l + k. -/
  | vlaneLead (w : LaneWord)
  /-- R152. Lane-order scan, optionally segmented, exclusive or carried in. -/
  | vscan (w : LaneWord)
  /-- R153. Fixed-tree reduction over the gang's active lanes. -/
  | vred (w : LaneWord)
  /-- R154. Writes one lane's value to a scalar register on retirement. -/
  | vxs (w : LaneWord)
  /-- R156. Lane branch that may split slices and push mask entries. -/
  | laneBra (w : LaneWord)
  /-- R157. Lane join that switches to waiting lanes or pops a mask entry. -/
  | join (w : LaneWord)
  /-- R24. Waits for all live slices and merges them into one gang or traps. -/
  | regang (w : LaneWord)
  /-- R159. Ends the slice's part in the current lane run. -/
  | lstop (w : LaneWord)
  /-- R159. Ends the slice's part and offers the crew for exchange at run end. -/
  | lyield (w : LaneWord)
  /-- R160. Lane trap with a code when any lane is active. -/
  | ltrap (w : LaneWord)
  /-- R194. Lane load. -/
  | vld (w : LaneWord)
  /-- R194. Lane load through the read-only path. -/
  | vldRo (w : LaneWord)
  /-- R194. Lane store. -/
  | vst (w : LaneWord)
  /-- R194. Lane gather issued to the gather engine. -/
  | vldg (w : LaneWord)
  /-- R194. Lane scatter issued to the scatter engine. -/
  | vsct (w : LaneWord)
  /-- R195. Lane scatter-add combined in the Rake and sent to reduction units. -/
  | vsctAdd (w : LaneWord)
  /-- R196. Lane atomic per active lane. -/
  | vamo (w : LaneWord)
  /-- R197. Lane prefetch with no visible effect. -/
  | vprefetch (w : LaneWord)
  /-- R198. Lane fence of given order and scope. -/
  | vfence (w : LaneWord)
  /-- R261. Intersects two sorted coordinate lists across the crew. -/
  | vinter (w : LaneWord)
  /-- R259. Prefix population count over active lanes. -/
  | vpfx (w : LaneWord)
  /-- R260. Bitmap AND. -/
  | vbmapAnd (w : LaneWord)
  /-- R260. Bitmap AND NOT. -/
  | vbmapAndn (w : LaneWord)
  /-- R260. Bitmap OR. -/
  | vbmapOr (w : LaneWord)
  /-- R260. Keeps bits below position b. -/
  | vbmapKeep (w : LaneWord)
  /-- R260. Counts set bits below position b. -/
  | vbmapRank (w : LaneWord)
  /-- R260. Position of the set bit of rank b. -/
  | vbmapSel (w : LaneWord)
  /-- R250. Loads a certified quad. -/
  | eld (w : LaneWord)
  /-- R250. Stores a certified quad as exact or opaque. -/
  | est (w : LaneWord)
  /-- R250. Stores a quad pinning its node in the scratchpad. -/
  | epin (w : LaneWord)
  /-- R250. Releases a pin on a scratchpad granule. -/
  | eunpin (w : LaneWord)
  /-- R248. Converts a value into a certified quad. -/
  | ecvt (w : LaneWord)
  /-- R248. Converts a value with a stated radius into an opaque quad. -/
  | ecvtRad (w : LaneWord)
  /-- R245. Certified add appending graph nodes as needed. -/
  | eadd (w : LaneWord)
  /-- R245. Certified subtract. -/
  | esub (w : LaneWord)
  /-- R245. Certified multiply. -/
  | emul (w : LaneWord)
  /-- R245. Certified fused multiply-add. -/
  | efma (w : LaneWord)
  /-- R245. Certified divide. -/
  | ediv (w : LaneWord)
  /-- R245. Certified square root. -/
  | esqrt (w : LaneWord)
  /-- R245. Certified negate. -/
  | eneg (w : LaneWord)
  /-- R251. Certified comparison decided by enclosures or sent to Whetstone. -/
  | ecmp (w : LaneWord)
  /-- R249. Cuts a certified value's history, making it opaque. -/
  | esever (w : LaneWord)
  /-- R249. Extracts a quad's mid. -/
  | emid (w : LaneWord)
  /-- R249. Extracts a quad's radius. -/
  | erad (w : LaneWord)
  /-- R18. Host write to a slice queue's push aperture, pushing one record or being discarded. -/
  | sliceQueuePush (q off : Nat) (data : List Byte)
  /-- R305. The scheduler selects and takes the earliest-deadline ready record and validates it. -/
  | schedulerTakeRecord
  /-- R21. The scheduler reads a prerequisite word, making the record ready or failing it. -/
  | prerequisiteRead (q i n : Nat)
  /-- R306. The scheduler makes a waiting team resident on a core once room exists. -/
  | placeTeam (job team die : Nat)
  /-- R314. Exchanges an active crew at a switch point with a ready pending crew. -/
  | crewSwitch (out inn : CrewKey)
  /-- R111. A lane run completes once all slices stop and all its instructions retire. -/
  | laneRunComplete (k : CrewKey)
  /-- R31. A grid retires once its teams and all spawned children have completed. -/
  | gridComplete (job : Nat)
  /-- R325. Computes the grid digest over the declared output regions after stores are performed. -/
  | digestCompute (job : Nat)
  /-- R33. Release store of DONESEQ or the failed sequence value to the completion word. -/
  | completionWordStore (job : Nat)
  /-- R313. Writes an event record to its world's event queue once room exists and signals MSI-X. -/
  | eventRecordWrite (secure : Bool)
  /-- R311. Device time passes a job slice's effective deadline, raising an event and aborting or trapping. -/
  | deadlineMiss (ref : JobRef)
  /-- R309. The budget counter reaches zero and every drawing crew traps 0x0A. -/
  | budgetExhausted (job : Nat)
  /-- R307. The scheduler pre-empts teams of a later-deadline job slice to place waiting work. -/
  | schedulerPreempt (job team : Nat)
  /-- R297. After in-flight work completes, a pre-empted team's context is written to its context area. -/
  | teamContextSave (job team : Nat)
  /-- R300. A saved team is restored on a core with room and resumes. -/
  | teamRestore (job team core : Nat)
  /-- R38. When all crews have arrived and engines drain, the team's state moves to the target core. -/
  | graftMove (job team : Nat)
  /-- R370. A pending deferred trap falls due and is taken at a boundary. -/
  | deferredTrap (k : CrewKey)
  /-- R97. A load's value returns and is written to its destination. -/
  | loadReturn (k : CrewKey)
  /-- R182. A store is performed at device scope and the store counter falls. -/
  | storePerformed (k : CrewKey)
  /-- R184. An atomic executes at the home slice and returns its old value. -/
  | amoExecute (k : CrewKey)
  /-- R257. A gather's values arrive in its destination registers. -/
  | gatherComplete (k : CrewKey)
  /-- R257. A plain scatter is performed at device scope. -/
  | scatterPerformed (k : CrewKey)
  /-- R195. A scatter-add contribution is added at its L2 reduction unit. -/
  | scatterAddApply (k : CrewKey)
  /-- R201. Every byte of a copy is performed; the handle becomes full and the barrier is credited. -/
  | copyComplete (k : CrewKey)
  /-- R202. A copy meeting an unrecoverable error is abandoned and a deferred trap is pended. -/
  | copyAbandon (k : CrewKey) (cause : Nat)
  /-- R224. The asynchronous block copy of a mat.wload completes or is abandoned. -/
  | weightLoadComplete (core : Nat)
  /-- R222. A weight granule is written back to or refilled from the team's backing. -/
  | weightGranuleRefill (job team granule : Nat)
  /-- R227. The engine performs one mloop step on a bank. -/
  | matrixStep (core : Nat)
  /-- R228. The engine zeroes a bank in engine order. -/
  | matZeroExecute (core : Nat)
  /-- R229. The engine drains a bank to scratchpad in engine order. -/
  | matDrainExecute (core : Nat)
  /-- R267. The engine executes a sparse-tile multiply-accumulate. -/
  | spTmulExecute (core : Nat)
  /-- R218. With every live crew blocked in acc.alloc, a victim's banks are spilled and grants made. -/
  | accDeadlockBreak (core : Nat)
  /-- R268. Espalier takes up the next queued tile compile. -/
  | espalierCompile (cluster : Nat)
  /-- R268. A compile finishes and the matrix counter falls. -/
  | espalierCompileDone (cluster : Nat)
  /-- R252. Whetstone finishes refining the straddling lanes of an ecmp, writing pD or trapping. -/
  | whetstoneDecide (k : CrewKey)
  /-- R239. The background walker frees a zero-count node and cascades. -/
  | walkerReclaim (job team : Nat)
  /-- R262. The partition unit's binary searches finish and the four results are written. -/
  | spPartComplete (k : CrewKey)
  /-- R150. A partner's edge value arrives in a staging slot, completing an exchange. -/
  | vedgeDelivery (k : CrewKey) (east : Bool)
  /-- R187. A holder acknowledges the invalidation of translations derived from a page-table line. -/
  | translationAck (i : Nat)
  /-- R285. A fault record is written to its world's fault queue once room exists. -/
  | faultRecordWrite (secure : Bool)
  /-- R286. FRESP with ACTION 0: waiters retranslate and proceed, and the merge entry is freed. -/
  | frespRetry (secure io : Bool) (merge : Nat)
  /-- R286. FRESP with ACTION 1: waiting crews trap and waiting engines abandon their operations. -/
  | frespFail (secure io : Bool) (merge : Nat)
  /-- R288. A sampling window ends; advice records are written and replicas considered. -/
  | monitorWindowEnd (die : Nat) (advice : List MonAdvice)
  /-- R289. A read-duplicated page's replica copy completes on a die. -/
  | replicaCreate (die : Nat) (page : MonAdvice)
  /-- R290. After all replica acknowledgements, replicas are freed and held writes released. -/
  | pageCollapse (frame : Nat)
  /-- R170. Write to a cluster SRAM bank mode register, possibly starting a transition. -/
  | bankModeWrite (cluster bank : Nat) (v : W32)
  /-- R171. A bank transition finishes write-back and zeroing and takes its new mode. -/
  | bankTransitionComplete (cluster bank : Nat)
  /-- R19. Write to a slice queue's control register, enabling or disabling it. -/
  | qctlWrite (q : Nat) (v : W64)
  /-- R210. Write to a data queue's control register. -/
  | dqctlWrite (n : Nat) (v : W64)
  /-- R365. Write-1-to-clear of a queue's overflow status. -/
  | qstatClear (q : Nat) (v : W64)
  /-- R367. System software advances a ring's HEAD; illegal values are ignored. -/
  | ringHeadWrite (ring : Nat) (v : W64)
  /-- R367. A write to a ring's BASE or SIZE resets HEAD and TAIL. -/
  | ringBaseSizeWrite (ring : Nat) (isSize : Bool) (v : W64)
  /-- R282. Drops every cached translation of an ASID from every holder. -/
  | asidinvWrite (v : W64)
  /-- R296. Pre-empts every running team of matching job slices. -/
  | preemptWrite (second : Bool) (v : W64)
  /-- R312. Aborts every matching job slice, running or queued. -/
  | slcabortWrite (second : Bool) (v : W64)
  /-- R357. REQ = 01 with no team resident enters D3. -/
  | pstateEnterD3
  /-- R357. REQ = 00 leaves D3 and resumes operation. -/
  | pstateRun
  /-- R357. Sets the power cap, ignoring out-of-range values. -/
  | pcapWrite (v : W64)
  /-- R361. Requests an attestation report from the security processor. -/
  | attgoWrite (v : W64)
  /-- R361. The security processor writes the signed report and sets ATTDONE. -/
  | attestationReportDone
  /-- R365. Write-1-to-clear of error log counts. -/
  | errorLogClear (word : Nat) (v : W64)
  /-- R366. Write to any device-control register without its own behaviour. -/
  | registerWrite (off : W32) (v : W64)
  /-- R354. Module power reaches PCAP or a logic die reaches 95 or 100 °C, raising the power state. -/
  | sensorThresholdCrossed (die temp power : Nat)
  /-- R354. P1 fails to bring power below PCAP within 1 ms and the module enters P2. -/
  | p1EscalateTimeout
  /-- R354. A state's cause has been absent 10 ms and the module moves to the next faster state. -/
  | powerStateRelax
  /-- R355. A DRAM die reaches 85 °C or 95 °C, halving refresh or forcing P2. -/
  | dramTempHot (die temp : Nat)
  /-- R355. A DRAM die stays below 82 °C for 10 ms and refresh returns to normal. -/
  | dramCoolTimeout (die temp : Nat)
  /-- R356. A die reaches 105 °C and the module trips. -/
  | thermalTrip (die : Nat)
  /-- R358. Cold reset runs the boot ROM and the ordered bring-up. -/
  | coldReset (image : List Byte) (setup : BootSetup)
  /-- R343. A flit that fails its check is retried at link level. -/
  | kalbyFlitRetry (port : Nat)
  /-- R343. After 64 failed retries a port is taken down. -/
  | kalbyPortDown (port : Nat)
  /-- R342. An access arriving from a fabric peer translates under FXROOT and is performed. -/
  | fabricIngressAccess (va : W64) (kind : IngressKind)
  /-- R346. A put, get or signal is performed at system scope and the fabric counter falls. -/
  | fabricOpComplete (k : CrewKey) (data : List Byte)
  /-- R352. A fabric operation that cannot complete at the peer is abandoned and a trap pended. -/
  | fabricOpAbandon (k : CrewKey) (reason : Nat)
  /-- R350. A reduction contribution arrives and tree nodes are combined or the result delivered. -/
  | fxReduceCombine (c : Contribution)
  /-- R353. A host access to device memory through the CXL.mem window. -/
  | hostCxlMemAccess (addr : Nat) (n : Nat) (write : Option (List Byte))
  /-- R317. Deterministic flush k: Sieve entries applied in key order, queues served, logical waits released. -/
  | flush (job : Nat)
  /-- R47. Execution of an illegal scalar or lane word traps 0x01 precisely with no effect. -/
  | illegalInstruction (lane : Bool) (w : W96)
  /-- R340. The solve unit finishes one record of a batch, checks the deadline before the next, and completes the blocking
  sv command after the last. -/
  | solveRecordFinished (k : CrewKey)
  /-- R213. Every cache of the scope instance finishes its write-back or invalidation and the blocked cmo instruction
  completes. -/
  | cmoComplete (k : CrewKey)
  /-- R237. The verbatim copy of a graph-log segment through L2 to a spill slot finishes, freeing its frame and ending the
  appending instruction's issue stall. -/
  | segmentSpillComplete (job team : Nat)
  /-- R362. An uncorrectable error on a die-to-die link trips the module under R356. -/
  | dieLinkFailure (die : Nat)
  /-- R364. A transient upset flips a stored or in-flight bit, poisoning a word, causing a parity error, or changing a
  result undetected in a gap. -/
  | softError (place : ErrorPlace) (bit : Nat) (double : Bool)
  deriving DecidableEq, Repr

end Sys2Proof
end

