-- ==== Sys2Proof/Machine/LaneFormat.lean ====
section
/-! DEFINITION. The format of every lane instruction: opcode, types, operands and their widths, forms and
modifier fields (R48 to R60, R127 to R160, R190 to R197, R243, R244, R258 to R261). -/

namespace Sys2Proof.Machine

/-- A decoded source field (R49, R50); bad is an encoding R49 and R50 call illegal. -/
inductive Src where
  | reg (n : Nat)
  | latch (i : Nat)
  | snap (k : Nat)
  | lc (sel : Nat)
  | nl (n : Nat)
  | nr (n : Nat)
  | bad
  deriving DecidableEq, Repr

/-- The source a field names (R49). -/
def srcOf (f : BitVec 12) : Src :=
  let v := f.toNat
  match v / 1024 with
  | 0 => .reg (v % 1024)
  | 2 => .nl (v % 1024)
  | 3 => .nr (v % 1024)
  | _ =>
    let lo := v % 256
    match v / 256 % 4 with
    | 0 => if lo < 4 then .latch lo else .bad
    | 1 => if lo < 16 then .snap lo else .bad
    | 2 => if lo < 10 then .lc lo else .bad
    | _ => .bad

/-- The format of one lane word. Register counts are per operand: 1, 2 for an even pair, 4 for a quad;
0 means that the operation does not read the field. -/
structure LaneFmt where
  opc : Nat
  tyOk : Bool
  /-- destination registers; 0 for none -/
  dn : Nat
  /-- D names a predicate -/
  dpred : Bool
  /-- D names a scalar register (vxs) -/
  dscalar : Bool
  /-- D is also read, or is the compare value -/
  dread : Bool
  an : Nat
  bn : Nat
  cn : Nat
  /-- A and B name predicates in their low six bits -/
  apred : Bool
  bpred : Bool
  /-- neighbour sources in A and B -/
  nb : Bool
  /-- latch sources -/
  latch : Bool
  /-- sources other than registers in A, and lane constants in A -/
  aspecial : Bool
  alc : Bool
  /-- sources other than registers in B and C -/
  bspecial : Bool
  cspecial : Bool
  imm : Bool
  single : Bool
  rounds : Bool
  mdOk : Bool
  xOk : Bool
  predFree : Bool
  uOk : Bool
  /-- lies in the certified range: NW is zero and latches are never entered -/
  cert : Bool
  /-- window-ending (R63) -/
  window : Bool
  deriving DecidableEq, Repr

/-- A format with nothing read and nothing written. -/
def lfBase : LaneFmt where
  opc := 0
  tyOk := false
  dn := 0
  dpred := false
  dscalar := false
  dread := false
  an := 0
  bn := 0
  cn := 0
  apred := false
  bpred := false
  nb := false
  latch := true
  aspecial := true
  alc := true
  bspecial := true
  cspecial := true
  imm := false
  single := true
  rounds := false
  mdOk := true
  xOk := true
  predFree := true
  uOk := false
  cert := false
  window := false

/-- Registers of an operand of a type. -/
def tyRegs (t : Ty) : Nat := if tyWidth t = 64 then 2 else 1

end Sys2Proof.Machine

namespace Sys2Proof

/-- The type of a lane word. -/
def LaneWord.t (w : LaneWord) : Ty := Machine.tyOf w.ty.toNat

end Sys2Proof

namespace Sys2Proof.Machine

/-- X as a number, its immediate bits removed in the immediate form (R56). -/
def laneX (w : LaneWord) : Nat := if w.imm then w.x.toNat % 64 else w.x.toNat

/-- MOD is zero but for the bits of a mask. -/
def mdIn (w : LaneWord) (mask : Nat) : Bool := w.md.toNat &&& (255 - mask) == 0

/-- X is zero but for the bits of a mask. -/
def xIn (w : LaneWord) (mask : Nat) : Bool := laneX w &&& (16383 - mask) == 0

/-- Integer and floating lane arithmetic of n sources (R129, R131). -/
def lfAlu (opc : Nat) (w : LaneWord) (tyOk : Ty → Bool) (n : Nat) (imm sat rounds : Bool) : LaneFmt :=
  let r := tyRegs w.t
  { lfBase with
    opc := opc, tyOk := tyOk w.t, dn := r, an := r, bn := if 2 ≤ n then r else 0, cn := if 3 ≤ n then r else 0,
    nb := true, imm := imm, rounds := rounds, mdOk := mdIn w (if sat then 1 else 0), xOk := xIn w 0 }

/-- Bits of R129 and vshl, vshr types. -/
def tyIntOrB32 (t : Ty) : Bool := tyIsInt t || t == .b32
/-- Signed integer types. -/
def tyS (t : Ty) : Bool := tySigned t
/-- Every type but a Q4X block. -/
def tyAny (t : Ty) : Bool := t != .q4x

/-- The source type TS in X[3:0]. -/
def xTs (w : LaneWord) : Ty := tyOf (laneX w % 16)

/-- Types a vcvt may convert (R133). -/
def tyCvt (t : Ty) : Bool := tyIsInt t || (tyFmt t).isSome

/-- The saturating bit obeys R133. -/
def satOk (w : LaneWord) (ts td : Ty) : Bool := mdIn w 1 && (w.md.toNat % 2 == 0 || cvtSat ts td)

/-- Predicate logic (R145) with n predicate sources. -/
def lfPred (opc : Nat) (w : LaneWord) (n : Nat) : LaneFmt :=
  { lfBase with
    opc := opc, tyOk := w.t == .b32, dpred := true, apred := 1 ≤ n, bpred := 2 ≤ n,
    mdOk := mdIn w 0, xOk := xIn w 0 }

/-- Lane exchanges (R151). -/
def lfLane (opc : Nat) (w : LaneWord) (xOk : Bool) : LaneFmt :=
  { lfBase with
    opc := opc, tyOk := tyAny w.t, dn := tyRegs w.t, an := tyRegs w.t, mdOk := mdIn w 1, xOk := xOk }

/-- Operation codes of scans and reductions by type (R152). -/
def scanTyOk (t : Ty) (op : Nat) : Bool :=
  if op ≤ 3 then tyIsInt t || tyIsF t else op ≤ 6 && tyIsBits t

/-- CNT of R190 as a number of registers. -/
def laneCnt (w : LaneWord) : Nat :=
  match w.md.toNat / 2 % 4 with
  | 0 => 1
  | 1 => 2
  | 2 => 4
  | _ => 0

/-- Shared fields of the lane memory instructions (R190, R194): cnt registers of data. -/
def lfMem (opc : Nat) (w : LaneWord) (tyOk : Bool) : LaneFmt :=
  let idx := w.md.toNat % 2 == 1
  { lfBase with
    opc := opc, tyOk := tyOk, an := 2, bn := if idx then 1 else 0, latch := false, alc := false,
    mdOk := mdIn w 7 && laneCnt w ≠ 0 && (laneCnt w == 1 || tyWidth w.t == 32), xOk := xIn w 4095, window := true }

/-- Registers of a memory instruction's data. -/
def memRegs (w : LaneWord) : Nat := if laneCnt w = 1 then tyRegs w.t else laneCnt w

/-- Certified arithmetic with n quad sources (R243, R244). -/
def lfCert (opc : Nat) (w : LaneWord) (n : Nat) : LaneFmt :=
  { lfBase with
    opc := opc, tyOk := w.t == .f64, dn := 4, an := 4, bn := if 2 ≤ n then 4 else 0, cn := if 3 ≤ n then 4 else 0,
    latch := false, aspecial := false, alc := false, bspecial := false, cspecial := false, mdOk := mdIn w 0, xOk := xIn w 0, cert := true }

/-- Certified memory instructions (R243, R250). -/
def lfCertMem (opc : Nat) (w : LaneWord) (load store : Bool) : LaneFmt :=
  let idx := w.md.toNat % 2 == 1
  { lfBase with
    opc := opc, tyOk := w.t == .f64, dn := if load then 4 else 0, an := 2, bn := if idx then 1 else 0,
    cn := if store then 4 else 0, latch := false, alc := false, cspecial := false, mdOk := mdIn w 1, xOk := xIn w 4095,
    cert := true, window := true }

/-- Lane control (R155). -/
def lfCtl (opc : Nat) (w : LaneWord) (window : Bool) : LaneFmt :=
  { lfBase with
    opc := opc, tyOk := w.ty == 0, mdOk := mdIn w 0, xOk := xIn w 0, predFree := false, window := window }

/-- Types of vsct.add (R194). -/
def tyAdd (t : Ty) : Bool :=
  match t with
  | .s32 | .z32 | .s64 | .z64 | .f32 | .f64 => true
  | _ => false

/-- Types of vamo by operation (R196). -/
def tyAmo (t : Ty) (op : Nat) : Bool :=
  match op with
  | 1 | 2 | 3 => tyIsBits t
  | 10 => t == .f32 || t == .f64
  | _ => t == .s32 || t == .z32 || t == .s64 || t == .z64

/-- vbmap with operation code op (R260). -/
def lfBmap (w : LaneWord) (op : Nat) : LaneFmt :=
  { lfBase with
    opc := 0x290, tyOk := w.t == .b32, dn := 1, an := 1, bn := 1, latch := false, imm := true, mdOk := mdIn w 0,
    xOk := laneX w == op }

/-- Format of vadd. -/
def fmtVadd (w : LaneWord) : LaneFmt := lfAlu 0x001 w tyIsInt 2 true true false

/-- Format of vsub. -/
def fmtVsub (w : LaneWord) : LaneFmt := lfAlu 0x002 w tyIsInt 2 true true false

/-- Format of vmulLo. -/
def fmtVmulLo (w : LaneWord) : LaneFmt := lfAlu 0x003 w tyIsInt 2 true true false

/-- Format of vmulHi. -/
def fmtVmulHi (w : LaneWord) : LaneFmt := lfAlu 0x004 w tyIsInt 2 false false false

/-- Format of vmad. -/
def fmtVmad (w : LaneWord) : LaneFmt := lfAlu 0x005 w tyIsInt 3 false true false

/-- Format of vdiv. -/
def fmtVdiv (w : LaneWord) : LaneFmt := lfAlu 0x006 w tyIsInt 2 false true false

/-- Format of vrem. -/
def fmtVrem (w : LaneWord) : LaneFmt := lfAlu 0x007 w tyIsInt 2 false false false

/-- Format of vmin. -/
def fmtVmin (w : LaneWord) : LaneFmt := lfAlu 0x008 w tyIsInt 2 true false false

/-- Format of vmax. -/
def fmtVmax (w : LaneWord) : LaneFmt := lfAlu 0x009 w tyIsInt 2 true false false

/-- Format of vabs. -/
def fmtVabs (w : LaneWord) : LaneFmt := lfAlu 0x00A w tyS 1 false true false

/-- Format of vneg. -/
def fmtVneg (w : LaneWord) : LaneFmt := lfAlu 0x00B w tyS 1 false true false

/-- Format of vand. -/
def fmtVand (w : LaneWord) : LaneFmt := lfAlu 0x010 w tyIsBits 2 true false false

/-- Format of vor. -/
def fmtVor (w : LaneWord) : LaneFmt := lfAlu 0x011 w tyIsBits 2 true false false

/-- Format of vxor. -/
def fmtVxor (w : LaneWord) : LaneFmt := lfAlu 0x012 w tyIsBits 2 true false false

/-- Format of vandn. -/
def fmtVandn (w : LaneWord) : LaneFmt := lfAlu 0x013 w tyIsBits 2 true false false

/-- Format of vnot. -/
def fmtVnot (w : LaneWord) : LaneFmt := lfAlu 0x014 w tyIsBits 1 false false false

/-- Format of vshl. -/
def fmtVshl (w : LaneWord) : LaneFmt := lfAlu 0x018 w tyIntOrB32 2 true false false

/-- Format of vshr. -/
def fmtVshr (w : LaneWord) : LaneFmt := lfAlu 0x019 w tyIntOrB32 2 true false false

/-- Format of vrol. -/
def fmtVrol (w : LaneWord) : LaneFmt := lfAlu 0x01A w tyIsBits 2 true false false

/-- Format of vpopc. -/
def fmtVpopc (w : LaneWord) : LaneFmt := lfAlu 0x01C w tyIsBits 1 false false false

/-- Format of vclz. -/
def fmtVclz (w : LaneWord) : LaneFmt := lfAlu 0x01D w tyIsBits 1 false false false

/-- Format of vctz. -/
def fmtVctz (w : LaneWord) : LaneFmt := lfAlu 0x01E w tyIsBits 1 false false false

/-- vmov; vmov vD, #imm has its operand in the B position (R130). (DEDUCED, safe: notes/assumptions/18.md) -/
def fmtVmov (w : LaneWord) : LaneFmt :=
  let f := lfAlu 0x020 w tyAny 1 true false false
  if w.imm then { f with an := 0 } else f

/-- Format of vaddF. -/
def fmtVaddF (w : LaneWord) : LaneFmt := lfAlu 0x080 w tyIsF 2 true false true

/-- Format of vsubF. -/
def fmtVsubF (w : LaneWord) : LaneFmt := lfAlu 0x081 w tyIsF 2 true false true

/-- Format of vmul. -/
def fmtVmul (w : LaneWord) : LaneFmt := lfAlu 0x082 w tyIsF 2 true false true

/-- Format of vdivF. -/
def fmtVdivF (w : LaneWord) : LaneFmt := lfAlu 0x083 w tyIsF 2 false false true

/-- Format of vfma. -/
def fmtVfma (w : LaneWord) : LaneFmt := lfAlu 0x084 w tyIsF 3 false false true

/-- Format of vfnma. -/
def fmtVfnma (w : LaneWord) : LaneFmt := lfAlu 0x085 w tyIsF 3 false false true

/-- Format of vfms. -/
def fmtVfms (w : LaneWord) : LaneFmt := lfAlu 0x086 w tyIsF 3 false false true

/-- Format of vminF. -/
def fmtVminF (w : LaneWord) : LaneFmt := lfAlu 0x087 w tyIsF 2 true false false

/-- Format of vmaxF. -/
def fmtVmaxF (w : LaneWord) : LaneFmt := lfAlu 0x088 w tyIsF 2 true false false

/-- Format of vabsF. -/
def fmtVabsF (w : LaneWord) : LaneFmt := lfAlu 0x089 w tyIsF 1 false false false

/-- Format of vnegF. -/
def fmtVnegF (w : LaneWord) : LaneFmt := lfAlu 0x08A w tyIsF 1 false false false

/-- Format of vsqrt. -/
def fmtVsqrt (w : LaneWord) : LaneFmt := lfAlu 0x08B w tyIsF 1 false false true

/-- Format of vround. -/
def fmtVround (w : LaneWord) : LaneFmt := lfAlu 0x08C w tyIsF 1 false false true

/-- Format of vrcp. -/
def fmtVrcp (w : LaneWord) : LaneFmt := lfAlu 0x0C0 w tyIsS 1 false false true

/-- Format of vrsqrt. -/
def fmtVrsqrt (w : LaneWord) : LaneFmt := lfAlu 0x0C1 w tyIsS 1 false false true

/-- Format of vexp2. -/
def fmtVexp2 (w : LaneWord) : LaneFmt := lfAlu 0x0C2 w tyIsS 1 false false true

/-- Format of vlog2. -/
def fmtVlog2 (w : LaneWord) : LaneFmt := lfAlu 0x0C3 w tyIsS 1 false false true

/-- Format of vsin. -/
def fmtVsin (w : LaneWord) : LaneFmt := lfAlu 0x0C4 w (· == .f32) 1 false false true

/-- Format of vcos. -/
def fmtVcos (w : LaneWord) : LaneFmt := lfAlu 0x0C5 w (· == .f32) 1 false false true

/-- Format of vtanh. -/
def fmtVtanh (w : LaneWord) : LaneFmt := lfAlu 0x0C6 w tyIsS 1 false false true

/-- Format of vcvt. -/
def fmtVcvt (w : LaneWord) : LaneFmt :=
  let ts := xTs w
  { lfBase with
    opc := 0x100, tyOk := tyCvt w.t && tyCvt ts && w.t != ts, dn := tyRegs w.t, an := tyRegs ts, nb := true,
    rounds := cvtRounds ts w.t, mdOk := satOk w ts w.t, xOk := xIn w 15 }

/-- Format of vpack. (DEDUCED, safe: notes/assumptions/47.md) -/
def fmtVpack (w : LaneWord) : LaneFmt :=
  let ts := xTs w
  let n := tyWidth w.t
  { lfBase with
    opc := 0x104, tyOk := (n == 16 || n == 8) && tyCvt ts && decide (tyWidth ts ≤ 32), dn := 1, an := 1, bn := 1,
    dread := n == 8, nb := true, rounds := cvtRounds ts w.t, mdOk := satOk w ts w.t,
    xOk := xIn w (if n = 8 then 31 else 15) }

/-- Format of vunpk. (DEDUCED, safe: notes/assumptions/47.md) -/
def fmtVunpk (w : LaneWord) : LaneFmt :=
  let ts := xTs w
  let n := tyWidth ts
  { lfBase with
    opc := 0x105, tyOk := (tyIsInt w.t || tyIsF w.t) && tyCvt ts && (n == 16 || n == 8), dn := tyRegs w.t, an := 1,
    nb := true, rounds := cvtRounds ts w.t, mdOk := satOk w ts w.t,
    xOk := xIn w 63 && (n == 8 || decide (laneX w / 16 % 4 < 2)) }

/-- Format of vqdec; its A, a block quad, is no latch, snapshot slot or lane constant.
(DESIGN CHOICE, unsafe: notes/assumptions/50.md) -/
def fmtVqdec (w : LaneWord) : LaneFmt := { lfBase with
    opc := 0x108, tyOk := w.t == .f64 || w.t == .f32, dn := tyRegs w.t, an := 4, aspecial := false, alc := false,
    rounds := true, mdOk := mdIn w 0, xOk := xIn w 15 }

/-- Format of vqenc. -/
def fmtVqenc (w : LaneWord) : LaneFmt := { lfBase with
    opc := 0x109, tyOk := w.t == .q4x, dn := 3, an := 1, bn := 1, rounds := true, mdOk := mdIn w 0, xOk := xIn w 0 }

/-- Format of vrand. -/
def fmtVrand (w : LaneWord) : LaneFmt := { lfBase with
    opc := 0x110, tyOk := w.t == .s32 || w.t == .z32 || w.t == .b32 || w.t == .s64 || w.t == .z64 || w.t == .f32 ||
      w.t == .f64, dn := tyRegs w.t, mdOk := mdIn w 0, xOk := xIn w 0 }

/-- Format of vtab. -/
def fmtVtab (w : LaneWord) : LaneFmt := { lfBase with
    opc := 0x118, tyOk := w.t == .f32, dn := 1, an := 1, nb := true, rounds := true, mdOk := mdIn w 0, xOk := xIn w 1 }

/-- Format of vcmp. -/
def fmtVcmp (cond : BitVec 3) (w : LaneWord) : LaneFmt :=
  let t := w.t
  let c := cond.toNat
  { lfBase with
    opc := 0x140 + c,
    tyOk := if c ≤ 1 then tyIsInt t || t == .b32 || tyIsF t else if c ≤ 5 then tyIsInt t || tyIsF t
      else if c = 6 then tyIsF t else tyIsInt t || t == .b32,
    dpred := true, an := tyRegs t, bn := tyRegs t, nb := true, imm := true, mdOk := mdIn w 0, xOk := xIn w 0 }

/-- Format of vsel. -/
def fmtVsel (w : LaneWord) : LaneFmt := { lfBase with
    opc := 0x150, tyOk := tyAny w.t, dn := tyRegs w.t, an := tyRegs w.t, bn := tyRegs w.t, nb := true,
    mdOk := mdIn w 0, xOk := xIn w 127 }

/-- Format of vpand. -/
def fmtVpand (w : LaneWord) : LaneFmt := lfPred 0x158 w 2

/-- Format of vpor. -/
def fmtVpor (w : LaneWord) : LaneFmt := lfPred 0x159 w 2

/-- Format of vpxor. -/
def fmtVpxor (w : LaneWord) : LaneFmt := lfPred 0x15A w 2

/-- Format of vpandn. -/
def fmtVpandn (w : LaneWord) : LaneFmt := lfPred 0x15B w 2

/-- Format of vpnot. -/
def fmtVpnot (w : LaneWord) : LaneFmt := lfPred 0x15C w 1

/-- Format of vpmov. -/
def fmtVpmov (w : LaneWord) : LaneFmt := lfPred 0x15D w 1

/-- Format of vpset. -/
def fmtVpset (w : LaneWord) : LaneFmt := lfPred 0x15E w 0

/-- Format of vpclr. -/
def fmtVpclr (w : LaneWord) : LaneFmt := lfPred 0x15F w 0

/-- Format of vpnz. -/
def fmtVpnz (w : LaneWord) : LaneFmt := { lfBase with
    opc := 0x160, tyOk := tyIntOrB32 w.t, dpred := true, an := tyRegs w.t, nb := true, mdOk := mdIn w 0, xOk := xIn w 0 }

/-- Format of vpget. -/
def fmtVpget (w : LaneWord) : LaneFmt := { lfBase with
    opc := 0x161, tyOk := w.t == .z32, dn := 1, apred := true, mdOk := mdIn w 0, xOk := xIn w 0 }

/-- Format of vballot. -/
def fmtVballot (w : LaneWord) : LaneFmt := { lfBase with
    opc := 0x162, tyOk := w.t == .z32, dn := 1, apred := true, mdOk := mdIn w 0, xOk := xIn w 0 }

/-- Format of vedge. -/
def fmtVedge (w : LaneWord) : LaneFmt := { lfBase with
    opc := 0x198, tyOk := w.t == .b32 || w.t == .z64, an := tyRegs w.t,
    mdOk := mdIn w 7 && w.md.toNat % 4 ≠ 3, xOk := xIn w 0, predFree := false, window := true }

/-- Format of vlaneFrom. -/
def fmtVlaneFrom (w : LaneWord) : LaneFmt := { lfLane 0x180 w (xIn w 0) with bn := 1 }

/-- Format of vlaneSwap. -/
def fmtVlaneSwap (w : LaneWord) : LaneFmt := lfLane 0x181 w (xIn w 31)

/-- Format of vlaneLag. -/
def fmtVlaneLag (w : LaneWord) : LaneFmt := lfLane 0x182 w (xIn w 31 && laneX w ≠ 0)

/-- Format of vlaneLead. -/
def fmtVlaneLead (w : LaneWord) : LaneFmt := lfLane 0x183 w (xIn w 31 && laneX w ≠ 0)

/-- Format of vscan: every floating form rounds by RM, min and max included.
(DEDUCED, unsafe: notes/assumptions/46.md) -/
def fmtVscan (w : LaneWord) : LaneFmt :=
  let op := laneX w % 8
  { lfBase with
    opc := 0x188, tyOk := scanTyOk w.t op, dn := tyRegs w.t, an := tyRegs w.t,
    rounds := tyIsF w.t,
    mdOk := mdIn w 1 && (w.md.toNat % 2 == 0 || (tyIsInt w.t && decide (op ≤ 1))),
    xOk := xIn w 4095 && (laneX w / 16 % 2 == 1 || laneX w / 32 % 64 == 0) }

/-- Format of vred: every floating form rounds by RM, min and max included.
(DEDUCED, unsafe: notes/assumptions/46.md) -/
def fmtVred (w : LaneWord) : LaneFmt :=
  let op := laneX w % 8
  { lfBase with
    opc := 0x190, tyOk := scanTyOk w.t op, dn := tyRegs w.t, an := tyRegs w.t,
    rounds := tyIsF w.t, mdOk := mdIn w 0, xOk := xIn w 7 }

/-- Format of vxs. -/
def fmtVxs (w : LaneWord) : LaneFmt := { lfBase with
    opc := 0x1A0, tyOk := tyAny w.t, dscalar := true, an := tyRegs w.t, mdOk := mdIn w 1, xOk := xIn w 0 }

/-- Format of laneBra. -/
def fmtLaneBra (w : LaneWord) : LaneFmt := { lfCtl 0x1C0 w false with
    imm := true, single := false, apred := true, uOk := true }

/-- Format of join. -/
def fmtJoin (w : LaneWord) : LaneFmt := lfCtl 0x1C1 w false

/-- Format of regang. -/
def fmtRegang (w : LaneWord) : LaneFmt := lfCtl 0x1C2 w true

/-- Format of lstop. -/
def fmtLstop (w : LaneWord) : LaneFmt := lfCtl 0x1C3 w false

/-- Format of lyield. -/
def fmtLyield (w : LaneWord) : LaneFmt := lfCtl 0x1C4 w true

/-- Format of ltrap. -/
def fmtLtrap (w : LaneWord) : LaneFmt := { lfCtl 0x1C5 w false with
    xOk := xIn w 255 && decide (128 ≤ laneX w), predFree := true }

/-- Format of vld. -/
def fmtVld (w : LaneWord) : LaneFmt := { lfMem 0x200 w (tyAny w.t) with dn := memRegs w }

/-- Format of vldRo. -/
def fmtVldRo (w : LaneWord) : LaneFmt := { lfMem 0x201 w (tyAny w.t) with dn := memRegs w }

/-- Format of vst; C may be a snapshot slot or a lane constant at any count. (DESIGN CHOICE, unsafe: notes/assumptions/63.md)
-/
def fmtVst (w : LaneWord) : LaneFmt := { lfMem 0x202 w (tyAny w.t) with cn := memRegs w }

/-- Format of vldg. -/
def fmtVldg (w : LaneWord) : LaneFmt := { lfMem 0x208 w (tyAny w.t) with dn := memRegs w }

/-- Format of vsct. -/
def fmtVsct (w : LaneWord) : LaneFmt := { lfMem 0x209 w (tyAny w.t) with cn := memRegs w }

/-- Format of vsctAdd. -/
def fmtVsctAdd (w : LaneWord) : LaneFmt := { lfMem 0x20A w (tyAdd w.t) with cn := memRegs w, rounds := tyIsF w.t }

/-- Format of vamo. -/
def fmtVamo (w : LaneWord) : LaneFmt :=
  let op := w.md.toNat / 2 % 16
  let r := tyRegs w.t
  { lfBase with
    opc := 0x210, tyOk := tyAmo w.t op, dn := r, dread := op == 9, an := 2, bn := r, cn := if op = 9 then r else 0,
    latch := false, alc := false, mdOk := w.md.toNat % 2 == 0 && decide (op ≤ 10) && w.md.toNat / 32 ≠ 7,
    xOk := xIn w 4095, window := true }

/-- Format of vprefetch. -/
def fmtVprefetch (w : LaneWord) : LaneFmt := { lfMem 0x218 w (w.t == .b32) with
    mdOk := mdIn w 15 && laneCnt w ≠ 0 }

/-- Format of vfence. -/
def fmtVfence (w : LaneWord) : LaneFmt := { lfBase with
    opc := 0x220, tyOk := w.t == .s32, latch := false, mdOk := mdIn w 0,
    xOk := xIn w 31 && decide (1 ≤ laneX w % 8) && decide (laneX w % 8 ≤ 6), window := true }

/-- Format of vinter. -/
def fmtVinter (w : LaneWord) : LaneFmt := { lfBase with
    opc := 0x280, tyOk := w.t == .z32, dn := 2, an := 1, bn := 1, cn := 1, latch := false, mdOk := mdIn w 0,
    xOk := xIn w 63 && laneX w ≠ 0 }

/-- Format of vpfx. -/
def fmtVpfx (w : LaneWord) : LaneFmt := { lfBase with
    opc := 0x288, tyOk := w.t == .b32, dn := 1, an := 1, latch := false, mdOk := mdIn w 0, xOk := xIn w 8 }

/-- Format of vbmapAnd. -/
def fmtVbmapAnd (w : LaneWord) : LaneFmt := lfBmap w 0

/-- Format of vbmapAndn. -/
def fmtVbmapAndn (w : LaneWord) : LaneFmt := lfBmap w 1

/-- Format of vbmapOr. -/
def fmtVbmapOr (w : LaneWord) : LaneFmt := lfBmap w 2

/-- Format of vbmapKeep. -/
def fmtVbmapKeep (w : LaneWord) : LaneFmt := lfBmap w 3

/-- Format of vbmapRank. -/
def fmtVbmapRank (w : LaneWord) : LaneFmt := lfBmap w 4

/-- Format of vbmapSel. -/
def fmtVbmapSel (w : LaneWord) : LaneFmt := lfBmap w 5

/-- Format of eld. -/
def fmtEld (w : LaneWord) : LaneFmt := lfCertMem 0x300 w true false

/-- Format of est. -/
def fmtEst (w : LaneWord) : LaneFmt := lfCertMem 0x301 w false true

/-- Format of epin. -/
def fmtEpin (w : LaneWord) : LaneFmt := lfCertMem 0x302 w false true

/-- Format of eunpin. -/
def fmtEunpin (w : LaneWord) : LaneFmt := lfCertMem 0x303 w false false

/-- Format of ecvt. -/
def fmtEcvt (w : LaneWord) : LaneFmt :=
  let t := w.t
  { lfCert 0x308 w 1 with
    tyOk := t == .s32 || t == .z32 || t == .s64 || t == .z64 || tyIsF t, an := tyRegs t, mdOk := w.md == 0 }

/-- Format of ecvtRad. -/
def fmtEcvtRad (w : LaneWord) : LaneFmt :=
  let t := w.t
  { lfCert 0x308 w 1 with
    tyOk := t == .s32 || t == .z32 || t == .s64 || t == .z64 || tyIsF t, an := tyRegs t, bn := 1,
    mdOk := w.md == 1 }

/-- Format of eadd. -/
def fmtEadd (w : LaneWord) : LaneFmt := lfCert 0x310 w 2

/-- Format of esub. -/
def fmtEsub (w : LaneWord) : LaneFmt := lfCert 0x311 w 2

/-- Format of emul. -/
def fmtEmul (w : LaneWord) : LaneFmt := lfCert 0x312 w 2

/-- Format of efma. -/
def fmtEfma (w : LaneWord) : LaneFmt := lfCert 0x313 w 3

/-- Format of ediv. -/
def fmtEdiv (w : LaneWord) : LaneFmt := lfCert 0x314 w 2

/-- Format of esqrt. -/
def fmtEsqrt (w : LaneWord) : LaneFmt := lfCert 0x315 w 1

/-- Format of eneg. -/
def fmtEneg (w : LaneWord) : LaneFmt := lfCert 0x316 w 1

/-- Format of ecmp. -/
def fmtEcmp (w : LaneWord) : LaneFmt := { lfCert 0x318 w 2 with
    dn := 0, dpred := true, xOk := xIn w 7 && decide (laneX w % 8 ≤ 5), window := true }

/-- Format of esever. -/
def fmtEsever (w : LaneWord) : LaneFmt := lfCert 0x320 w 1

/-- Format of emid. -/
def fmtEmid (w : LaneWord) : LaneFmt := { lfCert 0x321 w 1 with dn := 2 }

/-- Format of erad. -/
def fmtErad (w : LaneWord) : LaneFmt := { lfCert 0x322 w 1 with dn := 1, tyOk := w.t == .f32 }

/-- The format of each lane instruction; none for everything else. -/
def laneFmt : Instr → Option (LaneFmt × LaneWord)
  | .vadd w => some (fmtVadd w, w)
  | .vsub w => some (fmtVsub w, w)
  | .vmulLo w => some (fmtVmulLo w, w)
  | .vmulHi w => some (fmtVmulHi w, w)
  | .vmad w => some (fmtVmad w, w)
  | .vdiv w => some (fmtVdiv w, w)
  | .vrem w => some (fmtVrem w, w)
  | .vmin w => some (fmtVmin w, w)
  | .vmax w => some (fmtVmax w, w)
  | .vabs w => some (fmtVabs w, w)
  | .vneg w => some (fmtVneg w, w)
  | .vand w => some (fmtVand w, w)
  | .vor w => some (fmtVor w, w)
  | .vxor w => some (fmtVxor w, w)
  | .vandn w => some (fmtVandn w, w)
  | .vnot w => some (fmtVnot w, w)
  | .vshl w => some (fmtVshl w, w)
  | .vshr w => some (fmtVshr w, w)
  | .vrol w => some (fmtVrol w, w)
  | .vpopc w => some (fmtVpopc w, w)
  | .vclz w => some (fmtVclz w, w)
  | .vctz w => some (fmtVctz w, w)
  | .vmov w => some (fmtVmov w, w)
  | .vaddF w => some (fmtVaddF w, w)
  | .vsubF w => some (fmtVsubF w, w)
  | .vmul w => some (fmtVmul w, w)
  | .vdivF w => some (fmtVdivF w, w)
  | .vfma w => some (fmtVfma w, w)
  | .vfnma w => some (fmtVfnma w, w)
  | .vfms w => some (fmtVfms w, w)
  | .vminF w => some (fmtVminF w, w)
  | .vmaxF w => some (fmtVmaxF w, w)
  | .vabsF w => some (fmtVabsF w, w)
  | .vnegF w => some (fmtVnegF w, w)
  | .vsqrt w => some (fmtVsqrt w, w)
  | .vround w => some (fmtVround w, w)
  | .vrcp w => some (fmtVrcp w, w)
  | .vrsqrt w => some (fmtVrsqrt w, w)
  | .vexp2 w => some (fmtVexp2 w, w)
  | .vlog2 w => some (fmtVlog2 w, w)
  | .vsin w => some (fmtVsin w, w)
  | .vcos w => some (fmtVcos w, w)
  | .vtanh w => some (fmtVtanh w, w)
  | .vcvt w => some (fmtVcvt w, w)
  | .vpack w => some (fmtVpack w, w)
  | .vunpk w => some (fmtVunpk w, w)
  | .vqdec w => some (fmtVqdec w, w)
  | .vqenc w => some (fmtVqenc w, w)
  | .vrand w => some (fmtVrand w, w)
  | .vtab w => some (fmtVtab w, w)
  | .vcmp cond w => some (fmtVcmp cond w, w)
  | .vsel w => some (fmtVsel w, w)
  | .vpand w => some (fmtVpand w, w)
  | .vpor w => some (fmtVpor w, w)
  | .vpxor w => some (fmtVpxor w, w)
  | .vpandn w => some (fmtVpandn w, w)
  | .vpnot w => some (fmtVpnot w, w)
  | .vpmov w => some (fmtVpmov w, w)
  | .vpset w => some (fmtVpset w, w)
  | .vpclr w => some (fmtVpclr w, w)
  | .vpnz w => some (fmtVpnz w, w)
  | .vpget w => some (fmtVpget w, w)
  | .vballot w => some (fmtVballot w, w)
  | .vedge w => some (fmtVedge w, w)
  | .vlaneFrom w => some (fmtVlaneFrom w, w)
  | .vlaneSwap w => some (fmtVlaneSwap w, w)
  | .vlaneLag w => some (fmtVlaneLag w, w)
  | .vlaneLead w => some (fmtVlaneLead w, w)
  | .vscan w => some (fmtVscan w, w)
  | .vred w => some (fmtVred w, w)
  | .vxs w => some (fmtVxs w, w)
  | .laneBra w => some (fmtLaneBra w, w)
  | .join w => some (fmtJoin w, w)
  | .regang w => some (fmtRegang w, w)
  | .lstop w => some (fmtLstop w, w)
  | .lyield w => some (fmtLyield w, w)
  | .ltrap w => some (fmtLtrap w, w)
  | .vld w => some (fmtVld w, w)
  | .vldRo w => some (fmtVldRo w, w)
  | .vst w => some (fmtVst w, w)
  | .vldg w => some (fmtVldg w, w)
  | .vsct w => some (fmtVsct w, w)
  | .vsctAdd w => some (fmtVsctAdd w, w)
  | .vamo w => some (fmtVamo w, w)
  | .vprefetch w => some (fmtVprefetch w, w)
  | .vfence w => some (fmtVfence w, w)
  | .vinter w => some (fmtVinter w, w)
  | .vpfx w => some (fmtVpfx w, w)
  | .vbmapAnd w => some (fmtVbmapAnd w, w)
  | .vbmapAndn w => some (fmtVbmapAndn w, w)
  | .vbmapOr w => some (fmtVbmapOr w, w)
  | .vbmapKeep w => some (fmtVbmapKeep w, w)
  | .vbmapRank w => some (fmtVbmapRank w, w)
  | .vbmapSel w => some (fmtVbmapSel w, w)
  | .eld w => some (fmtEld w, w)
  | .est w => some (fmtEst w, w)
  | .epin w => some (fmtEpin w, w)
  | .eunpin w => some (fmtEunpin w, w)
  | .ecvt w => some (fmtEcvt w, w)
  | .ecvtRad w => some (fmtEcvtRad w, w)
  | .eadd w => some (fmtEadd w, w)
  | .esub w => some (fmtEsub w, w)
  | .emul w => some (fmtEmul w, w)
  | .efma w => some (fmtEfma w, w)
  | .ediv w => some (fmtEdiv w, w)
  | .esqrt w => some (fmtEsqrt w, w)
  | .eneg w => some (fmtEneg w, w)
  | .ecmp w => some (fmtEcmp w, w)
  | .esever w => some (fmtEsever w, w)
  | .emid w => some (fmtEmid w, w)
  | .erad w => some (fmtErad w, w)
  | _ => none

/-- A register operand of n registers is aligned (R52). -/
def regAligned (n r : Nat) : Bool := n ≤ 1 || r % (if n ≤ 2 then 2 else 4) == 0

/-- A source field of n registers obeys R49, R50, R52, R55, R65 and R127. -/
def srcOk (n : Nat) (nb latch special lc : Bool) (f : BitVec 12) : Bool :=
  if n = 0 then f == 0
  else match srcOf f with
    | .reg r => regAligned n r
    | .nl r => nb && regAligned n r
    | .nr r => nb && regAligned n r
    | .latch _ => latch && special
    | .snap _ => special
    | .lc _ => special && lc
    | .bad => false

/-- A predicate source field (R145): bits [11:6] are zero. -/
def predSrcOk (f : BitVec 12) : Bool := decide (f.toNat < 64)

/-- The destination field obeys R52. -/
def dstOk (f : LaneFmt) (w : LaneWord) : Bool :=
  let d := w.d.toNat
  if f.dpred then 1 ≤ d && decide (d < 64)
  else if f.dscalar then decide (d < 64)
  else if f.dn = 0 then d == 0
  else regAligned f.dn d

/-- The static rules of R47, R52 to R56 and R127 for a lane word of a format. -/
def laneOk (f : LaneFmt) (w : LaneWord) : Bool :=
  f.tyOk && dstOk f w && (if w.imm then f.imm else f.single) &&
  (if f.apred then (if f.opc = 0x1C0 then decide (w.a.toNat < 128) else predSrcOk w.a)
    else srcOk f.an f.nb f.latch f.aspecial f.alc w.a) &&
  (w.imm || (if f.bpred then predSrcOk w.b else srcOk f.bn f.nb f.latch f.bspecial true w.b)) &&
  (if w.imm then f.cn == 0 else srcOk f.cn false f.latch f.cspecial true w.c) &&
  (f.predFree || (w.pred == 0 && w.pn == 0)) &&
  (w.u == 0 || f.uOk) &&
  (w.nw == 0 || (1 ≤ f.dn && !f.cert)) &&
  (if f.rounds then decide (w.rm.toNat ≤ 5) else w.rm == 0) &&
  f.mdOk && f.xOk

/-- The highest register a source field names, plus one. -/
def srcTop (n : Nat) (f : BitVec 12) : Nat :=
  if n = 0 then 0
  else match srcOf f with
    | .reg r => r + n
    | .nl r => r + n
    | .nr r => r + n
    | _ => 0

/-- One above the highest lane register the word names (the budget check of R52). -/
def laneTop (f : LaneFmt) (w : LaneWord) : Nat :=
  max (if f.dn = 0 then 0 else w.d.toNat + f.dn)
    (max (if f.apred then 0 else srcTop f.an w.a)
      (max (if w.imm || f.bpred then 0 else srcTop f.bn w.b) (if w.imm then 0 else srcTop f.cn w.c)))

/-! ### Pair halves (R57 to R60) -/

/-- The type of a TY3 code (R57). -/
def ty3Of (c : Nat) : Ty :=
  match c with
  | 0 => .s32 | 1 => .z32 | 2 => .s64 | 3 => .f64 | 4 => .f32 | 5 => .f16 | 6 => .bf16 | _ => .b32

/-- I of R60. -/
def ty3I (t : Ty) : Bool := t == .s32 || t == .z32 || t == .s64

/-- What R60 says of a half-opcode and type: sources read, whether D is a predicate; none if illegal. -/
def halfSrcs (hopc : Nat) (t : Ty) : Option (Nat × Bool) :=
  let chk (b : Bool) (n : Nat) : Option (Nat × Bool) := if b then some (n, false) else none
  let cmp (b : Bool) : Option (Nat × Bool) := if b then some (2, true) else none
  match hopc with
  | 0x01 => chk (t == .s32) 0
  | 0x08 | 0x09 | 0x0A | 0x0B | 0x10 | 0x11 => chk (ty3I t) 2
  | 0x0C | 0x0D | 0x0E | 0x0F | 0x12 => chk (t == .b32) 2
  | 0x13 | 0x14 => chk (t == .s32 || t == .s64) 1
  | 0x15 | 0x16 | 0x19 | 0x1A => chk (t == .s32 || t == .z32) 2
  | 0x17 | 0x18 => chk (t == .b32) 1
  | 0x20 | 0x21 | 0x22 | 0x23 => chk (tyIsF t) 2
  | 0x24 | 0x25 => chk (tyIsF t) 1
  | 0x30 | 0x31 | 0x32 => chk (tyIsF t) 2
  | 0x40 | 0x41 => cmp true
  | 0x42 | 0x43 | 0x44 | 0x45 => cmp (ty3I t || tyIsF t)
  | 0x46 => cmp (tyIsF t)
  | 0x50 => chk true 1
  | 0x60 | 0x61 | 0x63 | 0x64 | 0x67 => chk (tyIsS t) 1
  | 0x62 => chk (tyIsF t) 1
  | 0x65 | 0x66 => chk (t == .f32) 1
  | _ => none

/-- Banks of n registers from r on. -/
def banksOf (n r : Nat) : List Nat := (List.range n).map (fun i => (r + i) % 8)

/-- One half is legal by itself (R57, R60). -/
def halfOk (h : PairHalf) : Bool :=
  let t := ty3Of h.ty3.toNat
  let r := tyRegs t
  match halfSrcs h.hopc.toNat t with
  | none => false
  | some (n, dpred) =>
    if n = 0 then h.ty3 == 0 && h.d == 0 && h.a == 0 && h.b == 0 && h.pred == 0
    else (if dpred then 1 ≤ h.d.toNat && decide (h.d.toNat < 64) else regAligned r h.d.toNat) &&
      srcOk r false true true true h.a && (if n = 1 then h.b == 0 else srcOk r false true true true h.b)

/-- Registers a half's destination occupies. -/
def halfDst (h : PairHalf) : List Nat :=
  let t := ty3Of h.ty3.toNat
  match halfSrcs h.hopc.toNat t with
  | some (n, false) => if n = 0 then [] else banksOf (tyRegs t) h.d.toNat
  | _ => []

/-- Banks a half's A source reads, and the register it names. -/
def halfASrc (h : PairHalf) : Option (Nat × List Nat) :=
  let t := ty3Of h.ty3.toNat
  match halfSrcs h.hopc.toNat t, srcOf h.a with
  | some (n, _), .reg r => if n = 0 then none else some (r, banksOf (tyRegs t) r)
  | _, _ => none

/-- Whether two lists share an element. -/
def shares (a b : List Nat) : Bool := a.any b.contains

/-- A special function half. -/
def halfSpecial (h : PairHalf) : Bool := decide (0x60 ≤ h.hopc.toNat)

/-- A compare half. -/
def halfCmp (h : PairHalf) : Bool := decide (0x40 ≤ h.hopc.toNat) && decide (h.hopc.toNat < 0x50)

/-- The pairing rules of R59. -/
def pairOk (p q : PairHalf) : Bool :=
  halfOk p && halfOk q && !shares (halfDst p) (halfDst q) &&
  (match halfASrc p, halfASrc q with
    | some (r, x), some (s, y) => r == s || !shares x y
    | _, _ => true) &&
  !(halfSpecial p && halfSpecial q) &&
  !(halfCmp p && halfCmp q && p.d == q.d)

/-- One above the highest lane register a half names. -/
def halfTop (h : PairHalf) : Nat :=
  let t := ty3Of h.ty3.toNat
  let r := tyRegs t
  match halfSrcs h.hopc.toNat t with
  | none => 0
  | some (n, dpred) =>
    if n = 0 then 0
    else max (if dpred then 0 else h.d.toNat + r) (max (srcTop r h.a) (if n = 1 then 0 else srcTop r h.b))

end Sys2Proof.Machine
end

