-- ==== Sys2Proof/WellFormed.lean ====
section
/-! DEFINITION. Which instructions the encoding admits (R44, R45, R47, and the entries of each chapter).
The lane rules that need the register budget of the running crew are checked at issue. -/

namespace Sys2Proof

/-- The selectors of R115 that xrd accepts. -/
def xrdSelOk (s : Nat) : Bool := decide (s ≤ 0x0B) || (decide (0x10 ≤ s) && decide (s ≤ 0x14))

/-- The selectors of R115 that xwr accepts. -/
def xwrSelOk (s : Nat) : Bool := decide (2 ≤ s ∧ s ≤ 4) || decide (0x10 ≤ s ∧ s ≤ 0x12)

/-- A narrow matrix format (R215). -/
def fmtNarrow (fmt : Nat) : Bool := decide (2 ≤ fmt)

/-- The rules an encoding must meet that its fields alone decide. -/
def Instr.wf : Instr → Bool
  | .cmp d _ _ c => d != 0 && decide (c.toNat ≤ 11)
  | .cmpF64 d _ _ c => d != 0 && c != 7
  | .cmpF32 d _ _ c => d != 0 && c != 7
  | .cmpi d _ c _ => d != 0 && decide (c.toNat ≤ 11)
  | .predAnd d _ _ => d != 0
  | .predOr d _ _ => d != 0
  | .predXor d _ _ => d != 0
  | .predAndn d _ _ => d != 0
  | .predOrn d _ _ => d != 0
  | .predNand d _ _ => d != 0
  | .predNor d _ _ => d != 0
  | .predXnor d _ _ => d != 0
  | .predMov d _ => d != 0
  | .predNot d _ => d != 0
  | .predSet d => d != 0
  | .predClr d => d != 0
  | .predNz d _ => d != 0
  | .lrunFar i => i.toNat % 4 == 0
  | .lrunFarReg _ i => i.toNat % 4 == 0
  | .lsnapPair _ _ k => k != 15
  | .xrd _ s => xrdSelOk s.toNat
  | .xwr _ s => xwrSelOk s.toNat
  | .trap c => decide (0x80 ≤ c.toNat)
  | .spawnTry c _ _ => c != 0
  | .ld _ _ w _ => w != 7
  | .ldRo _ _ w _ => w != 7
  | .amo _ _ _ o _ s => decide (o.toNat ≤ 10) && s != 7
  | .fence _ s => s != 0 && s != 7
  | .ewait _ c => c != 7
  | .cpYield _ i => i.toNat % 4 == 0
  | .hBind _ _ c => c != 0
  | .hTry _ c => c != 0
  | .barAlloc c _ _ => c != 0
  | .qPush _ _ s => s != 7
  | .qPushTry c _ _ s => c != 0 && s != 7
  | .qPop _ _ s => s != 7
  | .qPopTry _ _ c s => c != 0 && s != 7
  | .cmoWb _ _ s => decide (2 ≤ s.toNat ∧ s.toNat ≤ 6)
  | .cmoWbinv _ _ s => decide (2 ≤ s.toNat ∧ s.toNat ≤ 6)
  | .cmoInv _ _ s => decide (2 ≤ s.toNat ∧ s.toNat ≤ 6)
  | .cmoIinv _ _ s => decide (2 ≤ s.toNat ∧ s.toNat ≤ 6)
  | .cmoRodrop _ _ s => decide (2 ≤ s.toNat ∧ s.toNat ≤ 6)
  | .matTokenQuery c => c != 0
  | .accAlloc d n => decide (1 ≤ n.toNat) && decide (d.toNat + n.toNat ≤ 16)
  | .accFree d n => decide (1 ≤ n.toNat) && decide (d.toNat + n.toNat ≤ 16)
  | .mloop _ a rm fmt _ i => fmt != 7 && decide (rm.toNat ≤ 5) && decide (a.toNat ≤ 61) &&
      (!fmtNarrow fmt.toNat || rm == 0) && i != 0
  | .spTmul _ a _ r => decide (a.toNat ≤ 62) && decide (r.toNat ≤ 5)
  | .tabLoad c _ _ => c != 0
  | .slcExtend c _ => c != 0
  | .fxWaitTry c _ _ => c != 0
  | .svLu a => decide (a.toNat ≤ 61)
  | .svChol a => decide (a.toNat ≤ 61)
  | .svTrs a => decide (a.toNat ≤ 61)
  | .svRef a => decide (a.toNat ≤ 61)
  | .lanePairWord p q => Machine.pairOk p q
  | i => match Machine.laneFmt i with
    | some (f, w) => Machine.laneOk f w
    | none => true

end Sys2Proof
end

