-- ==== Sys2Proof/Decode.lean ====
section
/-! DEFINITION. The decoder and the encoder of scalar words, long forms and lane words (R42 to R61). -/

namespace Sys2Proof

open Machine

/-- The five fields of a scalar word in SR cut; SI and SB immediates are joined from them (R43). -/
structure SWord where
  op : BitVec 6
  d : BitVec 6
  a : BitVec 6
  b : BitVec 6
  fn : BitVec 8
  deriving DecidableEq, Repr

/-- Cut a scalar word into its fields. -/
def splitS (w : W32) : SWord :=
  ⟨w.extractLsb' 26 6, w.extractLsb' 20 6, w.extractLsb' 14 6, w.extractLsb' 8 6, w.extractLsb' 0 8⟩

/-- Join the fields of a scalar word. -/
def joinS (q : SWord) : W32 := q.op ++ q.d ++ q.a ++ q.b ++ q.fn

/-- The low four bits of a field that names a scalar predicate. -/
def lo4 (x : BitVec 6) : BitVec 4 := x.extractLsb' 0 4
/-- The top two bits of such a field are zero. -/
def hi2z (x : BitVec 6) : Bool := x.extractLsb' 4 2 == 0
/-- The low five bits of a field. -/
def lo5 (x : BitVec 6) : BitVec 5 := x.extractLsb' 0 5
/-- The low three bits of a field. -/
def lo3 (x : BitVec 6) : BitVec 3 := x.extractLsb' 0 3
/-- The register group base of a field that is a multiple of four. -/
def quad4 (x : BitVec 6) : BitVec 4 := x.extractLsb' 2 4
/-- A field is a multiple of four. -/
def mul4 (x : BitVec 6) : Bool := x.extractLsb' 0 2 == 0
/-- Widen a predicate name to its field. -/
def up4 (c : BitVec 4) : BitVec 6 := 0#2 ++ c
/-- Widen a five-bit name to its field. -/
def up5 (c : BitVec 5) : BitVec 6 := 0#1 ++ c
/-- Widen a three-bit name to its field. -/
def up3 (c : BitVec 3) : BitVec 6 := 0#3 ++ c
/-- A register group base to its field. -/
def upQ (c : BitVec 4) : BitVec 6 := c ++ 0#2

/-- An instruction when a condition holds. -/
def when? (c : Bool) (i : Instr) : Option Instr := if c then some i else none

/-- The ALU register group, OP 0x01 (R101, R102). -/
def decAlu (fn : Nat) (d a b : BitVec 6) : Option Instr :=
  match fn with
  | 0x00 => some (.add d a b)
  | 0x01 => some (.sub d a b)
  | 0x02 => some (.mul d a b)
  | 0x03 => some (.mulh d a b)
  | 0x04 => some (.mulhz d a b)
  | 0x05 => some (.div d a b)
  | 0x06 => some (.divz d a b)
  | 0x07 => some (.rem d a b)
  | 0x08 => some (.remz d a b)
  | 0x09 => some (.min d a b)
  | 0x0A => some (.max d a b)
  | 0x0B => some (.minz d a b)
  | 0x0C => some (.maxz d a b)
  | 0x0D => some (.addSat d a b)
  | 0x0E => some (.subSat d a b)
  | 0x0F => some (.addzSat d a b)
  | 0x10 => some (.subzSat d a b)
  | 0x11 => some (.and d a b)
  | 0x12 => some (.or d a b)
  | 0x13 => some (.xor d a b)
  | 0x14 => some (.andn d a b)
  | 0x15 => some (.shl d a b)
  | 0x16 => some (.shr d a b)
  | 0x17 => some (.sar d a b)
  | 0x18 => some (.rol d a b)
  | 0x19 => when? (b == 0) (.popc d a)
  | 0x1A => when? (b == 0) (.clz d a)
  | 0x1B => when? (b == 0) (.ctz d a)
  | 0x20 => some (.addW d a b)
  | 0x21 => some (.subW d a b)
  | 0x22 => some (.mulW d a b)
  | 0x23 => some (.mulhW d a b)
  | 0x24 => some (.mulhzW d a b)
  | 0x25 => some (.divW d a b)
  | 0x26 => some (.divzW d a b)
  | 0x27 => some (.remW d a b)
  | 0x28 => some (.remzW d a b)
  | 0x29 => some (.minW d a b)
  | 0x2A => some (.maxW d a b)
  | 0x2B => some (.minzW d a b)
  | 0x2C => some (.maxzW d a b)
  | 0x2D => some (.addSatW d a b)
  | 0x2E => some (.subSatW d a b)
  | 0x2F => some (.addzSatW d a b)
  | 0x30 => some (.subzSatW d a b)
  | 0x31 => some (.andW d a b)
  | 0x32 => some (.orW d a b)
  | 0x33 => some (.xorW d a b)
  | 0x34 => some (.andnW d a b)
  | 0x35 => some (.shlW d a b)
  | 0x36 => some (.shrW d a b)
  | 0x37 => some (.sarW d a b)
  | 0x38 => some (.rolW d a b)
  | 0x39 => when? (b == 0) (.popcW d a)
  | 0x3A => when? (b == 0) (.clzW d a)
  | 0x3B => when? (b == 0) (.ctzW d a)
  | 0x40 => some (.faddF64 d a b)
  | 0x41 => some (.fsubF64 d a b)
  | 0x42 => some (.fmulF64 d a b)
  | 0x43 => some (.fdivF64 d a b)
  | 0x44 => when? (b == 0) (.fsqrtF64 d a)
  | 0x45 => some (.fminF64 d a b)
  | 0x46 => some (.fmaxF64 d a b)
  | 0x47 => some (.ffmaF64 d a b)
  | 0x48 => when? (b == 0) (.fcvtF64S64 d a)
  | 0x49 => when? (b == 0) (.fcvtF64Z64 d a)
  | 0x4A => when? (b == 0) (.fcvtS64F64 d a)
  | 0x4B => when? (b == 0) (.fcvtZ64F64 d a)
  | 0x4C => when? (b == 0) (.fcvtF64F32 d a)
  | 0x4D => when? (b == 0) (.fabsF64 d a)
  | 0x4E => when? (b == 0) (.fnegF64 d a)
  | 0x50 => some (.faddF32 d a b)
  | 0x51 => some (.fsubF32 d a b)
  | 0x52 => some (.fmulF32 d a b)
  | 0x53 => some (.fdivF32 d a b)
  | 0x54 => when? (b == 0) (.fsqrtF32 d a)
  | 0x55 => some (.fminF32 d a b)
  | 0x56 => some (.fmaxF32 d a b)
  | 0x57 => some (.ffmaF32 d a b)
  | 0x58 => when? (b == 0) (.fcvtF32S64 d a)
  | 0x59 => when? (b == 0) (.fcvtF32Z64 d a)
  | 0x5A => when? (b == 0) (.fcvtS64F32 d a)
  | 0x5B => when? (b == 0) (.fcvtZ64F32 d a)
  | 0x5C => when? (b == 0) (.fcvtF32F64 d a)
  | 0x5D => when? (b == 0) (.fabsF32 d a)
  | 0x5E => when? (b == 0) (.fnegF32 d a)
  | _ => none

/-- OP 0x06: shifts and rotates by an immediate (R103). -/
def decShift (d a : BitVec 6) (i : BitVec 14) : Option Instr :=
  let n := i.extractLsb' 0 6
  let n5 := i.extractLsb' 0 5
  match (i.extractLsb' 5 9).toNat with
  | 0x000 | 0x001 => some (.shli d a n)
  | 0x002 => some (.shliW d a n5)
  | 0x080 | 0x081 => some (.shri d a n)
  | 0x082 => some (.shriW d a n5)
  | 0x100 | 0x101 => some (.sari d a n)
  | 0x102 => some (.sariW d a n5)
  | 0x180 | 0x181 => some (.roli d a n)
  | 0x182 => some (.roliW d a n5)
  | _ => none

/-- OP 0x08: compares (R105). -/
def decCmp (d a b : BitVec 6) (fn : BitVec 8) : Option Instr :=
  match (fn.extractLsb' 3 5).toNat with
  | 0 | 1 => when? (hi2z d) (.cmp (lo4 d) a b (fn.extractLsb' 0 4))
  | 2 => when? (hi2z d) (.cmpF64 (lo4 d) a b (fn.extractLsb' 0 3))
  | 3 => when? (hi2z d) (.cmpF32 (lo4 d) a b (fn.extractLsb' 0 3))
  | _ => none

/-- OP 0x0A: predicate logic (R106). -/
def decPred (d a b : BitVec 6) (fn : Nat) : Option Instr :=
  let k3 := hi2z d && hi2z a && hi2z b
  let k2 := hi2z d && hi2z a && b == 0
  let k1 := hi2z d && a == 0 && b == 0
  match fn with
  | 0x00 => when? k3 (.predAnd (lo4 d) (lo4 a) (lo4 b))
  | 0x01 => when? k3 (.predOr (lo4 d) (lo4 a) (lo4 b))
  | 0x02 => when? k3 (.predXor (lo4 d) (lo4 a) (lo4 b))
  | 0x03 => when? k3 (.predAndn (lo4 d) (lo4 a) (lo4 b))
  | 0x04 => when? k3 (.predOrn (lo4 d) (lo4 a) (lo4 b))
  | 0x05 => when? k3 (.predNand (lo4 d) (lo4 a) (lo4 b))
  | 0x06 => when? k3 (.predNor (lo4 d) (lo4 a) (lo4 b))
  | 0x07 => when? k3 (.predXnor (lo4 d) (lo4 a) (lo4 b))
  | 0x08 => when? k2 (.predMov (lo4 d) (lo4 a))
  | 0x09 => when? k2 (.predNot (lo4 d) (lo4 a))
  | 0x0A => when? k1 (.predSet (lo4 d))
  | 0x0B => when? k1 (.predClr (lo4 d))
  | 0x10 => when? (hi2z d && b == 0) (.predNz (lo4 d) a)
  | 0x11 => when? (hi2z a && b == 0) (.predGet d (lo4 a))
  | _ => none

/-- OP 0x0D: jumps through registers (R108). -/
def decJr (d a b : BitVec 6) (fn : Nat) : Option Instr :=
  let n := b.extractLsb' 4 1
  let k := b.extractLsb' 5 1 == 0
  match fn with
  | 0x00 => when? (k && d == 0) (.jr a n (lo4 b))
  | 0x01 => when? (k && d == 0 && a == 0) (.ret n (lo4 b))
  | 0x02 => when? k (.calli d a n (lo4 b))
  | _ => none

/-- OP 0x13: lsnap (R112). -/
def decLsnap (d a b : BitVec 6) (fn : BitVec 8) : Option Instr :=
  match (fn.extractLsb' 4 4).toNat with
  | 0 => when? (d == 0 && b == 0) (.lsnap a (fn.extractLsb' 0 4))
  | 1 => when? (d == 0) (.lsnapPair a b (fn.extractLsb' 0 4))
  | _ => none

/-- OP 0x17: system operations (R117). -/
def decSys (d a b : BitVec 6) (fn : Nat) : Option Instr :=
  let z := d == 0 && a == 0 && b == 0
  match fn with
  | 0x00 => when? z .nop
  | 0x01 => when? (d == 0 && a.extractLsb' 2 4 == 0) (.trap (a.extractLsb' 0 2 ++ b))
  | 0x02 => when? z .brk
  | 0x03 => when? z .yield
  | 0x04 => when? z .exit
  | 0x05 => when? z .resume
  | _ => none

/-- OP 0x1A: copies (R201). -/
def decCp (d a b : BitVec 6) (fn : Nat) : Option Instr :=
  match fn with
  | 0x00 => if b.extractLsb' 5 1 == 1 then when? (mul4 a) (.cpIssueBar d (quad4 a) (lo5 b))
    else when? (mul4 a && b == 0) (.cpIssue d (quad4 a))
  | 0x01 => when? (mul4 a && b == 0) (.cpIssueRing d (quad4 a))
  | _ => none

/-- OP 0x1B: handles (R205, R206). -/
def decHnd (d a b : BitVec 6) (fn : Nat) : Option Instr :=
  let z := a == 0 && b == 0
  match fn with
  | 0x00 => when? (hi2z b) (.hBind d a (lo4 b))
  | 0x01 => when? z (.hUnbind d)
  | 0x02 => when? z (.hClaim d)
  | 0x03 => when? z (.hRelease d)
  | 0x04 => when? z (.hWait d)
  | 0x05 => when? (a == 0 && hi2z b) (.hTry d (lo4 b))
  | 0x06 => when? (b == 0) (.hState d a)
  | 0x08 => when? (d == 0 && b == 0) (.hRclaim a)
  | 0x09 => when? (b == 0) (.hRadv d a)
  | _ => none

/-- OP 0x1C: barriers (R208). -/
def decBar (d a b : BitVec 6) (fn : Nat) : Option Instr :=
  let k := b.extractLsb' 5 1 == 0
  let z := k && d == 0 && a == 0
  match fn with
  | 0x00 => when? (k && hi2z d) (.barAlloc (lo4 d) a (lo5 b))
  | 0x01 => when? z (.barMark (lo5 b))
  | 0x02 => when? z (.barMeet (lo5 b))
  | 0x03 => when? (k && d == 0 && a.extractLsb' 1 5 == 0) (.barHold (a.extractLsb' 0 1) (lo5 b))
  | 0x04 => when? (k && d == 0) (.barPend a (lo5 b))
  | 0x05 => when? z (.barFree (lo5 b))
  | 0x06 => when? (k && a == 0) (.barPhase d (lo5 b))
  | _ => none

/-- OP 0x1D: the matrix engine (R217, R219, R224, R228, R229). -/
def decMat (d a b : BitVec 6) (fn : Nat) : Option Instr :=
  let z := d == 0 && a == 0 && b == 0
  match fn with
  | 0x00 => when? (d == 0) (.matWload a b)
  | 0x08 => when? z .matTokenTake
  | 0x09 => when? z .matTokenPass
  | 0x0A => when? (hi2z d && a == 0 && b == 0) (.matTokenQuery (lo4 d))
  | 0x10 => when? (hi2z d && a == 0 && b.extractLsb' 5 1 == 0) (.accAlloc (lo4 d) (lo5 b))
  | 0x11 => when? (hi2z d && a == 0 && b.extractLsb' 5 1 == 0) (.accFree (lo4 d) (lo5 b))
  | 0x18 => when? (hi2z d && b == 0) (.matZeroFx (lo4 d) a)
  | 0x19 => when? (hi2z d && a == 0 && b == 0) (.matZeroFp (lo4 d))
  | 0x20 => when? (hi2z d) (.matDrain (lo4 d) a b)
  | _ => none

/-- OP 0x1E: sparse work (R262, R268, R269, R271). -/
def decSpt (d a b : BitVec 6) (fn : BitVec 8) : Option Instr :=
  match (fn.extractLsb' 3 5).toNat with
  | 0 => match (fn.extractLsb' 0 3).toNat with
    | 0 => when? (d.extractLsb' 3 3 == 0 && b == 0) (.spTload (lo3 d) a)
    | 1 => when? (a == 0 && b.extractLsb' 3 3 == 0) (.spTstat d (lo3 b))
    | _ => none
  | 1 => when? (fn.extractLsb' 0 3 == 0 && mul4 d) (.spPart (quad4 d) a b)
  | 4 => when? (hi2z d && b.extractLsb' 3 3 == 0) (.spTmul (lo4 d) a (lo3 b) (fn.extractLsb' 0 3))
  | _ => none

/-- OP 0x1F: queues (R211). -/
def decQue (d a b : BitVec 6) (fn : BitVec 8) : Option Instr :=
  let s := fn.extractLsb' 0 3
  match (fn.extractLsb' 3 5).toNat with
  | 0 => when? (d == 0) (.qPush a b s)
  | 1 => when? (b == 0) (.qPop d a s)
  | 2 => when? (hi2z d) (.qPushTry (lo4 d) a b s)
  | 3 => when? (hi2z b) (.qPopTry d a (lo4 b) s)
  | _ => none

/-- OP 0x21 and 0x28 (R327). -/
def decSlc (d a b : BitVec 6) (fn : Nat) : Option Instr :=
  match fn with
  | 0x00 => when? (hi2z d && b == 0) (.slcExtend (lo4 d) a)
  | 0x01 => when? (d == 0 && a == 0 && b == 0) .slcAbort
  | 0x02 => when? (b == 0) (.slcQfree d a)
  | _ => none

/-- OP 0x28 (R327). -/
def decDet (d a b : BitVec 6) (fn : Nat) : Option Instr :=
  match fn with
  | 0x00 => when? (mul4 d && b == 0) (.detDigest (quad4 d) a)
  | 0x01 => when? (d == 0) (.detOut a b)
  | 0x02 => when? (a == 0 && b == 0) (.detFlush d)
  | 0x03 => when? (d == 0 && a == 0 && b == 0) .detSync
  | _ => none

/-- OP 0x22: the fabric (R344). -/
def decFx (d a b : BitVec 6) (fn : Nat) : Option Instr :=
  let k := d == 0 && mul4 a
  match fn with
  | 0x00 => when? (k && b == 0) (.fxPut (quad4 a))
  | 0x01 => when? k (.fxPutSet (quad4 a) b)
  | 0x02 => when? k (.fxPutAdd (quad4 a) b)
  | 0x04 => when? (k && b == 0) (.fxGet (quad4 a))
  | 0x08 => when? (d == 0) (.fxSignalSet a b)
  | 0x09 => when? (d == 0) (.fxSignalAdd a b)
  | 0x0C => when? (d == 0) (.fxWait a b)
  | 0x0D => when? (hi2z d) (.fxWaitTry (lo4 d) a b)
  | 0x10 => when? (k && b == 0) (.fxReduce (quad4 a))
  | _ => none

/-- OP 0x23: solves (R333). -/
def decSv (d a b : BitVec 6) (fn : Nat) : Option Instr :=
  let k := d == 0 && b == 0
  match fn with
  | 0x00 => when? k (.svLu a)
  | 0x01 => when? k (.svChol a)
  | 0x02 => when? k (.svTrs a)
  | 0x03 => when? k (.svRef a)
  | 0x04 => when? (a == 0 && b == 0) (.svStat d)
  | _ => none

/-- OP 0x26: cache maintenance (R213). -/
def decCmo (d a b : BitVec 6) (fn : BitVec 8) : Option Instr :=
  let s := fn.extractLsb' 0 3
  match (fn.extractLsb' 3 5).toNat with
  | 0 => when? (d == 0) (.cmoWb a b s)
  | 1 => when? (d == 0) (.cmoWbinv a b s)
  | 2 => when? (d == 0) (.cmoInv a b s)
  | 3 => when? (d == 0) (.cmoIinv a b s)
  | 4 => when? (d == 0) (.cmoRodrop a b s)
  | _ => none

/-- A 32-bit scalar word by its major opcode (R46), before the checks of Instr.wf. -/
def decShort (q : SWord) : Option Instr :=
  let ⟨op, d, a, b, fn⟩ := q
  let i : BitVec 14 := b ++ fn
  match op.toNat with
  | 0x01 => decAlu fn.toNat d a b
  | 0x02 => some (.addi d a i)
  | 0x03 => some (.andi d a i)
  | 0x04 => some (.ori d a i)
  | 0x05 => some (.xori d a i)
  | 0x06 => decShift d a i
  | 0x07 => some (.li d (a ++ i))
  | 0x08 => decCmp d a b fn
  | 0x09 => when? (hi2z d) (.cmpi (lo4 d) a (i.extractLsb' 10 4) (i.extractLsb' 0 10))
  | 0x0A => decPred d a b fn.toNat
  | 0x0B => some (.bra (d.extractLsb' 2 4) (d.extractLsb' 1 1) (d.extractLsb' 0 1 ++ a ++ i))
  | 0x0C => some (.call (d.extractLsb' 2 4) (d.extractLsb' 1 1) (d.extractLsb' 0 1 ++ a ++ i))
  | 0x0D => decJr d a b fn.toNat
  | 0x0E => when? (a == 0) (.loop d i)
  | 0x0F => if b.extractLsb' 5 1 == 1 then some (.ldRo d a (i.extractLsb' 10 3) (i.extractLsb' 0 10))
    else some (.ld d a (i.extractLsb' 10 3) (i.extractLsb' 0 10))
  | 0x10 => some (.st d a (i.extractLsb' 12 2) (i.extractLsb' 0 12))
  | 0x11 => some (.amo d a b (fn.extractLsb' 4 4) (fn.extractLsb' 3 1) (fn.extractLsb' 0 3))
  | 0x12 => when? (d == 0 && a == 0) (.lrun i)
  | 0x13 => decLsnap d a b fn
  | 0x14 => if fn = 0 then when? (d == 0 && a == 0 && b == 0) .lwait
    else when? (fn == 1 && d == 0 && a == 0 && hi2z b) (.lwaitLe (lo4 b))
  | 0x15 => when? (a == 0) (.xrd d i)
  | 0x16 => when? (d == 0) (.xwr a i)
  | 0x17 => decSys d a b fn.toNat
  | 0x18 => when? (d == 0 && a == 0 && b == 0 && fn.extractLsb' 5 3 == 0)
      (.fence (fn.extractLsb' 3 2) (fn.extractLsb' 0 3))
  | 0x19 => when? (d == 0 && fn.extractLsb' 3 5 == 0) (.ewait (a ++ b) (fn.extractLsb' 0 3))
  | 0x1A => decCp d a b fn.toNat
  | 0x1B => decHnd d a b fn.toNat
  | 0x1C => decBar d a b fn.toNat
  | 0x1D => decMat d a b fn.toNat
  | 0x1E => decSpt d a b fn
  | 0x1F => decQue d a b fn
  | 0x20 => when? (hi2z d && fn == 0) (.spawnTry (lo4 d) a b)
  | 0x21 => decSlc d a b fn.toNat
  | 0x22 => decFx d a b fn.toNat
  | 0x23 => decSv d a b fn.toNat
  | 0x24 => when? (d == 0 && b == 0 && fn == 0) (.graft a)
  | 0x25 => if fn = 0 then when? (d == 0) (.irBegin a b)
    else when? (fn == 1 && d == 0 && a == 0 && b == 0) .irEnd
  | 0x26 => decCmo d a b fn
  | 0x27 => when? (hi2z d && b == 0 && fn.extractLsb' 1 7 == 0) (.tabLoad (lo4 d) a (fn.extractLsb' 0 1))
  | 0x28 => decDet d a b fn.toNat
  | _ => none

/-- A long form, OP 0x3E, by SUB and FN (R45), before the checks of Instr.wf. -/
def decLong (q : SWord) (imm : W32) : Option Instr :=
  let ⟨_, d, a, b, fn⟩ := q
  match b.toNat with
  | 0x01 => when? (hi2z d) (.mloop (lo4 d) a (fn.extractLsb' 5 3) (fn.extractLsb' 2 3) (fn.extractLsb' 0 2) imm)
  | 0x02 => when? (fn == 0 && a == 0) (.cpYield d imm)
  | 0x03 => match fn.toNat with
    | 0x00 => when? (a == 0) (.liW d imm)
    | 0x01 => when? (a == 0) (.liWz d imm)
    | 0x02 => when? (a == 0) (.liWh d imm)
    | _ => none
  | 0x04 => match fn.toNat with
    | 0x00 => when? (d == 0 && a == 0) (.lrunFar imm)
    | 0x01 => when? (d == 0) (.lrunFarReg a imm)
    | _ => none
  | _ => none

/-- Whether the first word begins a long form (R45). -/
def isLong (w : W32) : Bool := w.extractLsb' 26 6 == 0x3E

/-- Keep an instruction that obeys every rule of its encoding. -/
def keepWf (o : Option Instr) : Option Instr := o.filter Instr.wf

/-- The scalar instruction at a first word and the word after it; none for an illegal word (R47). -/
def decodeScalar (w0 w1 : W32) : Option Instr :=
  keepWf (if isLong w0 then decLong (splitS w0) w1 else decShort (splitS w0))

/-- The lane constructor of an opcode, before the checks of Instr.wf (R61). -/
noncomputable def laneOf (opc : Nat) (w : LaneWord) : Option Instr :=
  match opc with
  | 0x001 => some (.vadd w)
  | 0x002 => some (.vsub w)
  | 0x003 => some (.vmulLo w)
  | 0x004 => some (.vmulHi w)
  | 0x005 => some (.vmad w)
  | 0x006 => some (.vdiv w)
  | 0x007 => some (.vrem w)
  | 0x008 => some (.vmin w)
  | 0x009 => some (.vmax w)
  | 0x00A => some (.vabs w)
  | 0x00B => some (.vneg w)
  | 0x010 => some (.vand w)
  | 0x011 => some (.vor w)
  | 0x012 => some (.vxor w)
  | 0x013 => some (.vandn w)
  | 0x014 => some (.vnot w)
  | 0x018 => some (.vshl w)
  | 0x019 => some (.vshr w)
  | 0x01A => some (.vrol w)
  | 0x01C => some (.vpopc w)
  | 0x01D => some (.vclz w)
  | 0x01E => some (.vctz w)
  | 0x020 => some (.vmov w)
  | 0x080 => some (.vaddF w)
  | 0x081 => some (.vsubF w)
  | 0x082 => some (.vmul w)
  | 0x083 => some (.vdivF w)
  | 0x084 => some (.vfma w)
  | 0x085 => some (.vfnma w)
  | 0x086 => some (.vfms w)
  | 0x087 => some (.vminF w)
  | 0x088 => some (.vmaxF w)
  | 0x089 => some (.vabsF w)
  | 0x08A => some (.vnegF w)
  | 0x08B => some (.vsqrt w)
  | 0x08C => some (.vround w)
  | 0x0C0 => some (.vrcp w)
  | 0x0C1 => some (.vrsqrt w)
  | 0x0C2 => some (.vexp2 w)
  | 0x0C3 => some (.vlog2 w)
  | 0x0C4 => some (.vsin w)
  | 0x0C5 => some (.vcos w)
  | 0x0C6 => some (.vtanh w)
  | 0x100 => some (.vcvt w)
  | 0x104 => some (.vpack w)
  | 0x105 => some (.vunpk w)
  | 0x108 => some (.vqdec w)
  | 0x109 => some (.vqenc w)
  | 0x110 => some (.vrand w)
  | 0x118 => some (.vtab w)
  | 0x150 => some (.vsel w)
  | 0x158 => some (.vpand w)
  | 0x159 => some (.vpor w)
  | 0x15A => some (.vpxor w)
  | 0x15B => some (.vpandn w)
  | 0x15C => some (.vpnot w)
  | 0x15D => some (.vpmov w)
  | 0x15E => some (.vpset w)
  | 0x15F => some (.vpclr w)
  | 0x160 => some (.vpnz w)
  | 0x161 => some (.vpget w)
  | 0x162 => some (.vballot w)
  | 0x198 => some (.vedge w)
  | 0x180 => some (.vlaneFrom w)
  | 0x181 => some (.vlaneSwap w)
  | 0x182 => some (.vlaneLag w)
  | 0x183 => some (.vlaneLead w)
  | 0x188 => some (.vscan w)
  | 0x190 => some (.vred w)
  | 0x1A0 => some (.vxs w)
  | 0x1C0 => some (.laneBra w)
  | 0x1C1 => some (.join w)
  | 0x1C2 => some (.regang w)
  | 0x1C3 => some (.lstop w)
  | 0x1C4 => some (.lyield w)
  | 0x1C5 => some (.ltrap w)
  | 0x200 => some (.vld w)
  | 0x201 => some (.vldRo w)
  | 0x202 => some (.vst w)
  | 0x208 => some (.vldg w)
  | 0x209 => some (.vsct w)
  | 0x20A => some (.vsctAdd w)
  | 0x210 => some (.vamo w)
  | 0x218 => some (.vprefetch w)
  | 0x220 => some (.vfence w)
  | 0x280 => some (.vinter w)
  | 0x288 => some (.vpfx w)
  | 0x300 => some (.eld w)
  | 0x301 => some (.est w)
  | 0x302 => some (.epin w)
  | 0x303 => some (.eunpin w)
  | 0x310 => some (.eadd w)
  | 0x311 => some (.esub w)
  | 0x312 => some (.emul w)
  | 0x313 => some (.efma w)
  | 0x314 => some (.ediv w)
  | 0x315 => some (.esqrt w)
  | 0x316 => some (.eneg w)
  | 0x318 => some (.ecmp w)
  | 0x320 => some (.esever w)
  | 0x321 => some (.emid w)
  | 0x322 => some (.erad w)
  | 0x140 => some (.vcmp 0 w)
  | 0x141 => some (.vcmp 1 w)
  | 0x142 => some (.vcmp 2 w)
  | 0x143 => some (.vcmp 3 w)
  | 0x144 => some (.vcmp 4 w)
  | 0x145 => some (.vcmp 5 w)
  | 0x146 => some (.vcmp 6 w)
  | 0x147 => some (.vcmp 7 w)
  | 0x290 => match laneX w % 8 with
    | 0 => some (.vbmapAnd w)
    | 1 => some (.vbmapAndn w)
    | 2 => some (.vbmapOr w)
    | 3 => some (.vbmapKeep w)
    | 4 => some (.vbmapRank w)
    | 5 => some (.vbmapSel w)
    | _ => none
  | 0x308 => if w.md.toNat % 2 = 1 then some (.ecvtRad w) else some (.ecvt w)
  | _ => none

/-- Cut a lane word into its single-form fields (R48). -/
def splitLane (v : W96) : LaneWord where
  imm := v.extractLsb' 94 2 == 2
  ty := v.extractLsb' 80 4
  d := v.extractLsb' 70 10
  nw := v.extractLsb' 69 1
  a := v.extractLsb' 57 12
  b := v.extractLsb' 45 12
  c := v.extractLsb' 33 12
  pred := v.extractLsb' 27 6
  pn := v.extractLsb' 26 1
  u := v.extractLsb' 25 1
  rm := v.extractLsb' 22 3
  md := v.extractLsb' 14 8
  x := v.extractLsb' 0 14

/-- Cut a pair half (R57). -/
def splitHalf (v : BitVec 47) : PairHalf where
  hopc := v.extractLsb' 40 7
  ty3 := v.extractLsb' 37 3
  d := v.extractLsb' 27 10
  a := v.extractLsb' 15 12
  b := v.extractLsb' 3 12
  pred := v.extractLsb' 0 3

/-- The lane instruction of a 96-bit word; none for an illegal word (R47, R48, R56, R57). -/
noncomputable def decodeLane (v : W96) : Option Instr :=
  keepWf (match (v.extractLsb' 94 2).toNat with
    | 1 => some (.lanePairWord (splitHalf (v.extractLsb' 47 47)) (splitHalf (v.extractLsb' 0 47)))
    | 3 => none
    | _ => laneOf (v.extractLsb' 84 10).toNat (splitLane v))

/-- The instruction whose bits are w, as spec/opcode_table.json numbers them: a scalar word or long form for
up to 64 bits, a lane word for 96; operand words past nbits are zero. -/
noncomputable def decodeTableWord (nbits w : Nat) : Option Instr :=
  if nbits = 96 then decodeLane (BitVec.ofNat 96 w)
  else decodeScalar (BitVec.ofNat 32 w) (BitVec.ofNat 32 (w >>> 32))

/-! ### The encoder -/

/-- The fields of a scalar instruction's first word (R43 to R46 and the entries). -/
def encFields : Instr → Option SWord
  | .add d a b => some ⟨0x01, d, a, b, 0x00⟩
  | .sub d a b => some ⟨0x01, d, a, b, 0x01⟩
  | .mul d a b => some ⟨0x01, d, a, b, 0x02⟩
  | .mulh d a b => some ⟨0x01, d, a, b, 0x03⟩
  | .mulhz d a b => some ⟨0x01, d, a, b, 0x04⟩
  | .div d a b => some ⟨0x01, d, a, b, 0x05⟩
  | .divz d a b => some ⟨0x01, d, a, b, 0x06⟩
  | .rem d a b => some ⟨0x01, d, a, b, 0x07⟩
  | .remz d a b => some ⟨0x01, d, a, b, 0x08⟩
  | .min d a b => some ⟨0x01, d, a, b, 0x09⟩
  | .max d a b => some ⟨0x01, d, a, b, 0x0A⟩
  | .minz d a b => some ⟨0x01, d, a, b, 0x0B⟩
  | .maxz d a b => some ⟨0x01, d, a, b, 0x0C⟩
  | .addSat d a b => some ⟨0x01, d, a, b, 0x0D⟩
  | .subSat d a b => some ⟨0x01, d, a, b, 0x0E⟩
  | .addzSat d a b => some ⟨0x01, d, a, b, 0x0F⟩
  | .subzSat d a b => some ⟨0x01, d, a, b, 0x10⟩
  | .and d a b => some ⟨0x01, d, a, b, 0x11⟩
  | .or d a b => some ⟨0x01, d, a, b, 0x12⟩
  | .xor d a b => some ⟨0x01, d, a, b, 0x13⟩
  | .andn d a b => some ⟨0x01, d, a, b, 0x14⟩
  | .shl d a b => some ⟨0x01, d, a, b, 0x15⟩
  | .shr d a b => some ⟨0x01, d, a, b, 0x16⟩
  | .sar d a b => some ⟨0x01, d, a, b, 0x17⟩
  | .rol d a b => some ⟨0x01, d, a, b, 0x18⟩
  | .popc d a => some ⟨0x01, d, a, 0, 0x19⟩
  | .clz d a => some ⟨0x01, d, a, 0, 0x1A⟩
  | .ctz d a => some ⟨0x01, d, a, 0, 0x1B⟩
  | .addW d a b => some ⟨0x01, d, a, b, 0x20⟩
  | .subW d a b => some ⟨0x01, d, a, b, 0x21⟩
  | .mulW d a b => some ⟨0x01, d, a, b, 0x22⟩
  | .mulhW d a b => some ⟨0x01, d, a, b, 0x23⟩
  | .mulhzW d a b => some ⟨0x01, d, a, b, 0x24⟩
  | .divW d a b => some ⟨0x01, d, a, b, 0x25⟩
  | .divzW d a b => some ⟨0x01, d, a, b, 0x26⟩
  | .remW d a b => some ⟨0x01, d, a, b, 0x27⟩
  | .remzW d a b => some ⟨0x01, d, a, b, 0x28⟩
  | .minW d a b => some ⟨0x01, d, a, b, 0x29⟩
  | .maxW d a b => some ⟨0x01, d, a, b, 0x2A⟩
  | .minzW d a b => some ⟨0x01, d, a, b, 0x2B⟩
  | .maxzW d a b => some ⟨0x01, d, a, b, 0x2C⟩
  | .addSatW d a b => some ⟨0x01, d, a, b, 0x2D⟩
  | .subSatW d a b => some ⟨0x01, d, a, b, 0x2E⟩
  | .addzSatW d a b => some ⟨0x01, d, a, b, 0x2F⟩
  | .subzSatW d a b => some ⟨0x01, d, a, b, 0x30⟩
  | .andW d a b => some ⟨0x01, d, a, b, 0x31⟩
  | .orW d a b => some ⟨0x01, d, a, b, 0x32⟩
  | .xorW d a b => some ⟨0x01, d, a, b, 0x33⟩
  | .andnW d a b => some ⟨0x01, d, a, b, 0x34⟩
  | .shlW d a b => some ⟨0x01, d, a, b, 0x35⟩
  | .shrW d a b => some ⟨0x01, d, a, b, 0x36⟩
  | .sarW d a b => some ⟨0x01, d, a, b, 0x37⟩
  | .rolW d a b => some ⟨0x01, d, a, b, 0x38⟩
  | .popcW d a => some ⟨0x01, d, a, 0, 0x39⟩
  | .clzW d a => some ⟨0x01, d, a, 0, 0x3A⟩
  | .ctzW d a => some ⟨0x01, d, a, 0, 0x3B⟩
  | .faddF64 d a b => some ⟨0x01, d, a, b, 0x40⟩
  | .fsubF64 d a b => some ⟨0x01, d, a, b, 0x41⟩
  | .fmulF64 d a b => some ⟨0x01, d, a, b, 0x42⟩
  | .fdivF64 d a b => some ⟨0x01, d, a, b, 0x43⟩
  | .fsqrtF64 d a => some ⟨0x01, d, a, 0, 0x44⟩
  | .fminF64 d a b => some ⟨0x01, d, a, b, 0x45⟩
  | .fmaxF64 d a b => some ⟨0x01, d, a, b, 0x46⟩
  | .ffmaF64 d a b => some ⟨0x01, d, a, b, 0x47⟩
  | .fcvtF64S64 d a => some ⟨0x01, d, a, 0, 0x48⟩
  | .fcvtF64Z64 d a => some ⟨0x01, d, a, 0, 0x49⟩
  | .fcvtS64F64 d a => some ⟨0x01, d, a, 0, 0x4A⟩
  | .fcvtZ64F64 d a => some ⟨0x01, d, a, 0, 0x4B⟩
  | .fcvtF64F32 d a => some ⟨0x01, d, a, 0, 0x4C⟩
  | .fabsF64 d a => some ⟨0x01, d, a, 0, 0x4D⟩
  | .fnegF64 d a => some ⟨0x01, d, a, 0, 0x4E⟩
  | .faddF32 d a b => some ⟨0x01, d, a, b, 0x50⟩
  | .fsubF32 d a b => some ⟨0x01, d, a, b, 0x51⟩
  | .fmulF32 d a b => some ⟨0x01, d, a, b, 0x52⟩
  | .fdivF32 d a b => some ⟨0x01, d, a, b, 0x53⟩
  | .fsqrtF32 d a => some ⟨0x01, d, a, 0, 0x54⟩
  | .fminF32 d a b => some ⟨0x01, d, a, b, 0x55⟩
  | .fmaxF32 d a b => some ⟨0x01, d, a, b, 0x56⟩
  | .ffmaF32 d a b => some ⟨0x01, d, a, b, 0x57⟩
  | .fcvtF32S64 d a => some ⟨0x01, d, a, 0, 0x58⟩
  | .fcvtF32Z64 d a => some ⟨0x01, d, a, 0, 0x59⟩
  | .fcvtS64F32 d a => some ⟨0x01, d, a, 0, 0x5A⟩
  | .fcvtZ64F32 d a => some ⟨0x01, d, a, 0, 0x5B⟩
  | .fcvtF32F64 d a => some ⟨0x01, d, a, 0, 0x5C⟩
  | .fabsF32 d a => some ⟨0x01, d, a, 0, 0x5D⟩
  | .fnegF32 d a => some ⟨0x01, d, a, 0, 0x5E⟩
  | .addi d a i => some ⟨0x02, d, a, i.extractLsb' 8 6, i.extractLsb' 0 8⟩
  | .andi d a i => some ⟨0x03, d, a, i.extractLsb' 8 6, i.extractLsb' 0 8⟩
  | .ori d a i => some ⟨0x04, d, a, i.extractLsb' 8 6, i.extractLsb' 0 8⟩
  | .xori d a i => some ⟨0x05, d, a, i.extractLsb' 8 6, i.extractLsb' 0 8⟩
  | .shli d a n => some ⟨0x06, d, a, 0x00, 0#2 ++ n⟩
  | .shliW d a n => some ⟨0x06, d, a, 0x00, 2#3 ++ n⟩
  | .shri d a n => some ⟨0x06, d, a, 0x10, 0#2 ++ n⟩
  | .shriW d a n => some ⟨0x06, d, a, 0x10, 2#3 ++ n⟩
  | .sari d a n => some ⟨0x06, d, a, 0x20, 0#2 ++ n⟩
  | .sariW d a n => some ⟨0x06, d, a, 0x20, 2#3 ++ n⟩
  | .roli d a n => some ⟨0x06, d, a, 0x30, 0#2 ++ n⟩
  | .roliW d a n => some ⟨0x06, d, a, 0x30, 2#3 ++ n⟩
  | .li d i => some ⟨0x07, d, i.extractLsb' 14 6, i.extractLsb' 8 6, i.extractLsb' 0 8⟩
  | .liW d _ => some ⟨0x3E, d, 0, 0x03, 0x00⟩
  | .liWz d _ => some ⟨0x3E, d, 0, 0x03, 0x01⟩
  | .liWh d _ => some ⟨0x3E, d, 0, 0x03, 0x02⟩
  | .cmp d a b c => some ⟨0x08, up4 d, a, b, 0#4 ++ c⟩
  | .cmpF64 d a b c => some ⟨0x08, up4 d, a, b, 2#5 ++ c⟩
  | .cmpF32 d a b c => some ⟨0x08, up4 d, a, b, 3#5 ++ c⟩
  | .cmpi d a c i => some ⟨0x09, up4 d, a, c ++ i.extractLsb' 8 2, i.extractLsb' 0 8⟩
  | .predAnd d a b => some ⟨0x0A, up4 d, up4 a, up4 b, 0x00⟩
  | .predOr d a b => some ⟨0x0A, up4 d, up4 a, up4 b, 0x01⟩
  | .predXor d a b => some ⟨0x0A, up4 d, up4 a, up4 b, 0x02⟩
  | .predAndn d a b => some ⟨0x0A, up4 d, up4 a, up4 b, 0x03⟩
  | .predOrn d a b => some ⟨0x0A, up4 d, up4 a, up4 b, 0x04⟩
  | .predNand d a b => some ⟨0x0A, up4 d, up4 a, up4 b, 0x05⟩
  | .predNor d a b => some ⟨0x0A, up4 d, up4 a, up4 b, 0x06⟩
  | .predXnor d a b => some ⟨0x0A, up4 d, up4 a, up4 b, 0x07⟩
  | .predMov d a => some ⟨0x0A, up4 d, up4 a, 0, 0x08⟩
  | .predNot d a => some ⟨0x0A, up4 d, up4 a, 0, 0x09⟩
  | .predSet d => some ⟨0x0A, up4 d, 0, 0, 0x0A⟩
  | .predClr d => some ⟨0x0A, up4 d, 0, 0, 0x0B⟩
  | .predNz d a => some ⟨0x0A, up4 d, a, 0, 0x10⟩
  | .predGet d a => some ⟨0x0A, d, up4 a, 0, 0x11⟩
  | .bra c n o => some ⟨0x0B, c ++ n ++ o.extractLsb' 20 1, o.extractLsb' 14 6, o.extractLsb' 8 6, o.extractLsb' 0 8⟩
  | .call c n o => some ⟨0x0C, c ++ n ++ o.extractLsb' 20 1, o.extractLsb' 14 6, o.extractLsb' 8 6, o.extractLsb' 0 8⟩
  | .jr a n c => some ⟨0x0D, 0, a, 0#1 ++ n ++ c, 0x00⟩
  | .ret n c => some ⟨0x0D, 0, 0, 0#1 ++ n ++ c, 0x01⟩
  | .calli d a n c => some ⟨0x0D, d, a, 0#1 ++ n ++ c, 0x02⟩
  | .loop d i => some ⟨0x0E, d, 0, i.extractLsb' 8 6, i.extractLsb' 0 8⟩
  | .lrun i => some ⟨0x12, 0, 0, i.extractLsb' 8 6, i.extractLsb' 0 8⟩
  | .lrunFar _ => some ⟨0x3E, 0, 0, 0x04, 0x00⟩
  | .lrunFarReg a _ => some ⟨0x3E, 0, a, 0x04, 0x01⟩
  | .lsnap a k => some ⟨0x13, 0, a, 0, 0#4 ++ k⟩
  | .lsnapPair a b k => some ⟨0x13, 0, a, b, 1#4 ++ k⟩
  | .lwait => some ⟨0x14, 0, 0, 0, 0x00⟩
  | .lwaitLe n => some ⟨0x14, 0, 0, up4 n, 0x01⟩
  | .xrd d s => some ⟨0x15, d, 0, s.extractLsb' 8 6, s.extractLsb' 0 8⟩
  | .xwr a s => some ⟨0x16, 0, a, s.extractLsb' 8 6, s.extractLsb' 0 8⟩
  | .nop => some ⟨0x17, 0, 0, 0, 0x00⟩
  | .trap c => some ⟨0x17, 0, 0#4 ++ c.extractLsb' 6 2, c.extractLsb' 0 6, 0x01⟩
  | .brk => some ⟨0x17, 0, 0, 0, 0x02⟩
  | .yield => some ⟨0x17, 0, 0, 0, 0x03⟩
  | .exit => some ⟨0x17, 0, 0, 0, 0x04⟩
  | .resume => some ⟨0x17, 0, 0, 0, 0x05⟩
  | .spawnTry c a b => some ⟨0x20, up4 c, a, b, 0x00⟩
  | .graft a => some ⟨0x24, 0, a, 0, 0x00⟩
  | .ld d a w o => some ⟨0x0F, d, a, 0#1 ++ w ++ o.extractLsb' 8 2, o.extractLsb' 0 8⟩
  | .ldRo d a w o => some ⟨0x0F, d, a, 1#1 ++ w ++ o.extractLsb' 8 2, o.extractLsb' 0 8⟩
  | .st d a w o => some ⟨0x10, d, a, w ++ o.extractLsb' 8 4, o.extractLsb' 0 8⟩
  | .amo d a b o w s => some ⟨0x11, d, a, b, o ++ w ++ s⟩
  | .fence o s => some ⟨0x18, 0, 0, 0, 0#3 ++ o ++ s⟩
  | .ewait n c => some ⟨0x19, 0, n.extractLsb' 6 6, n.extractLsb' 0 6, 0#5 ++ c⟩
  | .cpIssue d a => some ⟨0x1A, d, upQ a, 0, 0x00⟩
  | .cpIssueBar d a b => some ⟨0x1A, d, upQ a, 1#1 ++ b, 0x00⟩
  | .cpIssueRing d a => some ⟨0x1A, d, upQ a, 0, 0x01⟩
  | .cpYield d _ => some ⟨0x3E, d, 0, 0x02, 0x00⟩
  | .hBind d a c => some ⟨0x1B, d, a, up4 c, 0x00⟩
  | .hUnbind d => some ⟨0x1B, d, 0, 0, 0x01⟩
  | .hClaim d => some ⟨0x1B, d, 0, 0, 0x02⟩
  | .hRelease d => some ⟨0x1B, d, 0, 0, 0x03⟩
  | .hWait d => some ⟨0x1B, d, 0, 0, 0x04⟩
  | .hTry d c => some ⟨0x1B, d, 0, up4 c, 0x05⟩
  | .hState d a => some ⟨0x1B, d, a, 0, 0x06⟩
  | .hRclaim a => some ⟨0x1B, 0, a, 0, 0x08⟩
  | .hRadv d a => some ⟨0x1B, d, a, 0, 0x09⟩
  | .barAlloc c a b => some ⟨0x1C, up4 c, a, up5 b, 0x00⟩
  | .barMark b => some ⟨0x1C, 0, 0, up5 b, 0x01⟩
  | .barMeet b => some ⟨0x1C, 0, 0, up5 b, 0x02⟩
  | .barHold p b => some ⟨0x1C, 0, 0#5 ++ p, up5 b, 0x03⟩
  | .barPend a b => some ⟨0x1C, 0, a, up5 b, 0x04⟩
  | .barFree b => some ⟨0x1C, 0, 0, up5 b, 0x05⟩
  | .barPhase d b => some ⟨0x1C, d, 0, up5 b, 0x06⟩
  | .qPush a b s => some ⟨0x1F, 0, a, b, 0#5 ++ s⟩
  | .qPop d a s => some ⟨0x1F, d, a, 0, 1#5 ++ s⟩
  | .qPushTry c a b s => some ⟨0x1F, up4 c, a, b, 2#5 ++ s⟩
  | .qPopTry d a c s => some ⟨0x1F, d, a, up4 c, 3#5 ++ s⟩
  | .cmoWb a b s => some ⟨0x26, 0, a, b, 0#5 ++ s⟩
  | .cmoWbinv a b s => some ⟨0x26, 0, a, b, 1#5 ++ s⟩
  | .cmoInv a b s => some ⟨0x26, 0, a, b, 2#5 ++ s⟩
  | .cmoIinv a b s => some ⟨0x26, 0, a, b, 3#5 ++ s⟩
  | .cmoRodrop a b s => some ⟨0x26, 0, a, b, 4#5 ++ s⟩
  | .matWload a b => some ⟨0x1D, 0, a, b, 0x00⟩
  | .matTokenTake => some ⟨0x1D, 0, 0, 0, 0x08⟩
  | .matTokenPass => some ⟨0x1D, 0, 0, 0, 0x09⟩
  | .matTokenQuery c => some ⟨0x1D, up4 c, 0, 0, 0x0A⟩
  | .accAlloc d n => some ⟨0x1D, up4 d, 0, up5 n, 0x10⟩
  | .accFree d n => some ⟨0x1D, up4 d, 0, up5 n, 0x11⟩
  | .matZeroFx d a => some ⟨0x1D, up4 d, a, 0, 0x18⟩
  | .matZeroFp d => some ⟨0x1D, up4 d, 0, 0, 0x19⟩
  | .matDrain d a b => some ⟨0x1D, up4 d, a, b, 0x20⟩
  | .mloop d a rm fmt f _ => some ⟨0x3E, up4 d, a, 0x01, rm ++ fmt ++ f⟩
  | .spTload t a => some ⟨0x1E, up3 t, a, 0, 0x00⟩
  | .spTstat d t => some ⟨0x1E, d, 0, up3 t, 0x01⟩
  | .spPart d a b => some ⟨0x1E, upQ d, a, b, 0x08⟩
  | .spTmul d a t r => some ⟨0x1E, up4 d, a, up3 t, 4#5 ++ r⟩
  | .irBegin a b => some ⟨0x25, 0, a, b, 0x00⟩
  | .irEnd => some ⟨0x25, 0, 0, 0, 0x01⟩
  | .tabLoad c a b => some ⟨0x27, up4 c, a, 0, 0#7 ++ b⟩
  | .slcExtend c a => some ⟨0x21, up4 c, a, 0, 0x00⟩
  | .slcAbort => some ⟨0x21, 0, 0, 0, 0x01⟩
  | .slcQfree d a => some ⟨0x21, d, a, 0, 0x02⟩
  | .detDigest d a => some ⟨0x28, upQ d, a, 0, 0x00⟩
  | .detOut a b => some ⟨0x28, 0, a, b, 0x01⟩
  | .detFlush d => some ⟨0x28, d, 0, 0, 0x02⟩
  | .detSync => some ⟨0x28, 0, 0, 0, 0x03⟩
  | .fxPut a => some ⟨0x22, 0, upQ a, 0, 0x00⟩
  | .fxPutSet a b => some ⟨0x22, 0, upQ a, b, 0x01⟩
  | .fxPutAdd a b => some ⟨0x22, 0, upQ a, b, 0x02⟩
  | .fxGet a => some ⟨0x22, 0, upQ a, 0, 0x04⟩
  | .fxSignalSet a b => some ⟨0x22, 0, a, b, 0x08⟩
  | .fxSignalAdd a b => some ⟨0x22, 0, a, b, 0x09⟩
  | .fxWait a b => some ⟨0x22, 0, a, b, 0x0C⟩
  | .fxWaitTry c a b => some ⟨0x22, up4 c, a, b, 0x0D⟩
  | .fxReduce a => some ⟨0x22, 0, upQ a, 0, 0x10⟩
  | .svLu a => some ⟨0x23, 0, a, 0, 0x00⟩
  | .svChol a => some ⟨0x23, 0, a, 0, 0x01⟩
  | .svTrs a => some ⟨0x23, 0, a, 0, 0x02⟩
  | .svRef a => some ⟨0x23, 0, a, 0, 0x03⟩
  | .svStat d => some ⟨0x23, d, 0, 0, 0x04⟩
  | _ => none

/-- The immediate word of a long form (R45). -/
def encImm : Instr → List W32
  | .liW _ i => [i]
  | .liWz _ i => [i]
  | .liWh _ i => [i]
  | .lrunFar i => [i]
  | .lrunFarReg _ i => [i]
  | .cpYield _ i => [i]
  | .mloop _ _ _ _ _ i => [i]
  | _ => []

/-- A half of a pair word (R57). -/
def joinHalf (h : PairHalf) : BitVec 47 := h.hopc ++ h.ty3 ++ h.d ++ h.a ++ h.b ++ h.pred

/-- A single-form or immediate-form word with an opcode (R48, R56). -/
def joinLane (opc : BitVec 10) (w : LaneWord) : W96 :=
  (if w.imm then 2#2 else 0#2) ++ opc ++ w.ty ++ w.d ++ w.nw ++ w.a ++ w.b ++ w.c ++ w.pred ++ w.pn ++ w.u ++
    w.rm ++ w.md ++ w.x

/-- The 96-bit word of a lane instruction. -/
def encLane : Instr → Option W96
  | .lanePairWord p q => some (1#2 ++ joinHalf p ++ joinHalf q)
  | i => match laneFmt i with
    | some (f, w) => some (joinLane (BitVec.ofNat 10 f.opc) w)
    | none => none

/-- Cut a lane word into its three stored words, the low one first (R42). -/
def laneWords (v : W96) : List W32 := [v.extractLsb' 0 32, v.extractLsb' 32 32, v.extractLsb' 64 32]

/-- The words of an instruction in the order they are stored; none for a step of the device. -/
def encode (i : Instr) : List W32 :=
  match encFields i with
  | some q => joinS q :: encImm i
  | none => match encLane i with
    | some v => laneWords v
    | none => []

end Sys2Proof
end

