-- ==== Sys2Proof/Config.lean ====
section
/-! DEFINITION. What the spec leaves open as a value: constants without a body, and the security functions
whose algorithms it does not give. -/

namespace Sys2Proof.Config

/-- The n-th free value: a word the spec does not state.
(DESIGN CHOICE, safe: notes/assumptions/2.md) -/
opaque freeWord : Nat → W64

/-- ML-DSA-65 verification of a signature over a message under a public key (R359).
(DESIGN CHOICE, safe: notes/assumptions/3.md) -/
opaque mldsaVerify : (key message signature : List Byte) → Bool

/-- The ML-DSA-65 signature of a message by the device identity key (R360, R361).
(DESIGN CHOICE, safe: notes/assumptions/3.md) -/
opaque mldsaSign : (message : List Byte) → List Byte

/-- The key digest fused at manufacture (R359). (DESIGN CHOICE, safe: notes/assumptions/3.md) -/
opaque fusedKeyDigest : List Byte

/-- The fused minimum security version (R359). (DESIGN CHOICE, safe: notes/assumptions/3.md) -/
opaque fusedSvn : Nat

/-- The minimum security version that an accepted image asks the security processor to write, 0 for none: R359 does not say
where in the image the request stands. (DESIGN CHOICE, safe: notes/assumptions/3.md) -/
opaque svnRequest : (image : List Byte) → Nat

/-- The fixed-point quotient of a dividend by zero in the solve unit, which R331 leaves open.
(DESIGN CHOICE, safe: notes/assumptions/16.md) -/
opaque fixDivZero : W32 → W32

/-- The element that an exchange with a row past the end of the system yields (R337), by step and row.
(DESIGN CHOICE, safe: notes/assumptions/16.md) -/
opaque rowOutside : Nat → Nat → W64

end Sys2Proof.Config
end

