-- ==== Sys2Proof/Machine/State.lean ====
section
/-! DEFINITION. The state of the LSX-9210 as plain data, the state after reset, and the reasons a step stops. -/

namespace Sys2Proof.Machine

/-! ### The lane stream of a crew -/

/-- One entry of a slice's mask stack (R25, R156); lane sets are four-bit masks within the slice. -/
structure MaskEntry where
  join : W64
  fall : W64
  rest : Nat
  restore : Nat
  phase : Bool
  deriving DecidableEq, Repr

/-- One slice in a run: its current mask, its mask stack, and whether it is live (R22 to R25). -/
structure SliceSt where
  mask : Nat
  stack : List MaskEntry
  live : Bool
  deriving DecidableEq, Repr

/-- What a gang is blocked in, if anything: the arrivals at regang and vedge (R24, R149), refinement (R251), with its
instruction and the pages of spilled nodes that were answered with fail, a wait for the crew's own outstanding operations
or for a flush, a fault that has parked the crew, or nothing. -/
inductive GangWait where
  | ready
  | regang
  | vedge
  | refine (w : LaneWord) (failed : List Nat)
  | stall
  | flush (interval : Nat)
  | released (clock : Nat)
  | parked
  deriving DecidableEq, Repr

/-- Slices that issue together (R22). -/
structure Gang where
  pc : W64
  members : List Nat
  wait : GangWait
  deriving DecidableEq, Repr

/-- A run on a run queue: what R110 fixes at enqueue, its place among the crew's runs of its queue, whether it
is a handler's run, and whether it was enqueued in an idempotent region. (DESIGN CHOICE, unsafe: notes/assumptions/10.md) -/
structure QRun where
  target : W64
  snaps : SMap W64
  rm : Nat
  fmte : Bool
  rseed : W64
  seq : Nat
  handler : Bool
  region : Bool
  deriving DecidableEq, Repr

/-- An executing or suspended run (R111): gangs in issue rotation, the head issuing next. -/
structure ARun where
  run : QRun
  gangs : List Gang
  slices : List SliceSt
  flags : BitVec 10
  yielded : Bool
  deriving DecidableEq, Repr

/-- The lane registers, predicates, latches and counters of a crew. Lane l of register v is entry 32v + l;
predicate p is a 32-bit mask; latch b of lane l is entry 4l + b and is listed while valid. parity lists register
entries that a soft error has left with a parity error (R362). -/
structure LaneRegs where
  vregs : SMap W32
  htags : SMap Bool
  preds : SMap W32
  vrand : SMap W64
  latches : SMap (Option W64)
  ew : W64
  ee : W64
  parity : List Nat
  deriving DecidableEq, Repr

/-- A delivery of a vedge still to be made (R149, R150): the crew it goes to, the value, and the deterministic interval
it was sent in. -/
structure EdgeOut where
  dest : CrewKey
  val : W64
  interval : Nat
  deriving DecidableEq, Repr

/-- The vedge exchange of a crew (R149, R150): completed exchanges; staging slots, each with the deterministic interval
its value was sent in; the deliveries still to be made on each side, oldest first; whether this exchange's own values
have been sent, and those values; the boundary rule and scope; and the operand and width that the instruction names. -/
structure EdgeSt where
  n : Nat
  stageW : Option (W64 × Nat)
  stageE : Option (W64 × Nat)
  outW : List EdgeOut
  outE : List EdgeOut
  sent : Bool
  ownW : W64
  ownE : W64
  bound : Nat
  grid : Bool
  src : Nat
  wide : Bool
  deriving DecidableEq, Repr

/-- The flags of a complete run that no wait has covered yet (R85, R113). -/
structure HeldFlags where
  seq : Nat
  handler : Bool
  flags : BitVec 10
  deriving DecidableEq, Repr

/-- The lane stream: the run executing, the run queue, the handler queue, the run a trap suspended, the
numbers of the next run of each queue, and the flags of complete runs not yet delivered into astat (R85). -/
structure LaneSt where
  cur : Option ARun
  queue : List QRun
  hqueue : List QRun
  hcur : Option ARun
  nextSeq : Nat
  nextHSeq : Nat
  held : List HeldFlags
  regs : LaneRegs
  edge : EdgeSt
  deriving DecidableEq, Repr

/-! ### Operations in flight -/

/-- Where a checked and translated access goes: device or host memory, the team's scratchpad, cluster
scratchpad, a remote peer, or a device-control register. -/
inductive Loc where
  | phys (pa : Nat) (coh : Nat)
  | spad (off : Nat)
  | cspad (cluster off : Nat)
  | remote (peer : Nat) (va : Nat)
  | dctl (off : Nat)
  deriving DecidableEq, Repr

/-- The seven counted classes of R182. -/
inductive OpClass where
  | load | store | copy | matrix | gather | scatter | fabric
  deriving DecidableEq, Repr

/-- An atomic operation awaiting its execution (R193, R196): operation code, size in bytes, place, operand
and compare value, the lane (32: the scalar stream), the destination, and the scope it acquires at, 0 for none. -/
structure AmoOp where
  op : Nat
  n : Nat
  va : W64
  loc : Loc
  b : W64
  cmp : W64
  lane : Nat
  dest : Nat
  acq : Nat
  deriving DecidableEq, Repr

/-- One scatter-add contribution (R195). -/
structure ScatAdd where
  va : W64
  loc : Loc
  ty : Ty
  rm : Nat
  val : W64
  lane : Nat
  deriving DecidableEq, Repr

/-- A copy command (R200): pointers, rows, row length, strides, handle, barrier if any, and, once its bytes are
moved, the lines written, for whose page-table acknowledgements it waits (R281). -/
structure CopyOp where
  src : W64
  dst : W64
  rows : Nat
  len : Nat
  sstride : Int
  dstride : Int
  handle : Nat
  bar : Option Nat
  moved : Option (List Nat)
  deriving DecidableEq, Repr

/-- An mloop handed to the engine (R225 to R227): steps done of count, and the flags raised so far. aptr is a
scratchpad offset. (DESIGN CHOICE, unsafe: notes/assumptions/10.md) -/
structure MloopOp where
  bank : Nat
  fmt : Nat
  f : Nat
  rm : Nat
  aptr : Nat
  ainc : Int
  astride : Nat
  jb : Nat
  kb : Nat
  woff : Nat
  handle : Option Nat
  count : Nat
  done : Nat
  flags : BitVec 10
  fmte : Bool
  deriving DecidableEq, Repr

/-- A drain (R229). -/
structure DrainOp where
  bank : Nat
  dst : Nat
  dstride : Nat
  ofmt : Nat
  rm : Nat
  rezero : Bool
  deriving DecidableEq, Repr

/-- A tile register binding (R265, R271): header address and generation, element format, path, element count,
micro-operation count, and whether the load hit. -/
structure Tile where
  addr : W64
  gen : W32
  efmt : Nat
  path : Nat
  nnz : Nat
  u : Nat
  hit : Bool
  deriving DecidableEq, Repr

/-- A sparse tile product (R269), with the binding its tile register had at issue.
(DESIGN CHOICE, unsafe: notes/assumptions/10.md) -/
structure TmulOp where
  bank : Nat
  tile : Nat
  bind : Tile
  dptr : Nat
  dstride : Nat
  rm : Nat
  fmte : Bool
  deriving DecidableEq, Repr

/-- A fabric transfer or signal (R345 to R347): local pointer, remote pointer, length, and the signal: its remote
word, its value, and whether it adds; runs of its stream, the handler's or the crew's own, enqueued before number `before`
and Sieve entries before place `order` precede a signal. -/
structure FabOp where
  isGet : Bool
  localPtr : W64
  remotePtr : W64
  len : Nat
  signal : Option (W64 × W64 × Bool)
  before : Nat
  handler : Bool
  order : Nat
  deriving DecidableEq, Repr

/-- A reduction this device takes part in (R349, R350). -/
structure ReduceOp where
  planid : W64
  epoch : W64
  p : Nat
  ty : Nat
  op : Nat
  count : Nat
  rank : Nat
  peers : List Nat
  out : W64
  deriving DecidableEq, Repr

/-- What an access through aperture 0x3 does at the peer (R188): a read of n bytes, a write, or an atomic
operation of R193 on n bytes. -/
inductive RemKind where
  | read (n : Nat)
  | write (data : List Byte)
  | amo (op n : Nat) (b cmp : W64)
  deriving DecidableEq, Repr

/-- One access through aperture 0x3: its pointer, what it does, and the lane it serves (32: the scalar
stream). -/
structure RemAcc where
  ptr : W64
  kind : RemKind
  lane : Nat
  deriving DecidableEq, Repr

/-- What a peer answers: the bytes read, those of the first n accesses while others are still to be performed, or trap.info
of 0x17 for accesses that could not be completed (R352). -/
inductive Reply where
  | data (b : List Byte)
  | part (n : Nat) (b : List Byte)
  | failed (info : W64)
  deriving DecidableEq, Repr

/-- What an operation in flight still has to do. A store or scatter lists the places it went to. A vamo whose d is 1024
writes no register back. peerAmo is an atomic or a scatter-add that flush k has sent to a peer; d is 1025 for a
scatter-add (R184, R316). ended has nothing left to do but to complete in its turn (R182). -/
inductive OpKind where
  | load (dest : Nat) (val : W64) (bad : Bool) (va : W64)
  | part (dest : Nat) (ptr : W64) (m p share : Nat) (parked : Bool)
  | laneLoad (writes : List (Nat × W32))
  | store (l : List Loc)
  | amo (a : AmoOp)
  | vamo (l : List AmoOp) (d : Nat)
  | gather (writes : List (Nat × W32))
  | scatter (l : List Loc)
  | scatAdd (l : List ScatAdd)
  | copy (c : CopyOp)
  | wload (src : W64) (woff hdr len : Nat)
  | mloop (m : MloopOp)
  | mzero (bank : Nat) (g : Option Int)
  | mdrain (d : DrainOp)
  | tmul (t : TmulOp)
  | tload (addr : W64) (gen : W32)
  | fabric (f : FabOp)
  | remote (lane : Bool) (l : List RemAcc) (got : Option Reply)
  | peerAmo (k : Nat) (x : RemAcc) (a : AmoOp) (d : Nat)
  | ended
  | reduce (r : ReduceOp)
  deriving DecidableEq, Repr

/-- An operation in flight: its counter class, what it does, the virtual pages it uses (for acknowledgements, R280), whether
it was issued in an idempotent region, whether it is held until the answer to a fault comes (R284) or a page has collapsed
(R290) and, while it is, whether for the collapse, and its place among the crew's Sieve entries in issue order: it is older
than an entry whose order is not below its own. -/
structure Op where
  cls : OpClass
  kind : OpKind
  pages : List Nat
  region : Bool
  held : Bool
  collapse : Bool
  order : Nat
  deriving DecidableEq, Repr

/-- A held Sieve operation (R316). -/
inductive SieveKind where
  | amo (a : AmoOp)
  | vamo (a : AmoOp) (d : Nat)
  | add (a : ScatAdd)
  | push (q : Nat) (v : W64)
  | pop (q dest pred scope : Nat)
  deriving DecidableEq, Repr

/-- A Sieve entry with its key within the crew: flush index, lane, issue order (R316). -/
structure SieveEntry where
  flush : Nat
  lane : Nat
  order : Nat
  kind : SieveKind
  deriving DecidableEq, Repr

/-! ### Traps, waits and the scalar stream -/

/-- When a pending deferred trap falls due (R370); resumed: at the boundary that resume returns to, after another trap
was taken there; entry: no deferred trap but the trap of an instruction, whose entry waits for the returning values (R97),
with what is to stand in trap.lpc and trap.mask, the slices of the issuing gang, and whether it is a lane trap. -/
inductive Due where
  | now
  | entry (lpc mask : W64) (slices : List Nat) (lane : Bool)
  | resumed
  | touch (regs : List Nat)
  | handle (h : Nat)
  | matrix
  | fabric
  | sieve
  deriving DecidableEq, Repr

/-- A pending deferred trap; the list that holds it is in the order the errors arose. -/
structure PTrap where
  cause : Nat
  info : W64
  due : Due
  deriving DecidableEq, Repr

/-- What a blocked scalar instruction waits for. ahead of a bar.meet counts the phases to complete before the one it arrived
in; token and acc name the interval of the request (R319); released and detSync name the deterministic interval whose flush
ends the wait, the first completing the instruction and the second letting it go on. -/
inductive Wait where
  | none
  | other
  | handleFree (h : Nat)
  | handleFull (h : Nat) (claims : Bool) (ph : Option Bool)
  | cpYield (h : Nat) (target : W64)
  | barMeet (b ahead : Nat)
  | barHold (b : Nat)
  | qPush (q : Nat)
  | qPop (q : Nat)
  | token (i : Nat)
  | acc (first n i : Nat)
  | graft (hint : W64)
  | lanes
  | detSync (interval : Nat)
  | solve
  | cmo
  | remote
  | released (clock : Nat)
  deriving DecidableEq, Repr

/-- A crew parked on a translation fault (R284): the merge table (a cluster, or 64 for the I/O die) and
entry it waits in, whether its lane stream faulted, whether the fetch of an instruction faulted, the faulting
address and kind, and the active lanes of the faulting lane instruction. -/
structure Park where
  table : Nat
  entry : Nat
  lane : Bool
  fetch : Bool
  va : W64
  kind : Nat
  mask : Nat
  deriving DecidableEq, Repr

/-- The trap registers of R115. -/
structure TrapRegs where
  cause : W64
  pc : W64
  lpc : W64
  mask : W64
  info : W64
  deriving DecidableEq, Repr

/-- The handler state (R293, R294): the slices of the gang that trapped, and whether a lane trap is
being handled. -/
structure Handler where
  slices : List Nat
  laneTrap : Bool
  deriving DecidableEq, Repr

/-- An open idempotent region (R272 to R274): its live-ins, the address of its ir.begin, the clock there, the units
the crew has been charged since, and the number of its first run. -/
structure Region where
  mask : W64
  lo : Nat
  n : Nat
  pc : W64
  clock : Nat
  charged : Nat
  firstRun : Nat
  deriving DecidableEq, Repr

/-- The scalar stream of a crew (R97, R115). c0 reads true whatever bit 0 of preds holds. parity lists the registers
that a soft error has left with a parity error (R362). -/
structure ScalarSt where
  regs : SMap W64
  preds : BitVec 16
  pc : W64
  astat : BitVec 10
  fmte : Bool
  rmdef : Nat
  rseed : W64
  snaps : SMap W64
  trap : TrapRegs
  parity : List Nat
  deriving DecidableEq, Repr

/-- A solve command in progress (R332, R333, R340). -/
structure SolveCmd where
  ins : Nat
  mptr : W64
  mstride : Nat
  count : Nat
  tol : Nat
  frac : Nat
  warm : Bool
  arith : Nat
  nrhs : Nat
  n : Nat
  next : Nat
  sumOr : Nat
  sumFirst : Nat
  sumBad : Nat
  unfinished : Nat
  firstUn : Nat
  deriving DecidableEq, Repr

/-- A cache-maintenance operation in progress (R213). -/
structure CmoCmd where
  op : Nat
  scope : Nat
  start : W64
  len : Nat
  deriving DecidableEq, Repr

/-- KIND of an accumulator bank (R216). -/
inductive BankKind where
  | fp | fx
  deriving DecidableEq, Repr

/-- An accumulator bank (R216). -/
structure Bank where
  kind : BankKind
  g : Int
  shape : Option Nat
  rflag : Nat
  cflag : Nat
  entries : SMap W128
  deriving DecidableEq, Repr

/-- An arrival at graft that outlives its wait (R97, R296): the hint, the address of the graft, whether the crew still
waits there once it resumes, and, once the graft is complete, the interval that completed it in deterministic mode. -/
structure GraftKept where
  hint : W64
  pc : W64
  waits : Bool
  done : Option Nat
  deriving DecidableEq, Repr

/-- A barrier arrival that outlives its wait (R296): the barrier, the phases still ahead of its own, the address
of the bar.meet, and, once its phase is complete, the flush that completed it in deterministic mode. -/
structure BarKept where
  bar : Nat
  ahead : Nat
  pc : W64
  done : Option Nat
  deriving DecidableEq, Repr

/-- Where a crew stands in its life: its scalar stream runs, has ended by exit, or the crew is complete. -/
inductive CrewStatus where
  | running | exited | complete
  deriving DecidableEq, Repr

/-- A crew (R10, R15, R97): its name, its life, its two streams and everything it has in flight. budgetTrap is the
clock from which a deterministic crew traps 0x0A, and the total charged (R310). -/
structure Crew where
  key : CrewKey
  status : CrewStatus
  active : Bool
  offered : Bool
  sc : ScalarSt
  ln : LaneSt
  ops : List Op
  sieve : List SieveEntry
  sieveOrder : Nat
  clock : Nat
  entryCycle : Nat
  wait : Wait
  park : Option Park
  handler : Option Handler
  ptraps : List PTrap
  region : Option Region
  barKept : Option BarKept
  graftKept : Option GraftKept
  solve : Option SolveCmd
  svStat : W64
  cmo : Option CmoCmd
  banks : SMap (Option Bank)
  spilled : List Nat
  carried : List Nat
  tiles : SMap (Option Tile)
  hadToken : Bool
  budgetTrap : Option (Nat × Nat)
  deriving DecidableEq, Repr

/-! ### Teams -/

/-- Barrier entry (R207). arrs holds the interval of each arrival not used up by a phase: those past exp count toward
later phases. Names 32 and up hold entries whose binding is dropped while copies still refer to them. -/
structure Barrier where
  exp : Nat
  arrs : List Nat
  pend : Int
  ph : Bool
  touched : Bool
  copies : Nat
  deriving DecidableEq, Repr

/-- State of a bound handle (R204). -/
inductive HandleState where
  | free | filling | full | draining
  deriving DecidableEq, Repr

/-- A bound handle (R204). -/
structure Handle where
  base : Nat
  size : Nat
  st : HandleState
  fc : Nat
  flap : Bool
  deriving DecidableEq, Repr

/-- An activation-table bank's record (R139): S, LO and the 257 knots as binary32 codes. -/
structure TabRec where
  shift : Int
  lo : Nat
  knots : List Nat
  deriving DecidableEq, Repr

/-- A segment of the graph log (R235, R237): resident in a frame or spilled to a slot (slot is the number of
either); order counts the openings; used counts the slots that hold a node; freedIn is the newest interval of a decrement
that freed one of its nodes. -/
structure Seg where
  id : Nat
  spilled : Bool
  slot : Nat
  order : Nat
  used : Nat
  freedIn : Nat
  deriving DecidableEq, Repr

/-- A team's graph log (R235 to R242): its segments, the current one and the next slot in it, opened
segments so far, the segment being spilled, nodes whose count has fallen to zero, count changes still to be made
in spill slots (true raises) with their intervals, the newest interval of a decrement per node (deterministic mode), nodes
that hold or descend from a square root, the node bytes as the device wrote them (16 per node number) and the nodes whose
counts no longer stand because a program store altered one (R242), and frames, spill slots and identifiers freed but not yet
usable in deterministic mode, with the intervals of the decrements that freed them. -/
structure GraphLog where
  segs : List Seg
  cur : Option Nat
  next : Nat
  opened : Nat
  spilling : Option Nat
  zeros : List Nat
  pend : List (Nat × Bool × Nat)
  decAt : SMap Nat
  sqrts : List Nat
  img : SMap Byte
  tainted : List Nat
  frozenFrames : List (Nat × Nat)
  frozenSlots : List (Nat × Nat)
  frozenIds : List (Nat × Nat)
  deriving DecidableEq, Repr

/-- Where a team is (R12, R306, R296 to R300). -/
inductive TeamPlace where
  | waiting
  | resident (core : Nat)
  | stopping (core : Nat)
  | saved
  | done
  deriving DecidableEq, Repr

/-- A team (R10, R38). -/
structure Team where
  job : Nat
  idx : Nat
  place : TeamPlace
  started : Bool
  spad : SMap Byte
  spadBad : SMap Bool
  pins : SMap Bool
  log : GraphLog
  barriers : SMap (Option Barrier)
  handles : SMap (Option Handle)
  tab0 : Option TabRec
  tab1 : Option TabRec
  weights : SMap Byte
  weightBad : SMap Bool
  absent : List Nat
  mesh : List Nat
  spillsz : Nat
  ctxState : Nat
  deriving DecidableEq, Repr

/-! ### Job slices and queues -/

/-- A parsed slice record (R13, R14). -/
structure Rec where
  format : Nat
  flags : Nat
  gx : Nat
  gy : Nat
  gz : Nat
  crews : Nat
  slices : Nat
  regg : Nat
  accb : Nat
  spad : Nat
  logsz : Nat
  spillsz : Nat
  detexp : Nat
  cmpl : Nat
  depth : Nat
  placeByte : Nat
  roles : Nat
  resv : Nat
  entry : W64
  args : W64
  handler : W64
  deadline : W64
  budget : W64
  doneaddr : W64
  doneseq : W64
  preq0addr : W64
  preq0seq : W64
  preq1addr : W64
  preq1seq : W64
  ctxbase : W64
  deriving DecidableEq, Repr

/-- The state of a prerequisite word's reading (R21, R35). -/
inductive PreqSt where
  | unmet | met
  deriving DecidableEq, Repr

/-- A record held in a slice queue: a name of its own, its fields, the job slice that pushed it and its die
(device pushes), its world, and how its prerequisites stand. -/
structure QRec where
  uid : Nat
  rcd : Rec
  parent : Option Nat
  pushDie : Nat
  secure : Bool
  pre0 : PreqSt
  pre1 : PreqSt
  missed : Bool
  deriving DecidableEq, Repr

/-- Where a job slice is in its life (R31 to R33, R325): its teams run, its grid is complete, its digest
is computed, its completion store is due, or it is done. -/
inductive JobPhase where
  | running | gridDone | storing | done
  deriving DecidableEq, Repr

/-- A job slice taken from its queue. charged and extended count units of the budget it owns (R308, R328); spent holds
what a deterministic job slice charged in each interval not yet flushed (R310); flushK is the next flush. -/
structure Job where
  take : Nat
  rcd : Rec
  queue : Nat
  secure : Bool
  root : W64
  stkbase : W64
  stksz : W64
  parent : Option Nat
  pushDie : Nat
  deadline : Nat
  budgetOwner : Nat
  charged : Nat
  extended : Nat
  exhausted : Bool
  phase : JobPhase
  failReason : Nat
  failCause : Nat
  missed : Bool
  crewsDone : Nat
  teamsDone : Nat
  regions : List (Nat × Nat)
  regionCount : Nat
  digest : Option (List Byte)
  spent : SMap Nat
  flushK : Nat
  deriving DecidableEq, Repr

/-- A slice queue: its registers of R365, its records oldest first, and its chain value (R326). -/
structure SliceQueue where
  qctl : W64
  qstat : Bool
  qptroot : W64
  stkbase : W64
  stksz : W64
  xcap : W64
  digest : List Byte
  recs : List QRec
  deriving DecidableEq, Repr

/-- A data queue: DQCTL, its entries oldest first (R210), and the places of those with uncorrectable data (R316, R362). -/
structure DataQueue where
  ctl : W64
  entries : List W64
  bad : List Nat
  deriving DecidableEq, Repr

/-- A cluster SRAM bank's mode register (R170) and the transition it runs (R171); left is set from the moment
the bank leaves FIFO mode until it enters it again. -/
structure BankReg where
  busy : Bool
  done : Bool
  world : Bool
  cur : Nat
  nextWorld : Bool
  mode : Nat
  left : Bool
  deriving DecidableEq, Repr

/-- A ring of R367. -/
structure Ring where
  base : W64
  size : W64
  head : W64
  tail : W64
  deriving DecidableEq, Repr

/-- An event record waiting to be written (R313); waited is set once its wait for room has been signalled. -/
structure Event where
  seq : W64
  level : Nat
  kind : Nat
  reason : Nat
  cause : Nat
  queue : Nat
  team : Nat
  crew : Nat
  time : Nat
  irq : Bool
  secure : Bool
  job : Option Nat
  waited : Bool
  deriving DecidableEq, Repr

/-- Who waits in a merge-table entry beside parked crews: a completion store, a digest, a prerequisite read, a
walker reclamation, a context access, an access from a peer that is still to be performed, or an engine working for a crew,
named by its source code of R285 and the kind of its operation, with the faulting address. -/
inductive IoWaiter where
  | completion (job : Nat)
  | digest (job : Nat)
  | prereq (uid n : Nat)
  | walker (job team : Nat)
  | context (job team : Nat)
  | ingress (va : Nat) (k : RemKind)
  | engine (k : CrewKey) (src tag : Nat) (va : W64)
  deriving DecidableEq, Repr

/-- A fault merge table entry (R283, R285): the table (a cluster, or 64 for the I/O die), its number,
its key, whether its record has been written, and the record's fields. held marks a write held under R290,
whose entryPa is then the master frame. waiters lists who waits beside parked crews, holds those whose write is held under
R290 and joined the entry of a fault. -/
structure Merge where
  table : Nat
  entry : Nat
  asid : Nat
  secure : Bool
  page : Nat
  held : Bool
  written : Bool
  va : W64
  kind : Nat
  access : Nat
  source : Nat
  level : Nat
  queue : Nat
  seq : W64
  entryPa : Nat
  waiters : List IoWaiter
  holds : List IoWaiter
  deriving DecidableEq, Repr

/-- The kinds of holder of R280. -/
inductive HolderKind where
  | core | cluster | copy | gather | matrix | ingress | espalier
  deriving DecidableEq, Repr

/-- A cached translation and the page-table lines it came from; stale once a store has invalidated it and
its acknowledgement is outstanding (R187, R280). stores names the crews whose fences wait for it; inval says that a write
of ASIDINV dropped it (R282). -/
structure TlbEntry where
  kind : HolderKind
  unit : Nat
  asid : Nat
  secure : Bool
  page : Nat
  frame : Nat
  lines : List Nat
  stale : Bool
  stores : List CrewKey
  inval : Bool
  deriving DecidableEq, Repr

/-- A micro-program cache entry of Espalier (R265, R268, R270): its identity, what R271 reports, the
structure it was built from, its lines, and whether it is valid, compiled, or being compiled. -/
structure EspEntry where
  cluster : Nat
  secure : Bool
  asid : Nat
  addr : W64
  gen : W32
  efmt : Nat
  path : Nat
  nnz : Nat
  u : Nat
  rows : List (List Nat)
  vptr : W64
  lines : List Nat
  valid : Bool
  compiled : Bool
  started : Bool
  deriving DecidableEq, Repr

/-- What a die's placement monitor has counted in a sampling window (R288): the window, the die, the page by address space,
world and number, and the reads and writes. -/
structure MonCount where
  window : Nat
  die : Nat
  asid : Nat
  secure : Bool
  page : Nat
  reads : Nat
  writes : Nat
  deriving DecidableEq, Repr

/-- An answer to a fault that waits for its writer's earlier writes (R286): the crew that wrote it, or none for the host;
the world; and the value. -/
structure Answer where
  who : Option CrewKey
  secure : Bool
  val : W64
  deriving DecidableEq, Repr

/-- A read-duplicated page (R289): the die, the master frame, its size, the replica's frame. -/
structure Replica where
  die : Nat
  master : Nat
  size : Nat
  frame : Nat
  entryPa : Nat
  dead : Bool
  deriving DecidableEq, Repr

/-- The kinds of cached line that can differ from the home: L1 lines of SWC and PRV pages, the read-only path's copies, lines
of the scalar and the lane instruction cache (R169, R172, R186), and lines of HWC pages with stores that the crews of the core
see and that are not yet performed elsewhere (R177). Other lines of HWC pages are kept coherent and are not listed. -/
inductive LineKind where
  | hwc | swc | prv | ro | scode | lcode
  deriving DecidableEq, Repr

/-- A 128-byte line in one of a core's caches (R5, R168, R169, R172): the line's number, its bytes, a mask of the dirty
ones, and the crews whose stores it holds. -/
structure L1Line where
  core : Nat
  line : Nat
  kind : LineKind
  data : List Byte
  dirty : Nat
  writers : List CrewKey
  deriving DecidableEq, Repr

/-- A core: the holder of its matrix token, the interval in which a deterministic crew last gave it up and the crew
that passed it, banks given up by deterministic crews with their intervals, the order of its engine's operations
(issuers, oldest first), the world it holds, and the crew that last issued. -/
structure CoreSt where
  token : Option CrewKey
  freedAt : Nat
  passer : Option CrewKey
  frees : List (Nat × Nat)
  engine : List CrewKey
  world : Bool
  last : Option CrewKey
  deriving DecidableEq, Repr

/-- Messages of one reduction received so far (R350). -/
structure ReduceSt where
  planid : W64
  epoch : W64
  got : List Contribution
  bad : Bool
  deriving DecidableEq, Repr

/-! ### The device -/

/-- Power, temperature, boot and attestation (R354 to R361, R365); hostLines are the lines of host writes whose
acknowledgements are outstanding (R281), answers the FRESP writes not applied yet (R286), and monDone the windows whose
advice each die's monitor has given (R288); linkDown is the surprise-down of the host link (R356), and svnRaised the
highest security version that the security processor has written to the fuses (R359). ingressWait are accesses from peers
that wait for a free entry of the I/O die's merge table (R283), hostHeld host writes to a page whose replicas collapse
(R290), and lateAborts the aborts asked for in D3 (R357). (DESIGN CHOICE, safe: notes/assumptions/41.md, DEDUCED, unsafe:
notes/assumptions/33.md) -/
structure DevRegs where
  pstate : Nat
  d3 : Bool
  pcap : Nat
  power : Nat
  tripped : Bool
  linkDown : Bool
  temps : SMap Nat
  hots : SMap Bool
  fxself : W64
  fxroot : W64
  fxroute : SMap Byte
  secrgn : SMap W64
  hdmbase : W64
  hdmsize : W64
  locked : Bool
  bootReady : Bool
  bootCode : Nat
  measurement : List Byte
  svn : Nat
  svnRaised : Nat
  attNonce : SMap W64
  attMask : W64
  attBusy : Bool
  attDone : Bool
  attBuf : List Byte
  errlog : SMap W64
  worldError : Bool
  preemptSeq : W64
  abortSeq : W64
  asidinv : List Nat
  repbase : SMap W64
  repsize : SMap W64
  mqovf : SMap W64
  portsDown : List Nat
  msi : SMap Nat
  hostLines : List Nat
  answers : List Answer
  monDone : SMap Nat
  ingressWait : List (Nat × RemKind)
  hostHeld : List (Nat × List Byte)
  lateAborts : List (Nat × W64)
  deriving DecidableEq, Repr

/-- A turn of the schedule: a step of the device, of a crew's scalar stream or lane stream, the passing of
arithmetic-clock cycles, or the eviction of a core's lines that are not snooped and of its cluster's compiled
micro-programs (R172, R270), all of them or those of one line. -/
inductive Turn where
  | event (i : Instr)
  | scalar (k : CrewKey)
  | lane (k : CrewKey)
  | tick (cycles : Nat)
  | evict (core : Nat)
  | evictLine (core line : Nat)
  deriving DecidableEq, Repr

/-- The machine. crew, team and job are in focus; crews, teams and jobs hold all the others. mem is
device and host memory by physical address; beat turns round scalar issue, lane issue and the device's own
steps when the schedule is empty; free counts the free values taken; fine counts device time in units of 1/21 ns; nextTake
is the next name given to a record or a job slice taken; sweep counts the steps, for the evictions that bound how long a
line stays (R40). turns, beat, sweep and free are the model's own fields (DESIGN CHOICE: notes/assumptions/2.md, 5.md and
8.md), fine is 39.md, l1 is 8.md, memBad and cspadBad are 43.md. -/
structure State where
  turns : List Turn
  beat : Nat
  sweep : Nat
  free : Nat
  fine : Nat
  cycles : Nat
  crew : Crew
  team : Team
  job : Job
  crews : List Crew
  teams : List Team
  jobs : List Job
  nextTake : Nat
  mem : List Host.Cell
  memBad : SMap Bool
  l1 : List L1Line
  cspad : SMap Byte
  cspadBad : SMap Bool
  bankRegs : SMap BankReg
  queues : SMap SliceQueue
  dataQueues : SMap DataQueue
  cores : SMap CoreSt
  rings : SMap Ring
  events : List Event
  merges : List Merge
  tlbs : List TlbEntry
  espalier : List EspEntry
  replicas : List Replica
  monitor : List MonCount
  reduces : List ReduceSt
  dev : DevRegs
  deriving DecidableEq, Repr

/-! ### The state after reset -/

/-- No run. -/
def LaneSt.reset : LaneSt where
  cur := none
  queue := []
  hqueue := []
  hcur := none
  nextSeq := 0
  nextHSeq := 0
  held := []
  regs := ⟨[], [], [], [], [], 0, 0, []⟩
  edge := ⟨0, none, none, [], [], false, 0, 0, 0, false, 0, false⟩

/-- The scalar stream at crew entry before s0 to s3 are written (R15). -/
def ScalarSt.reset : ScalarSt where
  regs := []
  preds := 0
  pc := 0
  astat := 0
  fmte := false
  rmdef := 0
  rseed := 0
  snaps := []
  trap := ⟨0, 0, 0, 0, 0⟩
  parity := []

/-- A crew that does not exist: complete, with every register zero. (DESIGN CHOICE, unsafe: notes/assumptions/1.md) -/
def Crew.reset : Crew where
  key := ⟨0, 0, 0⟩
  status := .complete
  active := false
  offered := false
  sc := ScalarSt.reset
  ln := LaneSt.reset
  ops := []
  sieve := []
  sieveOrder := 0
  clock := 0
  entryCycle := 0
  wait := .none
  park := none
  handler := none
  ptraps := []
  region := none
  barKept := none
  graftKept := none
  solve := none
  svStat := 0
  cmo := none
  banks := []
  spilled := []
  carried := []
  tiles := []
  hadToken := false
  budgetTrap := none

/-- An empty log. -/
def GraphLog.reset : GraphLog := ⟨[], none, 0, 0, none, [], [], [], [], [], [], [], [], []⟩

/-- A team that does not exist. (DESIGN CHOICE, unsafe: notes/assumptions/1.md) -/
def Team.reset : Team where
  job := 0
  idx := 0
  place := .done
  started := false
  spad := []
  spadBad := []
  pins := []
  log := GraphLog.reset
  barriers := []
  handles := []
  tab0 := none
  tab1 := none
  weights := []
  weightBad := []
  absent := []
  mesh := []
  spillsz := 0
  ctxState := 0

/-- A record of zeros. -/
def Rec.zero : Rec where
  format := 0
  flags := 0
  gx := 0
  gy := 0
  gz := 0
  crews := 0
  slices := 0
  regg := 0
  accb := 0
  spad := 0
  logsz := 0
  spillsz := 0
  detexp := 0
  cmpl := 0
  depth := 0
  placeByte := 0
  roles := 0
  resv := 0
  entry := 0
  args := 0
  handler := 0
  deadline := 0
  budget := 0
  doneaddr := 0
  doneseq := 0
  preq0addr := 0
  preq0seq := 0
  preq1addr := 0
  preq1seq := 0
  ctxbase := 0

/-- A job slice that does not exist. (DESIGN CHOICE, unsafe: notes/assumptions/1.md) -/
def Job.reset : Job where
  take := 0
  rcd := Rec.zero
  queue := 0
  secure := false
  root := 0
  stkbase := 0
  stksz := 0
  parent := none
  pushDie := 0
  deadline := 0
  budgetOwner := 0
  charged := 0
  extended := 0
  exhausted := false
  phase := .done
  failReason := 0
  failCause := 0
  missed := false
  crewsDone := 0
  teamsDone := 0
  regions := []
  regionCount := 0
  digest := none
  spent := []
  flushK := 0

/-- A slice queue at reset: disabled, its chain value zero (R326, R358).
(DESIGN CHOICE, unsafe: notes/assumptions/1.md) -/
def SliceQueue.reset : SliceQueue := ⟨0, false, 0, 0, 0, 0, List.replicate 32 0, []⟩

/-- A data queue at reset. (DESIGN CHOICE, unsafe: notes/assumptions/1.md) -/
def DataQueue.reset : DataQueue := ⟨0, [], []⟩

/-- A bank at reset: cache mode, non-secure, DONE set (R170). (DESIGN CHOICE, unsafe: notes/assumptions/1.md) -/
def BankReg.reset : BankReg := ⟨false, true, false, 0, false, 0, false⟩

/-- A core at reset: token free, engine empty (R219). (DESIGN CHOICE, unsafe: notes/assumptions/1.md) -/
def CoreSt.reset : CoreSt := ⟨none, 0, none, [], [], false, none⟩

/-- The device registers at reset: P0, PCAP 3,400 W (R354, R357). (DESIGN CHOICE, unsafe: notes/assumptions/1.md) -/
def DevRegs.reset : DevRegs where
  pstate := 0
  d3 := false
  pcap := 3400
  power := 0
  tripped := false
  linkDown := false
  temps := []
  hots := []
  fxself := 0
  fxroot := 0
  fxroute := []
  secrgn := []
  hdmbase := 0
  hdmsize := 0
  locked := false
  bootReady := false
  bootCode := 0
  measurement := []
  svn := 0
  svnRaised := 0
  attNonce := []
  attMask := 0
  attBusy := false
  attDone := false
  attBuf := []
  errlog := []
  worldError := false
  preemptSeq := 0
  abortSeq := 0
  asidinv := []
  repbase := []
  repsize := []
  mqovf := []
  portsDown := []
  msi := []
  hostLines := []
  ingressWait := []
  hostHeld := []
  lateAborts := []
  answers := []
  monDone := []

/-- The machine right after reset: no job slice, every queue disabled, memory zeroed (R358).
(DESIGN CHOICE, unsafe: notes/assumptions/1.md) -/
def State.reset : State where
  turns := []
  beat := 0
  sweep := 0
  free := 0
  fine := 0
  cycles := 0
  crew := Crew.reset
  team := Team.reset
  job := Job.reset
  crews := []
  teams := []
  jobs := []
  nextTake := 1
  mem := []
  memBad := []
  l1 := []
  cspad := []
  cspadBad := []
  bankRegs := []
  queues := []
  dataQueues := []
  cores := []
  rings := []
  events := []
  merges := []
  tlbs := []
  espalier := []
  replicas := []
  monitor := []
  reduces := []
  dev := DevRegs.reset

/-! ### Stops -/

/-- Why the machine stops. -/
inductive Fault where
  /-- Raised by step once the module has tripped (R356): nothing issues until a cold reset. Safe: the spec
  says that issue stops (DEDUCED: notes/assumptions/40.md). -/
  | tripped
  deriving DecidableEq, Repr

/-- Why an instruction is refused. -/
inductive Refusal where
  /-- Raised by exec for an instruction that has no meaning yet. Safe: nothing is claimed of it. -/
  | notModelled (mnemonic : String)
  deriving DecidableEq, Repr

end Sys2Proof.Machine
end

