-- ==== Sys2Proof/Machine/Ops.lean ====
section
/-! DEFINITION. The named operations of the machine: crews, teams and job slices, scalar registers, waits,
retirement, taking a trap and returning from one, failing a job slice (R10 to R34, R97, R291 to R295, R312). -/

namespace Sys2Proof.Machine

/-- Why an instruction does not complete: a trap with its trap.info, a translation fault to park on (pointer,
virtual address, kind, level, entry address, access code), a write held under R290, a wait, a trap that is to
name an address where the spec gives none, accesses through aperture 0x3 to be sent to their peer (rel: as a release, the
core's dirty lines first), the peer's failure to complete them, or a release whose lines are home and whose
acknowledgements are not (R187). -/
inductive Stop where
  | trap (cause : Nat) (info : W64)
  | park (ptr va : W64) (kind level entryPa access : Nat)
  | hold (va : W64) (frame access : Nat)
  | wait (w : Wait)
  | trapOpen (cause : Nat)
  | remote (l : List RemAcc) (rel : Bool)
  | peer (info : W64)
  | flushWait (w : Wait)
  deriving DecidableEq, Repr

/-- The result of an instruction's body. -/
abbrev Res (α : Type) := Except Stop α

/-- Go on when the condition holds; otherwise stop. -/
def need (c : Bool) (e : Stop) : Res Unit := if c then .ok () else .error e

/-! ### Crews, teams, job slices -/

/-- Change every crew. -/
def mapCrews (f : Crew → Crew) (s : State) : State :=
  { s with crew := f s.crew, crews := s.crews.map f }

/-- Every crew. -/
def allCrews (s : State) : List Crew := s.crew :: s.crews
/-- Every team. -/
def allTeams (s : State) : List Team := s.team :: s.teams
/-- Every job slice. -/
def allJobs (s : State) : List Job := s.job :: s.jobs

/-- Change the crew of a name. -/
def modCrew (k : CrewKey) (f : Crew → Crew) (s : State) : State :=
  mapCrews (fun c => if c.key = k then f c else c) s

/-- Change the team of a job slice and index. -/
def modTeam (job idx : Nat) (f : Team → Team) (s : State) : State :=
  let g := fun (t : Team) => if t.job = job ∧ t.idx = idx then f t else t
  { s with team := g s.team, teams := s.teams.map g }

/-- Change the job slice of a take order. -/
def modJob (take : Nat) (f : Job → Job) (s : State) : State :=
  let g := fun (j : Job) => if j.take = take then f j else j
  { s with job := g s.job, jobs := s.jobs.map g }

/-- The crew of a name. -/
def findCrew (s : State) (k : CrewKey) : Option Crew := (allCrews s).find? (fun c => c.key = k)
/-- The team of a job slice and index. -/
def findTeam (s : State) (job idx : Nat) : Option Team := (allTeams s).find? (fun t => t.job = job ∧ t.idx = idx)
/-- The job slice of a take order. -/
def findJob (s : State) (take : Nat) : Option Job := (allJobs s).find? (fun j => j.take = take)

/-- Bring a crew with its team and job slice into focus; none if one does not exist. -/
def focus (k : CrewKey) (s : State) : Option State :=
  if s.crew.key = k ∧ s.team.job = k.job ∧ s.team.idx = k.team ∧ s.job.take = k.job then some s
  else do
    let c ← findCrew s k
    let t ← findTeam s k.job k.team
    let j ← findJob s k.job
    some { s with
      crew := c, crews := (allCrews s).filter (fun x => x.key ≠ k)
      team := t, teams := (allTeams s).filter (fun x => ¬(x.job = k.job ∧ x.idx = k.team))
      job := j, jobs := (allJobs s).filter (fun x => x.take ≠ k.job) }

/-- Do something to a crew as if it were in focus, and leave the focus on the crew that had it. -/
def onCrew (k : CrewKey) (f : State → State) (s : State) : State :=
  match focus k s with
  | none => s
  | some s1 =>
    let s2 := f s1
    match focus s.crew.key s2 with
    | some s3 => s3
    | none => s2

/-- Change the crew in focus. -/
def onC (f : Crew → Crew) (s : State) : State := { s with crew := f s.crew }
/-- Change the scalar stream of the crew in focus. -/
def onSc (f : ScalarSt → ScalarSt) (s : State) : State := { s with crew := { s.crew with sc := f s.crew.sc } }
/-- Change the lane stream of the crew in focus. -/
def onLn (f : LaneSt → LaneSt) (s : State) : State := { s with crew := { s.crew with ln := f s.crew.ln } }
/-- Change the lane registers of the crew in focus. -/
def onRegs (f : LaneRegs → LaneRegs) (s : State) : State :=
  { s with crew := { s.crew with ln := { s.crew.ln with regs := f s.crew.ln.regs } } }
/-- Change the team in focus. -/
def onT (f : Team → Team) (s : State) : State := { s with team := f s.team }
/-- Change the job slice in focus. -/
def onJ (f : Job → Job) (s : State) : State := { s with job := f s.job }

/-- The order of R11. -/
def keyLt (a b : CrewKey) : Bool :=
  decide (a.job < b.job) || (a.job == b.job &&
    (decide (a.team < b.team) || (a.team == b.team && decide (a.crew < b.crew))))

/-- The core a team is resident on. -/
def placeCore : TeamPlace → Option Nat
  | .resident c => some c
  | .stopping c => some c
  | _ => none

/-- The core of the team in focus; 0 when it is not resident. -/
def coreOf (s : State) : Nat := (placeCore s.team.place).getD 0

/-- The cluster of a core. -/
def clusterOf (core : Nat) : Nat := core / 4
/-- The die of a core. -/
def dieOf (core : Nat) : Nat := core / 32

/-- The job slice in focus is deterministic (R14). -/
def isDet (s : State) : Bool := s.job.rcd.flags.testBit 0
/-- F of R315. -/
def flushF (j : Job) : Nat := 2 ^ j.rcd.detexp

/-- The interval of a crew's clock (R315). -/
def intervalOf (s : State) : Nat := s.crew.clock / flushF s.job
/-- Lanes per crew. -/
def lanesOf (s : State) : Nat := 4 * s.job.rcd.slices

/-- Device time in nanoseconds (R305): fine counts 1/21 ns. (DESIGN CHOICE, safe: notes/assumptions/39.md) -/
def devTime (s : State) : Nat := s.fine / 21

/-- The next free value. (DESIGN CHOICE, safe: notes/assumptions/2.md) -/
def takeFree (s : State) : W64 × State := (Config.freeWord s.free, { s with free := s.free + 1 })

/-! ### Scalar registers -/

/-- sR. -/
def rdS (s : State) (r : Nat) : W64 := smGet 0 s.crew.sc.regs r
/-- Write sR; the write ends a parity error there. -/
def wrS (r : Nat) (v : W64) (s : State) : State :=
  onSc (fun c => { c with regs := smSet 0 c.regs r v, parity := c.parity.filter (· != r) }) s
/-- cR; c0 reads true (R97). -/
def rdC (s : State) (r : Nat) : Bool := r == 0 || s.crew.sc.preds.getLsbD r
/-- Write cR. -/
def wrC (r : Nat) (v : Bool) (s : State) : State :=
  onSc (fun c => { c with preds := if v then c.preds ||| (1#16 <<< r) else c.preds &&& ~~~(1#16 <<< r) }) s

/-- sR is a live-in of an open region (R273). -/
def liveIn (s : State) (r : Nat) : Bool :=
  match s.crew.region with
  | some g => g.mask.getLsbD r
  | none => false

/-- Write sR as an instruction does: a declared live-in traps 0x02 (R273). -/
def putS (r : Nat) (v : W64) (s : State) : Res State :=
  if liveIn s r then .error (.trap 0x02 0) else .ok (wrS r v s)

/-- Inside an idempotent region. -/
def inRegion (s : State) : Bool := s.crew.region.isSome

/-- Trap 0x02 inside a region (R273). -/
def notInRegion (s : State) : Res Unit := need (!inRegion s) (.trap 0x02 0)

/-- OR flags into astat (R85, R99). -/
def addFlags (f : Flags) (s : State) : State := onSc (fun c => { c with astat := c.astat ||| f }) s

/-- The crew default rounding mode. -/
def rmDef (s : State) : Rm := (rmOf s.crew.sc.rmdef).getD .rne

/-- Set the scalar program counter. -/
def setPc (pc : W64) (s : State) : State := onSc (fun c => { c with pc := pc }) s

/-- The role of the crew in focus (R13, R27). -/
def roleOf (s : State) : Nat := (s.job.rcd.roles >>> (2 * s.crew.key.crew)) % 4

/-- Engine classes of R27. -/
inductive EngClass where
  | lanes | copy | matrix | spt | solve
  deriving DecidableEq, Repr

/-- Whether a role may issue an engine class (R27). -/
def roleMay (role : Nat) (c : EngClass) : Bool :=
  match role, c with
  | 0, _ => true
  | 1, .copy => true
  | 2, .matrix => true
  | 2, .spt => true
  | 3, .lanes => true
  | 3, .solve => true
  | _, _ => false

/-- Trap "role violation" 0x13 (R27). -/
def needRole (s : State) (c : EngClass) : Res Unit :=
  need (roleMay (roleOf s) c) (.trap 0x13 (BitVec.ofNat 64 (roleOf s)))

/-- A code address is usable (R42): 0x06 outside the global apertures, 0x07 when not aligned.
(DEDUCED, unsafe: notes/assumptions/42.md) -/
def codeCheck (p : W64) : Res Unit :=
  if 2 < fld p 63 60 ∨ fld p 59 56 ≠ 0 then .error (.trap 0x06 p)
  else if fld p 1 0 ≠ 0 then .error (.trap 0x07 p)
  else .ok ()

/-- A code address cannot be used (R42). -/
def codeBad (p : W64) : Bool := decide (2 < fld p 63 60) || fld p 59 56 != 0 || fld p 1 0 != 0

/-! ### Budgets (R308, R309) -/

/-- Charge units to the job slice that owns the budget; BUDGET 0 is never charged (R308). A deterministic job slice
notes the interval, and a crew in an idempotent region what it is charged there (R274, R310).
(DEDUCED, unsafe: notes/assumptions/28.md) -/
def charge (units : Nat) (s : State) : State :=
  let s1 := onC (fun c => { c with region := c.region.map (fun g => { g with charged := g.charged + units }) }) s
  let s2 := if isDet s then onJ (fun j => { j with spent := smMod 0 j.spent (s.crew.clock / flushF j) (· + units) }) s1 else s1
  modJob s.job.budgetOwner (fun j =>
    if j.rcd.budget = 0 then j else { j with charged := j.charged + units }) s2

/-- What has been charged to a budget, as the crew in focus may see it: in deterministic mode the intervals already flushed
count, for the others depend on timing (R310, R324). (DEDUCED, unsafe: notes/assumptions/28.md) -/
def chargedSeen (s : State) (o : Job) : Nat :=
  if isDet s then o.charged - (s.job.spent.map (·.2)).foldl (· + ·) 0 else o.charged

/-- What remains of a budget as a crew reads it (R115, R116); none when unlimited. -/
def budgetLeft (s : State) (j : Job) : Option Nat :=
  match findJob s j.budgetOwner with
  | some o => if o.rcd.budget = 0 then none else some (o.rcd.budget.toNat + o.extended - chargedSeen s o)
  | none => none

/-- One instruction of the crew in focus has retired: logical clock and charge (R308, R315). -/
def retire (s : State) : State := onC (fun c => { c with clock := c.clock + 1 }) (charge 1 s)

/-! ### Events and the end of work -/

/-- An event of a job slice (R313). -/
def mkEvent (s : State) (j : Job) (level kind reason cause team crew : Nat) : Event where
  seq := j.rcd.doneseq
  level := level
  kind := kind
  reason := reason
  cause := cause
  queue := j.queue
  team := team
  crew := crew
  time := devTime s
  irq := j.rcd.cmpl.testBit 3
  secure := j.secure
  job := if level = 3 ∧ kind ≠ 2 then some j.take else none
  waited := false

/-- Raise an event. -/
def raise (e : Event) (s : State) : State := { s with events := s.events ++ [e] }

/-- A job slice and everything spawned under it among the jobs taken: the closure after n rounds. -/
def descendants (s : State) : Nat → List Nat → List Nat
  | 0, l => l
  | n + 1, l =>
    let more := ((allJobs s).filter (fun j => match j.parent with
      | some p => l.contains p && !l.contains j.take && j.phase ≠ .done
      | none => false)).map (·.take)
    if more = [] then l else descendants s n (l ++ more)

/-- Accesses through aperture 0x3 that have not all been answered. -/
def remLive (got : Option Reply) : Bool :=
  match got with
  | none | some (.part _ _) => true
  | some (.data _) | some (.failed _) => false

/-- An operation issued by a crew that completes after its job slice is aborted; the others are abandoned (R312): the
values that no crew takes in any more, the matrix engine's work on banks and scratchpad, a reduction, and what waits for
the answer to a fault. What waits for a page to collapse needs no answer and goes on.
(DEDUCED, unsafe: notes/assumptions/24.md) -/
def outlives (o : Op) : Bool :=
  (!o.held || o.collapse) && match o.kind with
    | .store _ | .scatter _ | .scatAdd _ | .amo _ | .vamo _ _ | .copy _ | .fabric _ | .peerAmo _ _ _ _ => true
    | .remote _ _ got => remLive got
    | _ => false

/-- A crew of an aborted job slice: it stops without a handler, and what it has issued drains. -/
def stopCrew (c : Crew) : Crew :=
  { c with status := .complete, active := false, ops := c.ops.filter outlives, sieve := [], wait := .none, park := none,
           ptraps := [], region := none, barKept := none, graftKept := none, solve := none, cmo := none, banks := [],
           spilled := [], carried := [], ln := LaneSt.reset }

/-- A team of an aborted job slice: its resources are released, and its place once no operation of its crews is left. -/
def endTeam (busy : Bool) (t : Team) : Team :=
  { t with
    place := match placeCore t.place, busy with
      | some c, true => .resident c
      | _, _ => .done
    handles := [], barriers := [], pins := [], log := GraphLog.reset }

/-- Keep the waiters of an entry but the engines of crews that fail a test. -/
def keepWaiters (p : CrewKey → Bool) (m : Merge) : Merge :=
  let f := fun (w : IoWaiter) => match w with
    | .engine k _ _ _ => p k
    | _ => true
  { m with waiters := m.waiters.filter f, holds := m.holds.filter f }

/-- Take the crews and teams of job slices away and mark the job slices failed (R312): crews stop without a
handler, team resources are released, and the completion store comes once their operations have drained.
(DEDUCED, safe in part: notes/assumptions/24.md) -/
def stopJobs (takes : List Nat) (root reason cause : Nat) (s : State) : State :=
  let crews := (allCrews s).filter (fun c => takes.contains c.key.job && c.ops.any outlives)
  let stopTeam := fun (t : Team) =>
    if takes.contains t.job then endTeam (crews.any (fun c => c.key.job == t.job && c.key.team == t.idx)) t else t
  let stopJob := fun (j : Job) =>
    if takes.contains j.take then
      { j with phase := if j.phase = .done then .done else .storing
               failReason := if j.failReason ≠ 0 then j.failReason else if j.take = root then reason else 4
               failCause := if j.failReason ≠ 0 then j.failCause else if j.take = root then cause else 0 }
    else j
  let stopCore := fun (p : Nat × CoreSt) =>
    (p.1, { p.2 with
      token := p.2.token.filter (fun k => !takes.contains k.job)
      passer := p.2.passer.filter (fun k => !takes.contains k.job)
      engine := p.2.engine.filter (fun k => !takes.contains k.job) })
  { mapCrews (fun c => if takes.contains c.key.job then stopCrew c else c) s with
    team := stopTeam s.team, teams := s.teams.map stopTeam
    job := stopJob s.job, jobs := s.jobs.map stopJob
    cores := (s.cores.map stopCore).filter (fun p => p.2 ≠ CoreSt.reset)
    tlbs := s.tlbs.map (fun e => { e with stores := e.stores.filter (fun k => !takes.contains k.job) })
    merges := s.merges.map (keepWaiters (fun k => !takes.contains k.job || crews.any (fun c => c.key == k))) }

/-- A job slice that fails from its queue record without running. -/
def failedJob (s : State) (q : Nat) (sq : SliceQueue) (r : QRec) (reason : Nat) : Job :=
  { Job.reset with
    take := s.nextTake, rcd := r.rcd, queue := q, secure := r.secure, root := sq.qptroot,
    stkbase := sq.stkbase, stksz := sq.stksz, parent := r.parent, pushDie := r.pushDie,
    deadline := r.rcd.deadline.toNat, budgetOwner := s.nextTake, phase := .storing, failReason := reason,
    missed := r.missed }

/-- Take record i of queue q away and let it fail (R16, R21, R171, R311, R312). -/
def failRecord (q i reason : Nat) (s : State) : State :=
  let sq := smGet SliceQueue.reset s.queues q
  match nth none (sq.recs.map some) i with
  | none => s
  | some r =>
    { s with
      queues := smSet SliceQueue.reset s.queues q { sq with recs := sq.recs.eraseIdx i }
      jobs := failedJob s q sq r reason :: s.jobs
      nextTake := s.nextTake + 1 }

/-- The first record of any queue that a listed job slice pushed. -/
def findSpawned (takes : List Nat) (s : State) : Option (Nat × Nat) :=
  (s.queues.filterMap (fun p =>
    (p.2.recs.findIdx? (fun r => match r.parent with
      | some t => takes.contains t
      | none => false)).map (fun i => (p.1, i)))).head?

/-- Fail every queued record that a listed job slice pushed (R31). -/
def failSpawned (takes : List Nat) : Nat → State → State
  | 0, s => s
  | n + 1, s => match findSpawned takes s with
    | none => s
    | some (q, i) => failSpawned takes n (failRecord q i 4 s)

/-- The number of records waiting in all queues. -/
def queuedCount (s : State) : Nat := (s.queues.map (fun p => p.2.recs.length)).foldl (· + ·) 0

/-- Abort a job slice with a reason and, for REASON 6, a trap cause (R312, R295): everything spawned under
it, taken or waiting, is aborted with it. -/
def abortJob (take reason cause : Nat) (s : State) : State :=
  let takes := descendants s ((allJobs s).length + 1) [take]
  stopJobs takes take reason cause (failSpawned takes (queuedCount s) s)

/-! ### Traps (R291 to R295, R370) -/

/-- Drop the latches of the crew in focus (R64). -/
def dropLatches (s : State) : State := onRegs (fun r => { r with latches := [] }) s

/-- Deliver a returning scalar value: write the destination, or make its deferred trap pending (R97). -/
def deliverLoad (dest : Nat) (val : W64) (bad : Bool) (va : W64) (s : State) : State :=
  if bad then onC (fun c => { c with ptraps := c.ptraps ++ [⟨0x15, va, .touch [dest]⟩] }) s
  else wrS dest val s

/-- Remove the operations a test selects from those in flight. -/
def dropOps (p : Op → Bool) (s : State) : State := onC (fun c => { c with ops := c.ops.filter (fun o => !p o) }) s

/-- An operation that still has something to do; a remote access whose reply is in has not, nor one that has ended but for
its turn to complete (R182). -/
def opLive (o : Op) : Bool :=
  match o.kind with
  | .remote _ _ got => remLive got
  | .ended => false
  | _ => true

/-- An sp.part parked on a fault, which the crew's later operations pass (R97, R262). -/
def parkedPart (o : Op) : Bool :=
  match o.kind with
  | .part _ _ _ _ _ p => p
  | _ => false

/-- A place at a fabric peer. -/
def isFar (l : Loc) : Bool :=
  match l with
  | .remote _ _ => true
  | _ => false

/-- The class that counts a held atomic or scatter-add; one through aperture 0x3 is the fabric's (R182). -/
def sieveCls (k : SieveKind) : Option OpClass :=
  match k with
  | .amo a | .vamo a _ => some (if isFar a.loc then .fabric else .store)
  | .add a => some (if isFar a.loc then .fabric else .scatter)
  | _ => none

/-- Sieve entries counted on a class. -/
def sieveOf (k : OpClass) (c : Crew) : List SieveEntry := c.sieve.filter (fun e => sieveCls e.kind == some k)

/-- An older operation of its class that an operation may end before, but not complete before, is outstanding (R182): for the
fabric class an atomic or scatter-add through aperture 0x3 in the Sieve, or on its way to a peer after its flush; for the
matrix class any older one, where a fault delays a weight load (R224) or a tile load finds its program at once (R268). -/
def behindOlder (c : Crew) (o : Op) : Bool :=
  match o.cls with
  | .fabric => (sieveOf .fabric c).any (fun e => decide (e.order < o.order)) || c.ops.any (fun x => match x.kind with
      | .peerAmo _ _ _ _ => decide (x.order < o.order)
      | _ => false)
  | .matrix => (c.ops.takeWhile (· != o)).any (fun x => x.cls == .matrix && opLive x)
  | _ => false

/-- An operation counts as outstanding: it has something to do, or waits for its turn to complete (R182). -/
def opCounts (c : Crew) (o : Op) : Bool := opLive o || behindOlder c o

/-- A counter of R182: the operations of a class in flight. -/
def opCount (c : Crew) (k : OpClass) : Nat := (c.ops.filter (fun o => o.cls == k && opCounts c o)).length

/-- Operations of a class outstanding, those in the Sieve included: a vamo and a vsct.add count once per instruction, by
their issue order (R182). -/
def outstanding (c : Crew) (k : OpClass) : Nat := opCount c k + ((sieveOf k c).map (·.order)).eraseDups.length

/-- An older entry of the operation's class is in the Sieve. -/
def behindSieve (c : Crew) (o : Op) : Bool := (sieveOf o.cls c).any (fun e => decide (e.order < o.order))

/-- No older operation of the class is outstanding: a crew's operations of a class complete in issue order (R182). -/
def inOrder (c : Crew) (o : Op) : Bool :=
  (c.ops.find? (fun x => x.cls == o.cls && opLive x && !parkedPart x) == some o) && !behindSieve c o

/-- A ld or ld.ro on its way back. -/
def isScalarLoad (o : Op) : Bool :=
  match o.kind with
  | .load _ _ _ _ => true
  | _ => false

/-- The returning ld operations with nothing of their class before them. -/
def firstLoads (c : Crew) : List Op :=
  (c.ops.filter (fun o => o.cls == .load && opLive o && !parkedPart o)).takeWhile isScalarLoad

/-- Deliver the returning ld operations that nothing of their class goes before (R97: a trap entry waits for them). -/
def settleLoads (s : State) : State :=
  let l := firstLoads s.crew
  let s1 := l.foldl (fun (t : State) o => match o.kind with
    | .load d v b va => deliverLoad d v b va t
    | _ => t) s
  onC (fun c => { c with ops := l.foldl List.erase c.ops }) s1

/-- The run stream a crew executes from: the handler's runs while it is in a handler (R293). -/
def curRun (c : Crew) : Option ARun := if c.handler.isSome then c.ln.hcur else c.ln.cur

/-- Change the run in execution. -/
def setRun (r : Option ARun) (s : State) : State :=
  if s.crew.handler.isSome then onLn (fun l => { l with hcur := r }) s else onLn (fun l => { l with cur := r }) s

/-- A gang that waits for other slices issues its instruction again after a trap (R294). -/
def wakeGang (g : Gang) : Gang := { g with wait := .ready }

/-- TAKING A TRAP (R291, R292, R295): cause, trap.info, the scalar resume address, and for a lane trap its
lane resume address, mask and the slices of the issuing gang. A crew with no handler, a handler that cannot be
entered, or one already in its handler fails its job slice with REASON 6. A scalar stream that had ended runs again, in
the handler. A pop that the Sieve held unserved has had no effect (R97). -/
def enterTrap (cause : Nat) (info pc lpc mask : W64) (slices : List Nat) (laneTrap : Bool) (s : State) : State :=
  let h := s.job.rcd.handler
  if h = 0 ∨ s.crew.handler.isSome ∨ codeBad h then abortJob s.crew.key.job 6 cause s
  else
    dropLatches (onC (fun c => { c with
      handler := some ⟨slices, laneTrap⟩
      status := if c.status = .exited then .running else c.status
      wait := .none
      sieve := c.sieve.filter (fun e => match e.kind with
        | .pop _ _ _ _ => false
        | _ => true)
      barKept := match c.wait with
        | .barMeet b a => some ⟨b, a, c.sc.pc, none⟩
        | _ => c.barKept
      graftKept := match c.wait with
        | .graft h => some ⟨h, c.sc.pc, true, none⟩
        | _ => c.graftKept
      ln := { c.ln with cur := c.ln.cur.map (fun r => { r with gangs := r.gangs.map wakeGang }) }
      sc := { c.sc with
        pc := h
        trap := ⟨BitVec.ofNat 64 cause, pc, lpc, mask, info⟩ } }) s)

/-- A trap of an instruction that waits at its entry for returning values. -/
def atEntry (p : PTrap) : Bool :=
  match p.due with
  | .entry _ _ _ _ => true
  | _ => false

/-- The crew has stopped at a trap entry, which waits for returning values (R97). -/
def entryWaits (c : Crew) : Bool := c.ptraps.any atEntry

/-- A value still to return to a scalar register: of a ld, of an atomic not executed yet, or of an sp.part that is not
parked (R97). -/
def isReturn (o : Op) : Bool :=
  match o.kind with
  | .load _ _ _ _ | .amo _ => true
  | .peerAmo _ _ a _ => a.lane == 32
  | .part _ _ _ _ _ parked => !parked
  | _ => false

/-- An atomic or pop of the scalar stream is held in the Sieve. -/
def awaitsSieve (c : Crew) : Bool :=
  c.sieve.any (fun e => match e.kind with
    | .amo _ | .pop _ _ _ _ => true
    | _ => false)

/-- An atomic of a stream that a flush has sent to a peer is unanswered (R316). -/
def awaitsPeer (lane : Bool) (c : Crew) : Bool :=
  c.ops.any (fun o => match o.kind with
    | .peerAmo _ _ a d => d != 1025 && (a.lane != 32) == lane
    | _ => false)

/-- A vamo that has issued and is still to retire (R291). -/
def vamoOut (o : Op) : Bool :=
  match o.kind with
  | .vamo _ _ => true
  | .peerAmo _ _ _ d => d != 1025
  | _ => false

/-- A Sieve entry of an atomic of either stream. -/
def sieveAmo (e : SieveEntry) : Bool :=
  match e.kind with
  | .amo _ | .vamo _ _ => true
  | _ => false

/-- What a trap entry waits for: returning values and atomics of the lanes, those in the Sieve included (R97, R291), and a
solve command, which is never restarted (R341). -/
def returnsOut (c : Crew) : Bool :=
  c.solve.isSome || c.ops.any (fun o => isReturn o || vamoOut o) || c.sieve.any sieveAmo

/-- The pending trap that is taken first: the oldest deferred one, but in the handler none that waits for its end; then
the trap of an instruction that has waited at its entry. (DEDUCED, unsafe: notes/assumptions/29.md) -/
def firstTrap (c : Crew) : Option PTrap :=
  (c.ptraps.find? (fun p => !atEntry p && (c.handler.isNone || p.due != .resumed))).or (c.ptraps.find? atEntry)

/-- Take the first pending trap before the instruction at pc, once every returning value is in; the deferred traps still
pending are taken at the same boundary, once the handler has resumed (R97, R370).
(DEDUCED, unsafe: notes/assumptions/29.md) -/
def takeDeferred (s : State) : State :=
  match firstTrap s.crew, returnsOut s.crew with
  | some t, false =>
    let s1 := onC (fun c => { c with
      ptraps := ((c.ptraps.erase t).filter (fun p => !atEntry p)).map (fun p => { p with due := .resumed }) }) s
    match t.due with
    | .entry lpc mask slices lane => enterTrap t.cause t.info s.crew.sc.pc lpc mask slices lane s1
    | _ => enterTrap t.cause t.info s.crew.sc.pc 0 0 [] false s1
  | _, _ => s

/-- The trap of an instruction stops the crew until every returning value is in (R97). -/
def waitEntry (p : PTrap) (s : State) : State :=
  if entryWaits s.crew then s else onC (fun c => { c with ptraps := c.ptraps ++ [p] }) s

/-- A trap at a scalar instruction, pc being what trap.pc is to hold. Returning values are delivered first,
and deferred traps go before it (R97, R370). -/
def trapScalar (cause : Nat) (info pc : W64) (s : State) : State :=
  let s1 := settleLoads s
  if returnsOut s1.crew then waitEntry ⟨cause, info, .entry 0 0 [] false⟩ s1
  else if firstTrap s1.crew = none then enterTrap cause info pc 0 0 [] false s1
  else takeDeferred s1

/-- A trap at a lane instruction of a gang (R126, R291). -/
def trapLane (cause : Nat) (info lpc mask : W64) (slices : List Nat) (s : State) : State :=
  let s1 := settleLoads s
  if returnsOut s1.crew then waitEntry ⟨cause, info, .entry lpc mask slices true⟩ s1
  else if firstTrap s1.crew = none then enterTrap cause info s1.crew.sc.pc lpc mask slices true s1
  else takeDeferred s1

/-! ### Parking (R283, R284) -/

/-- The number of a free entry of a merge table: the lowest not taken, if the table has room (R283). -/
def freeMerge (s : State) (table : Nat) : Option Nat :=
  (List.range 1024).find? (fun n => !(s.merges.any (fun m => m.table == table && m.entry == n)))

/-- The merge entry of a key (R283). -/
def isKey (table asid : Nat) (secure : Bool) (page : Nat) (m : Merge) : Bool :=
  m.table == table && m.asid == asid && m.secure == secure && m.page == page

/-- Join or make the merge entry of the key of a new entry, as the listed waiters (R283); none when the table
is full. A held write that joins the entry of a fault is held beside its waiters (R290). -/
def joinMerge (mk : Nat → Merge) (ws : List IoWaiter) (s : State) : Option (Nat × State) :=
  let d := mk 0
  let p := isKey d.table d.asid d.secure d.page
  match s.merges.find? p with
  | some m => some (m.entry, { s with merges := s.merges.map (fun x =>
      if !p x then x
      else if d.held && !x.held then { x with holds := x.holds ++ ws.filter (fun w => !x.holds.contains w) }
      else { x with waiters := x.waiters ++ ws.filter (fun w => !x.waiters.contains w) }) })
  | none => match freeMerge s d.table with
    | some n => some (n, { s with merges := s.merges ++ [{ mk n with waiters := ws }] })
    | none => none

/-- The address-space identifier of a root (R275). -/
def asidOf (root : W64) : Nat := fld root 63 52

/-- A merge entry for a job slice: faulting address as the requester formed it, its page, the record's
kind, level, entry address, access code and source (R283, R285). -/
def mkMerge (j : Job) (table : Nat) (held : Bool) (va page kind level entryPa access source n : Nat) : Merge where
  table := table
  entry := n
  asid := asidOf j.root
  secure := j.secure
  page := page
  held := held
  written := false
  va := BitVec.ofNat 64 va
  kind := kind
  access := access
  source := source
  level := level
  queue := j.queue
  seq := j.rcd.doneseq
  entryPa := entryPa
  waiters := []
  holds := []

/-- The home of a frame begins to collapse its replicas: their translations are invalidated (R290). -/
def startCollapse (frame : Nat) (s : State) : State :=
  let reps := (s.replicas.filter (fun r => r.master == frame)).map (·.frame)
  { s with
    replicas := s.replicas.map (fun r => if r.master = frame then { r with dead := true } else r)
    tlbs := s.tlbs.map (fun e => if reps.contains e.frame then { e with stale := true } else e) }

/-- Mark the gang that faulted; it issues again when the answer comes. -/
def parkGang (lane : Bool) (s : State) : State :=
  if lane then
    setRun ((curRun s.crew).map (fun r => match r.gangs with
      | g :: rest => { r with gangs := { g with wait := .parked } :: rest }
      | [] => r)) s
  else s

/-- The entry number of a crew that waits for a free entry of a full table (R283).
(DESIGN CHOICE, unsafe: notes/assumptions/20.md) -/
def noEntry : Nat := 1024

/-- Park the crew in focus in a merge entry, or with the table full as a waiter for a free one (R283, R284). ptr is the
pointer, va the virtual address it maps to. (DESIGN CHOICE, unsafe: notes/assumptions/20.md) -/
def parkIn (lane fetch : Bool) (va : W64) (kind mask table : Nat) (mk : Nat → Merge) (s : State) : State :=
  let (n, s1) := (joinMerge mk [] s).getD (noEntry, s)
  parkGang lane (onC (fun c => { c with park := some ⟨table, n, lane, fetch, va, kind, mask⟩ }) s1)

/-- Park on a translation fault (R283, R284); source is its code of R285.
(DESIGN CHOICE, unsafe: notes/assumptions/20.md) -/
def parkFault (lane fetch : Bool) (mask source : Nat) (ptr va : W64) (kind level entryPa access : Nat) (s : State) : State :=
  let table := clusterOf (coreOf s)
  parkIn lane fetch va kind mask table
    (mkMerge s.job table false ptr.toNat (fld va 55 12) kind level entryPa access source) s

/-- Park on a write held under R290. -/
def parkHold (lane : Bool) (mask : Nat) (va : W64) (frame access : Nat) (s : State) : State :=
  let table := clusterOf (coreOf s)
  startCollapse frame
    (parkIn lane false va 0 mask table (mkMerge s.job table true va.toNat (fld va 55 12) 0 4 frame access 0) s)

/-! ### Running a scalar instruction -/

/-- The issue slot of an instruction that does not retire: outside deterministic mode it is charged (R308).
(DEDUCED, unsafe: notes/assumptions/28.md) -/
def useSlot (s : State) : State := if isDet s then s else charge 1 s

/-- Finish a scalar instruction: next address, no wait, one instruction retired. -/
def finish (pc : W64) (s : State) : State := retire (setPc pc (onC (fun c => { c with wait := .none }) s))

end Sys2Proof.Machine
end

