-- ==== Sys2Proof/Machine/Phys.lean ====
section
/-! DEFINITION. Physical memory, the L1 lines that can differ from the home, the page walk and translation
(R168 to R174, R186, R187, R275 to R281, R289, R290, R304, R362, R363). -/

namespace Sys2Proof.Machine

/-! ### Bytes and check bits -/

/-- n bytes of physical memory at pa; unlisted bytes are zero (R358).
(DESIGN CHOICE, unsafe: notes/assumptions/1.md) -/
def memRd (s : State) (pa n : Nat) : List Byte := smGetMany 0 s.mem pa n

/-- The 8-byte words that n bytes at a overlap. -/
def wordsOf (a n : Nat) : List Nat := (List.range ((a + n + 7) / 8 - a / 8)).map (· + a / 8)

/-- The 8-byte words that n bytes at a cover whole. -/
def wholeWords (a n : Nat) : List Nat := (List.range ((a + n) / 8 - (a + 7) / 8)).map (· + (a + 7) / 8)

/-- Some word that n bytes at a overlap is poisoned (R362). (DESIGN CHOICE, unsafe: notes/assumptions/43.md) -/
def badAt (m : SMap Bool) (a n : Nat) : Bool := (wordsOf a n).any (smGet false m)

/-- Clear the poison of words overwritten whole (R363). (DESIGN CHOICE, unsafe: notes/assumptions/43.md) -/
def clearBad (m : SMap Bool) (a n : Nat) : SMap Bool := (wholeWords a n).foldl smDel m

/-- Two byte ranges overlap. -/
def overlaps (a n b m : Nat) : Bool := decide (a < b + m) && decide (b < a + n)

/-- The 128-byte lines that n bytes at a overlap. -/
def linesOf (a n : Nat) : List Nat := (List.range ((a + n + 127) / 128 - a / 128)).map (· + a / 128)

/-- A store to a line invalidates a translation derived from it; the storing crew's fences wait for the
acknowledgement (R187). (DESIGN CHOICE, unsafe: notes/assumptions/9.md) -/
def staleTlb (who : List CrewKey) (ls : List Nat) (e : TlbEntry) : TlbEntry :=
  if e.lines.any ls.contains then
    { e with stale := true, stores := e.stores ++ who.filter (fun k => !e.stores.contains k) }
  else e

/-- Micro-programs built from some lines are no longer valid (R270). -/
def staleMicro (ls : List Nat) (s : State) : State :=
  { s with espalier := s.espalier.map (fun e => if e.lines.any ls.contains then { e with valid := false } else e) }

/-- A store reaches a duplicated page, or its entry (R289, R290). -/
def hitsReplica (pa n : Nat) (r : Replica) : Bool := overlaps pa n r.entryPa 8 || overlaps pa n r.master r.size

/-- What a store to physical memory does beside writing its bytes: derived translations and micro-programs are
invalidated, and a store to a duplicated page or to its entry collapses it (R187, R270, R290). -/
def snoopStore (who : List CrewKey) (pa n : Nat) (s : State) : State :=
  let ls := linesOf pa n
  let gone := ((s.replicas.filter (hitsReplica pa n)).map (·.frame))
  { staleMicro ls s with
    tlbs := s.tlbs.map (fun e => staleTlb who ls (if gone.contains e.frame then { e with stale := true } else e))
    replicas := s.replicas.map (fun r => if hitsReplica pa n r then { r with dead := true } else r) }

/-- The sampling window of the placement monitors (R288). -/
def monWindow (s : State) : Nat := s.cycles / 2 ^ 20

/-- Count reads and writes of a page in the present window; only this window and the one before are kept (R288).
(DESIGN CHOICE, unsafe: notes/assumptions/32.md) -/
def countAt (w die asid : Nat) (secure : Bool) (page r n : Nat) (l : List MonCount) : List MonCount :=
  let mine := fun (m : MonCount) => m.window == w && m.die == die && m.asid == asid && m.secure == secure && m.page == page
  let kept := l.filter (fun m => decide (w ≤ m.window + 1))
  if kept.any mine then
    kept.map (fun m => if mine m then { m with reads := m.reads + r, writes := m.writes + n } else m)
  else kept ++ [⟨w, die, asid, secure, page, r, n⟩]

/-- The 4 KiB frames that n bytes at a overlap. -/
def framesOf (a n : Nat) : List Nat := (List.range ((a + n + 4095) / 4096 - a / 4096)).map (· + a / 4096)

/-- Count a write of anyone to frames, under the number 8, which is no die: R289 asks whether nobody wrote a page.
(DESIGN CHOICE, unsafe: notes/assumptions/32.md) -/
def noteWrites (pa n : Nat) (s : State) : State :=
  { s with monitor := (framesOf pa n).foldl (fun l f => countAt (monWindow s) 8 0 false f 0 1 l) s.monitor }

/-- n bytes of physical memory have been stored, for the crews that issued the stores. -/
def stored (who : List CrewKey) (pa n : Nat) (s : State) : State :=
  noteWrites pa n (snoopStore who pa n { s with memBad := clearBad s.memBad pa n })

/-- Store bytes at the home of physical memory, for the crews that issued the stores. -/
def memWrBy (who : List CrewKey) (pa : Nat) (bytes : List Byte) (s : State) : State :=
  stored who pa bytes.length { s with mem := smSetMany 0 s.mem pa bytes }

/-- Store bytes at the home of physical memory for one crew, or for none. -/
def memWr (who : Option CrewKey) (pa : Nat) (bytes : List Byte) (s : State) : State := memWrBy who.toList pa bytes s

/-! ### L1 lines -/

/-- The line of a kind that a core's L1 holds. -/
def findLine (s : State) (core line : Nat) (k : LineKind) : Option L1Line :=
  s.l1.find? (fun l => l.core == core && l.line == line && l.kind == k)

/-- Write the dirty bytes of a line back, from byte i on. -/
def wbBytes (who : List CrewKey) (base dirty : Nat) : Nat → List Byte → State → State
  | _, [], s => s
  | i, b :: r, s => wbBytes who base dirty (i + 1) r (if dirty.testBit i then memWrBy who (base + i) [b] s else s)

/-- Write the dirty words of a line back word by word, so that a word stored whole clears its poison. -/
def wbWords (who : List CrewKey) (base dirty : Nat) : Nat → List (List Byte) → State → State
  | _, [], s => s
  | i, w :: r, s =>
    let m := fieldN dirty (8 * i + 7) (8 * i)
    let s1 := if m = 255 then memWrBy who (base + 8 * i) w s else wbBytes who (base + 8 * i) m 0 w s
    wbWords who base dirty (i + 1) r s1

/-- Write a line back to its home: the stores of its writers are performed. -/
def wbLine (l : L1Line) (s : State) : State :=
  if l.dirty = 0 then s else wbWords l.writers (128 * l.line) l.dirty 0 (chunks 8 16 l.data) s

/-- Write back the lines a test selects; drop says whether they are then invalid or stay clean, those of HWC pages unlisted.
(DESIGN CHOICE, unsafe: notes/assumptions/8.md) -/
def wbLines (p : L1Line → Bool) (drop : Bool) (s : State) : State :=
  let s1 := (s.l1.filter p).foldl (fun t l => wbLine l t) s
  { s1 with l1 := if drop then s1.l1.filter (fun l => !p l)
                  else (s1.l1.filter (fun l => !(p l && l.kind == .hwc))).map (fun l =>
                    if p l then { l with dirty := 0, writers := [] } else l) }

/-- Drop lines without writing them back. (DESIGN CHOICE, unsafe: notes/assumptions/8.md) -/
def dropLines (p : L1Line → Bool) (s : State) : State := { s with l1 := s.l1.filter (fun l => !p l) }

/-- A kind of line that a store can make dirty. -/
def dataKind (k : LineKind) : Bool := k == .hwc || k == .swc || k == .prv

/-- The bytes of a line as its core reads them: of an HWC page, the core's own stores over what is at home (R177). -/
def seenLine (s : State) (l : L1Line) : List Byte :=
  if l.kind = .hwc then
    (List.range 128).map (fun i => if l.dirty.testBit i then nth 0 l.data i else smGet 0 s.mem (128 * l.line + i))
  else l.data

/-- A line as a core sees it: its L1 copy if it has one, so that no later load through another path of the core returns
an older value than this one (R176), else the home's. (DESIGN CHOICE, unsafe: notes/assumptions/8.md) -/
def coreLine (s : State) (core line : Nat) : List Byte :=
  match s.l1.find? (fun l => l.core == core && l.line == line && dataKind l.kind) with
  | some l => seenLine s l
  | none => memRd s (128 * line) 128

/-- Bring a line into a core's L1. (DESIGN CHOICE, unsafe: notes/assumptions/8.md) -/
def fillLine (core line : Nat) (k : LineKind) (s : State) : L1Line × State :=
  match findLine s core line k with
  | some l => (l, s)
  | none =>
    let l : L1Line := ⟨core, line, k, coreLine s core line, 0, []⟩
    (l, { s with l1 := l :: s.l1 })

/-- Replace bytes of a list from an offset. -/
def patch {α : Type} (off : Nat) (l new : List α) : List α := l.take off ++ new ++ l.drop (off + new.length)

/-- Store bytes within one line into a core's L1; the storing crew's own later sp.tmul uses them (R270).
(DESIGN CHOICE, unsafe: notes/assumptions/8.md) -/
def storeLine (core : Nat) (k : LineKind) (pa : Nat) (bytes : List Byte) (s : State) : State :=
  let (l, s1) := fillLine core (pa / 128) k (staleMicro [pa / 128] s)
  let off := pa % 128
  let l' := { l with
    data := patch off l.data bytes
    dirty := l.dirty ||| ((2 ^ bytes.length - 1) <<< off)
    writers := if l.writers.contains s.crew.key then l.writers else s.crew.key :: l.writers }
  { s1 with l1 := s1.l1.map (fun x => if x.core = core ∧ x.line = pa / 128 ∧ x.kind = k then l' else x) }

/-- The L1 line kind of a page attribute (R172). -/
def cohKind (coh : Nat) : LineKind :=
  match coh with
  | 1 => .swc
  | 2 => .prv
  | _ => .hwc

/-- An access under another attribute first writes the line back and invalidates it (R173). -/
def switchAttr (core : Nat) (pa n : Nat) (k : LineKind) (s : State) : State :=
  let ls := linesOf pa n
  wbLines (fun l => l.core == core && ls.contains l.line && dataKind l.kind && l.kind != k) true s

/-- The line of its core's L1 that an access reads: of an HWC page only one that holds stores, of another the line it fills. -/
def lineFor (core line : Nat) (k : LineKind) (s : State) : Option L1Line × State :=
  if k = .hwc then (findLine s core line k, s) else (some (fillLine core line k s).1, (fillLine core line k s).2)

/-- A crew's read of bytes that lie in one line (R166, R172, R177, R186): the bytes, and whether they are
uncorrectable. (DESIGN CHOICE, unsafe: notes/assumptions/8.md) -/
def physRd (core pa n coh : Nat) (ro : Bool) (s : State) : List Byte × Bool × State :=
  let k := if ro then .ro else cohKind coh
  let s1 := switchAttr core pa n (cohKind coh) s
  let (l, s2) := lineFor core (pa / 128) k s1
  match l with
  | none => (memRd s2 pa n, badAt s2.memBad pa n, s2)
  | some l =>
    let off := pa % 128
    let m := (2 ^ n - 1) <<< off
    (((seenLine s2 l).drop off).take n, badAt s2.memBad pa n && decide (l.dirty &&& m ≠ m), s2)

/-- A turn at which a store or a plain scatter of a crew is performed. -/
def performs (k : CrewKey) (t : Turn) : Bool :=
  match t with
  | .event (.storePerformed x) => x == k
  | .event (.scatterPerformed x) => x == k
  | _ => false

/-- The schedule names a later turn at which a store of the crew in focus is performed: until then its stores to HWC pages
are seen by the crews of its core alone (R177). (DESIGN CHOICE, unsafe: notes/assumptions/7.md) -/
def holdsStores (s : State) : Bool := s.turns.any (performs s.crew.key)

/-- A crew's store of bytes that lie in one line. (DESIGN CHOICE, unsafe: notes/assumptions/8.md)
(DESIGN CHOICE, unsafe: notes/assumptions/7.md) -/
def physWr (core pa : Nat) (bytes : List Byte) (coh : Nat) (s : State) : State :=
  let k := cohKind coh
  let s1 := switchAttr core pa bytes.length k s
  if k = .hwc ∧ holdsStores s1 = false ∧ findLine s1 core (pa / 128) k = none then memWr (some s.crew.key) pa bytes s1
  else storeLine core k pa bytes s1

/-! ### The page walk (R276 to R278, R304) -/

/-- A physical address names device or host memory (R278). (DEDUCED, unsafe: notes/assumptions/15.md) -/
def placed (pa : Nat) : Bool := decide (pa < 0xC000000000) || pa.testBit 51

/-- The die whose memory holds a physical address; none for host memory (R278). -/
def dieOfPa (pa : Nat) : Option Nat := if pa < 0xC000000000 then some (pa / (96 * 2 ^ 30)) else none

/-- A frame lies in a secure range (R304). The limit is the first byte past a range.
(DEDUCED, unsafe: notes/assumptions/14.md) -/
def secureFrame (s : State) (pa : Nat) : Bool :=
  (List.range 8).any (fun i =>
    decide ((smGet 0 s.dev.secrgn (2 * i)).toNat ≤ pa) && decide (pa < (smGet 0 s.dev.secrgn (2 * i + 1)).toNat))

/-- What ends a walk or a translation: a fault of R285 with its kind, level and entry address; a world
violation; an uncorrectable entry; a write held for replicas of a master frame. -/
inductive XFail where
  | fault (kind level entryPa : Nat)
  | world
  | bad
  | held (frame : Nat)
  deriving DecidableEq, Repr

/-- A leaf entry found by a walk: the entry, its page size as a power of two, the lines read, and its
address. -/
structure Leaf where
  e : W64
  bits : Nat
  lines : List Nat
  entryPa : Nat
  deriving DecidableEq, Repr

/-- PA of an entry. -/
def entryPA (e : W64) : Nat := fld e 51 12 * 4096

/-- The page size of a leaf at a level. -/
def leafBits (level : Nat) (e : W64) : Nat :=
  match level with
  | 2 => 30
  | 3 => 21
  | _ => if e.getLsbD 11 then 16 else 12

/-- The malformed leaves of R277. (DEDUCED, unsafe: notes/assumptions/15.md) -/
def leafBad (s : State) (level : Nat) (e : W64) : Bool :=
  decide (level < 2) || fld e 7 6 == 3 || fld e 9 8 == 3 || (fld e 63 56 != 0 && fld e 7 6 != 2) ||
    (e.getLsbD 11 && level != 4) || entryPA e % 2 ^ leafBits level e != 0 || !placed (entryPA e) ||
    (e.getLsbD 5 != secureFrame s (entryPA e))

/-- One 8-byte entry, read at its home. -/
def rdEntry (s : State) (pa : Nat) : W64 := BitVec.ofNat 64 (bytesToNat (memRd s pa 8))

/-- The walk from a table on, one entry per level (R276). (DEDUCED, unsafe: notes/assumptions/15.md) -/
def walkFrom (s : State) (va : Nat) : List (Nat × Nat × Nat) → Nat → List Nat → Except XFail Leaf
  | [], base, _ => .error (.fault 5 4 base)
  | (lv, hi, lo) :: rest, base, lines =>
    let idx := fieldN va hi lo
    let gpa := base + 8 * (idx / 16 * 16)
    let g := rdEntry s gpa
    let useG := lv == 4 && g.getLsbD 0 && g.getLsbD 1 && g.getLsbD 11
    let pa := if useG then gpa else base + 8 * idx
    let e := rdEntry s pa
    let ls := pa / 128 :: lines
    if !placed base then .error (.fault 5 lv pa)
    else if badAt s.memBad pa 8 || (lv == 4 && badAt s.memBad gpa 8) then .error .bad
    else if !e.getLsbD 0 then .error (.fault 1 lv pa)
    else if !e.getLsbD 1 then
      if lv = 4 ∨ fld e 63 52 ≠ 0 ∨ fld e 11 2 ≠ 0 then .error (.fault 5 lv pa)
      else walkFrom s va rest (entryPA e) ls
    else if (lv == 4 && !useG && e.getLsbD 11) || leafBad s lv e then .error (.fault 5 lv pa)
    else .ok ⟨e, leafBits lv e, ls, pa⟩

/-- Walk of a virtual address under a root (R275, R276). (DESIGN CHOICE, unsafe: notes/assumptions/9.md) -/
def walk (s : State) (root : W64) (va : Nat) : Except XFail Leaf :=
  walkFrom s va [(0, 55, 48), (1, 47, 39), (2, 38, 30), (3, 29, 21), (4, 20, 12)] (entryPA root) []

/-! ### Translation (R279) -/

/-- Who asks for a translation: the root, the world, the requester's core (none for the scheduler and for
peers), and the holders of R280 that cache it. -/
structure Asker where
  root : W64
  secure : Bool
  core : Option Nat
  holders : List (HolderKind × Nat)
  deriving DecidableEq, Repr

/-- An engine of a kind working for the crew in focus: its own translation cache, and the cluster's, which serves its
misses (R280). -/
def engineAsker (k : HolderKind) (s : State) : Asker :=
  ⟨s.job.root, s.job.secure, some (coreOf s), [(k, coreOf s), (.cluster, clusterOf (coreOf s))]⟩
/-- The crew in focus as a requester. -/
def crewAsker (s : State) : Asker := engineAsker .core s
/-- Whetstone's fetches of spilled nodes for the crew in focus (R280). -/
def spillAsker (s : State) : Asker := { crewAsker s with holders := [(.cluster, clusterOf (coreOf s))] }
/-- The scheduler on behalf of a job slice. -/
def schedAsker (j : Job) : Asker := ⟨j.root, j.secure, none, []⟩
/-- The device's accesses to the context area of the team in focus, on a core of its cluster (R280, R298). -/
def ctxAsker (core : Nat) (s : State) : Asker := { schedAsker s.job with holders := [(.cluster, clusterOf core)] }
/-- The requester of accesses that arrive from the fabric (R342). -/
def ingressAsker (s : State) : Asker := ⟨s.dev.fxroot, false, none, [(.ingress, 0)]⟩

/-- A translation: the physical address, the page's attribute, what a holder records, and the first 4 KiB page of the
virtual page. -/
structure Xlat where
  pa : Nat
  coh : Nat
  frame : Nat
  lines : List Nat
  vpage : Nat
  deriving DecidableEq, Repr

/-- Kinds of access: 0 read, 1 write, 2 atomic, 3 fetch. (DESIGN CHOICE, unsafe: notes/assumptions/9.md) -/
def translate (s : State) (a : Asker) (va kind : Nat) : Except XFail Xlat := do
  let l ← walk s a.root va
  let e := l.e
  let wr := kind == 1 || kind == 2
  let frame := entryPA e
  let reps := s.replicas.filter (fun r => r.master == frame)
  if e.getLsbD 5 && !a.secure then .error .world
  else if (kind == 0 || kind == 2) && !e.getLsbD 2 then .error (.fault 2 4 l.entryPa)
  else if wr && !e.getLsbD 3 then .error (.fault 3 4 l.entryPa)
  else if kind == 3 && !e.getLsbD 4 then .error (.fault 4 4 l.entryPa)
  else if fld e 7 6 == 2 && a.core.any (fun c => c != fld e 63 56) then .error (.fault 6 4 l.entryPa)
  else if wr && !reps.isEmpty then .error (.held frame)
  else
    let here := reps.find? (fun r => !r.dead && kind == 0 && a.core.any (fun c => dieOf c == r.die))
    let f := match here with
      | some r => r.frame
      | none => frame
    .ok ⟨f + va % 2 ^ l.bits, fld e 7 6, f, l.lines, va / 2 ^ l.bits * 2 ^ l.bits / 4096⟩

/-- Record that a holder has cached a translation (R280). (DESIGN CHOICE, unsafe: notes/assumptions/9.md) -/
def noteTlb (kind : HolderKind) (unit asid : Nat) (secure : Bool) (page : Nat) (x : Xlat) (s : State) : State :=
  let e : TlbEntry := ⟨kind, unit, asid, secure, page, x.frame, x.lines, false, [], false⟩
  { s with tlbs := if s.tlbs.contains e then s.tlbs else s.tlbs ++ [e] }

/-- Count an access of a die's core to a page. -/
def countPage (core kind asid : Nat) (secure : Bool) (x : Xlat) (s : State) : State :=
  let r := if kind = 0 then 1 else 0
  let n := if kind = 1 ∨ kind = 2 then 1 else 0
  { s with monitor := countAt (monWindow s) (dieOf core) asid secure x.vpage r n s.monitor }

/-- The holders of an asker have cached a translation (R280). -/
def noteHolders (a : Asker) (page : Nat) (x : Xlat) (s : State) : State :=
  a.holders.foldl (fun t h => noteTlb h.1 h.2 (asidOf a.root) a.secure page x t) s

/-- What an access of a kind through a translation leaves: the entries of its holders and the monitor's count (R280,
R288). (DESIGN CHOICE, unsafe: notes/assumptions/9.md) -/
def noteXlat (a : Asker) (kind page : Nat) (x : Xlat) (s : State) : State :=
  let s1 := match a.core with
    | some c => if kind = 3 then s else countPage c kind (asidOf a.root) a.secure x s
    | none => s
  noteHolders a page x s1

/-- The home die of a page for placement: HOME when HV is set, else the die of its frame (R36, R277). -/
def homeDie (s : State) (root : W64) (secure : Bool) (va : Nat) : Option Nat :=
  match walk s root va with
  | .error _ => none
  | .ok l =>
    if l.e.getLsbD 5 && !secure then none
    else if l.e.getLsbD 55 then some (fld l.e 54 52)
    else dieOfPa (entryPA l.e)

/-! ### Accesses made at the home on a job slice's or the scheduler's behalf -/

/-- The owner core's L1 copies of a PRV page are written back before the scheduler reads them, and dropped when
it writes (R279). SWC copies are not snooped. -/
def syncPrv (drop : Bool) (pa n coh : Nat) (s : State) : State :=
  if coh = 2 then
    let ls := linesOf pa n
    wbLines (fun l => l.kind == .prv && ls.contains l.line) drop s
  else s

/-- Bring a core's own dirty bytes home before an access made at the home for it (an engine's, R201, or an
atomic's, R184); for the scheduler, those of the owner of a PRV page. drop also invalidates the lines. -/
def homeSync (a : Asker) (drop : Bool) (pa n coh : Nat) (s : State) : State :=
  match a.core with
  | none => syncPrv drop pa n coh s
  | some c =>
    let ls := linesOf pa n
    wbLines (fun l => l.core == c && ls.contains l.line && dataKind l.kind) drop s

/-- Cut [a, a + n) at 4 KiB boundaries: at most fuel pieces (address, length). -/
def pageCuts : Nat → Nat → Nat → List (Nat × Nat)
  | 0, _, _ => []
  | f + 1, a, n =>
    if n = 0 then []
    else
      let k := min n (4096 - a % 4096)
      (a, k) :: pageCuts f (a + k) (n - k)

/-- Read n bytes at va at the home through a translation: the scheduler, or an engine. -/
def homeRead (a : Asker) (va n : Nat) (s : State) : Except XFail (List Byte × Bool × State) :=
  (pageCuts (n / 4096 + 2) va n).foldlM (fun (acc : List Byte × Bool × State) (p : Nat × Nat) => do
    let (bs, bad, t) := acc
    let x ← translate t a p.1 0
    let t1 := homeSync a false x.pa p.2 x.coh (noteXlat a 0 (p.1 / 4096) x t)
    .ok (bs ++ memRd t1 x.pa p.2, bad || badAt t1.memBad x.pa p.2, t1)) ([], false, s)

/-- Write bytes at va at the home through a translation. Nothing is written when a page fails. -/
def homeWrite (a : Asker) (who : Option CrewKey) (va : Nat) (bytes : List Byte) (s : State) : Except XFail State := do
  let cuts := pageCuts (bytes.length / 4096 + 2) va bytes.length
  let xs ← cuts.mapM (fun p => translate s a p.1 1)
  .ok (((cuts.zip xs).foldl (fun (acc : State × List Byte) (p : (Nat × Nat) × Xlat) =>
    let (t, bs) := acc
    let t1 := homeSync a true p.2.pa p.1.2 p.2.coh (noteXlat a 1 (p.1.1 / 4096) p.2 t)
    (memWr who p.2.pa (bs.take p.1.2) t1, bs.drop p.1.2)) (s, bytes)).1)

/-- Read a range page by page; a failure names its address. -/
def readVa (a : Asker) (va n : Nat) (s : State) :
    Except (Nat × XFail) (List Byte × Bool × State) :=
  (pageCuts (n / 4096 + 2) va n).foldlM (fun (acc : List Byte × Bool × State) (p : Nat × Nat) =>
    match homeRead a p.1 p.2 acc.2.2 with
    | .ok (b, bad, t) => .ok (acc.1 ++ b, acc.2.1 || bad, t)
    | .error e => .error (p.1, e)) ([], false, s)

/-- Write a range, all of it or nothing; a failure names its address. -/
def writeVa (a : Asker) (who : Option CrewKey) (va : Nat) (bytes : List Byte) (s : State) : Except (Nat × XFail) State := do
  (pageCuts (bytes.length / 4096 + 2) va bytes.length).forM (fun p => match translate s a p.1 1 with
    | .ok _ => .ok ()
    | .error e => .error (p.1, e))
  match homeWrite a who va bytes s with
  | .ok t => .ok t
  | .error e => .error (va, e)

/-- The value an atomic writes, whether it writes, and its flags. op is the operation code; 16 times a rounding mode is
added to it for a floating scatter-add (R195). -/
def amoApply (op n : Nat) (old b cmp : Nat) : Nat × Bool × Flags :=
  let m := 2 ^ (8 * n)
  let w := 8 * n
  match op % 16 with
  | 0 => ((old + b) % m, true, fNone)
  | 1 => (old &&& b % m, true, fNone)
  | 2 => (old ||| b % m, true, fNone)
  | 3 => (old ^^^ b % m, true, fNone)
  | 4 => (wrapN w (min (sVal w old) (sVal w b)), true, fNone)
  | 5 => (wrapN w (max (sVal w old) (sVal w b)), true, fNone)
  | 6 => (min old (b % m), true, fNone)
  | 7 => (max old (b % m), true, fNone)
  | 8 => (b % m, true, fNone)
  | 9 => if old = cmp % m then (b % m, true, fNone) else (old, false, fNone)
  | _ =>
    let r := fAdd (if n = 8 then fmtF64 else fmtF32) ((rmOf (op / 16)).getD .rne) old (b % m)
    (r.1, true, r.2)

/-- A local access through the ingress path (R342): its reply, or what stops it. -/
def ingressDo (va : Nat) (k : RemKind) (s : State) : Except XFail (List Byte × Bool × State) :=
  let a := ingressAsker s
  match k with
  | .read n => homeRead a va n s
  | .write d => do
    let t ← homeWrite a none va d s
    .ok ([], false, t)
  | .amo op n b cmp => do
    let _ ← translate s a va 2
    let (old, bad, t) ← homeRead a va n s
    if bad then .ok ([], true, t)
    else
      let (v, wr, _) := amoApply op n (bytesToNat old) b.toNat cmp.toNat
      let u ← if wr then homeWrite a none va (natToBytes n v) t else .ok t
      .ok (old, false, u)

/-- What a translation that fails means to an access of the crew in focus: the pointer, the virtual address and
the access code (R279, R292). -/
def xStop (ptr : W64) (va kind : Nat) : XFail → Stop
  | .fault k lv pa => .park ptr (BitVec.ofNat 64 va) k lv pa kind
  | .world => .trap 0x09 (BitVec.ofNat 64 (va % 2 ^ 56))
  | .bad => .trap 0x15 (BitVec.ofNat 64 va)
  | .held f => .hold (BitVec.ofNat 64 va) f kind

end Sys2Proof.Machine
end

