-- ==== Sys2Proof/Machine/Log.lean ====
section
/-! DEFINITION. The team's graph log: nodes, segments, reference counts, pins and reclamation; stores to the
team scratchpad (R235 to R242, R298). -/

namespace Sys2Proof.Machine

/-! ### Where the log lies -/

/-- Change the graph log of the team in focus. -/
def onLog (f : GraphLog → GraphLog) (s : State) : State := onT (fun t => { t with log := f t.log }) s

/-- Bytes of the scratchpad allocation. -/
def spadBytes (s : State) : Nat := s.job.rcd.spad * 1024

/-- The log's base in the scratchpad (R235). -/
def logBase (s : State) : Nat := spadBytes s - s.job.rcd.logsz * 16384

/-- Frames of the log. -/
def logFrames (s : State) : Nat := s.job.rcd.logsz * 4

/-- Bytes of a spill area of code SPILLSZ (R298). -/
def spillBytes (n : Nat) : Nat := if n = 0 then 0 else 2 ^ (n - 1) * 2 ^ 20

/-- Spill slots of a spill area of code SPILLSZ (R235). -/
def spillSlots (n : Nat) : Nat := spillBytes n / 4096

/-- The offset of the spill area within a team's context area (R298). -/
def spillOff (r : Rec) : Nat :=
  16384 + (r.spad * 1024 + 4095) / 4096 * 4096 + r.crews * (16384 + r.regg * 8192) + 16 * 20480 + 524288

/-- Z of R298. -/
def ctxZ (r : Rec) : Nat := spillOff r + spillBytes r.spillsz

/-- The address of a team's context area. -/
def ctxAddr (r : Rec) (team : Nat) : Nat := r.ctxbase.toNat / 4096 * 4096 + team * ctxZ r

/-- The virtual address of a spill slot of the team in focus. -/
def slotAddr (s : State) (slot : Nat) : Nat :=
  (ctxAddr s.job.rcd s.team.idx + spillOff s.job.rcd + 4096 * slot) % 2 ^ 56

/-- The segment of a node number. -/
def findSeg (g : GraphLog) (id : Nat) : Option Seg := g.segs.find? (fun x => x.id == id)

/-- Change a segment. -/
def modSeg (id : Nat) (f : Seg → Seg) (g : GraphLog) : GraphLog :=
  { g with segs := g.segs.map (fun x => if x.id = id then f x else x) }

/-- The scratchpad offset of a node in a resident segment. -/
def nodeOff (s : State) (n : Nat) : Option Nat :=
  match findSeg s.team.log (n / 256) with
  | some g => if g.spilled then none else some (logBase s + 4096 * g.slot + 16 * (n % 256))
  | none => none

/-! ### Raw scratchpad bytes and node images -/

/-- n bytes of the team scratchpad. -/
def spadRd (s : State) (off n : Nat) : List Byte := smGetMany 0 s.team.spad off n

/-- Put bytes into the team scratchpad without touching pins. -/
def spadPut (off : Nat) (bytes : List Byte) (s : State) : State :=
  onT (fun t => { t with
    spad := smSetMany 0 t.spad off bytes
    spadBad := clearBad t.spadBad off bytes.length }) s

/-- What the device last wrote at a node. -/
def nodeImg (g : GraphLog) (n : Nat) : List Byte := smGetMany 0 g.img (16 * n) 16

/-- The device writes bytes i on of a node: its image, and the scratchpad when it is resident. -/
def nodePut (n i : Nat) (bytes : List Byte) (s : State) : State :=
  let s1 := onLog (fun g => { g with img := smSetMany 0 g.img (16 * n + i) bytes }) s
  match nodeOff s n with
  | some off => spadPut (off + i) bytes s1
  | none => s1

/-- The counts of nodes no longer stand: a program store altered one of them, or one whose children they are (R242).
(DEDUCED, unsafe: notes/assumptions/36.md) -/
def taint (l : List Nat) (s : State) : State := onLog (fun g => { g with tainted := (l ++ g.tainted).eraseDups }) s

/-- COUNT of node bytes. -/
def nodeCount (b : List Byte) : Nat := bytesToNat ((b.drop 2).take 2)

/-- A count after a change: 0xFFFF stays (R238). -/
def countStep (up : Bool) (c : Nat) : Nat := if c = 0xFFFF then c else if up then c + 1 else c - 1

/-- The bytes of a node wherever it lies, read as the scheduler does in a spill slot. -/
def readNode (s : State) (n : Nat) : Except XFail (Option (List Byte × Bool)) :=
  match findSeg s.team.log (n / 256) with
  | none => .ok none
  | some g =>
    if g.spilled then do
      let (b, bad, _) ← homeRead (ctxAsker (coreOf s) s) (slotAddr s g.slot + 16 * (n % 256)) 16 s
      .ok (some (b, bad))
    else
      let off := logBase s + 4096 * g.slot + 16 * (n % 256)
      .ok (some (spadRd s off 16, badAt s.team.spadBad off 16))

/-- The device writes bytes i on of a node wherever it lies. -/
def writeNode (n i : Nat) (bytes : List Byte) (s : State) : Except XFail State :=
  match findSeg s.team.log (n / 256) with
  | none => .ok s
  | some g =>
    if g.spilled then do
      let t ← homeWrite (ctxAsker (coreOf s) s) none (slotAddr s g.slot + 16 * (n % 256) + i) bytes s
      .ok (nodePut n i bytes t)
    else .ok (nodePut n i bytes s)

/-- A node's count has gone from c to c': one that falls to zero is the walker's, with the interval of the newest
decrement. -/
def countNote (up : Bool) (k n c c' : Nat) (s : State) : State :=
  onLog (fun l => { l with
    zeros := if up then l.zeros.filter (· != n)
      else if c' = 0 ∧ c ≠ 0xFFFF ∧ !l.zeros.contains n then l.zeros ++ [n] else l.zeros
    decAt := if up || !isDet s then l.decAt else smMod 0 l.decAt n (max k) }) s

/-- The node a pinned granule names. -/
def pinNode (s : State) (g : Nat) : Nat := bytesToNat (spadRd s (16 * g + 12) 4) % 2 ^ 30

/-- Release the pin of a granule, if it has one, lowering its node's count in a given way (R241). -/
def unpinBy (dec : Nat → State → State) (g : Nat) (s : State) : State :=
  if smGet false s.team.pins g then dec (pinNode s g) (onT (fun t => { t with pins := smDel t.pins g }) s) else s

/-- Release the pin of the granule that a resident node lies in, before the device writes there (R241). -/
def unpinNodeBy (dec : Nat → State → State) (n : Nat) (s : State) : State :=
  match nodeOff s n with
  | some off => unpinBy dec (off / 16) s
  | none => s

/-- Raise or lower a node's count where the node lies, by an access of the scheduler in a spill slot; k is the interval. -/
def countIn (dec : Nat → State → State) (up : Bool) (k n : Nat) (s : State) : Except XFail State := do
  let s0 := unpinNodeBy dec n s
  match ← readNode s0 n with
  | none => .ok (taint [n] s0)
  | some (b, _) =>
    let c := nodeCount b
    let c' := countStep up c
    let t ← writeNode n 2 (natToBytes 2 c') (if b = nodeImg s0.team.log n then s0 else taint [n] s0)
    .ok (countNote up k n c c' t)

/-- A node lies in a spill slot. -/
def nodeSpilled (s : State) (n : Nat) : Bool := (findSeg s.team.log (n / 256)).any (·.spilled)

/-- Raise or lower a node's count (R238): an increment at once, a decrement in a spill slot by the walker, which also makes
an increment whose access there meets a fault. -/
def countBy (dec : Nat → State → State) (up : Bool) (k n : Nat) (s : State) : State :=
  let later := onLog (fun l => { l with pend := l.pend ++ [(n, up, k)] }) s
  if !up && nodeSpilled s n then later
  else match countIn dec up k n s with
    | .ok t => t
    | .error _ => later

/-- One reference to a node fewer; a pin that its count releases is one of at most f. -/
def decBy : Nat → Nat → State → State
  | 0, n, s => countBy (fun _ t => t) false (intervalOf s) n s
  | f + 1, n, s => countBy (decBy f) false (intervalOf s) n s

/-- One reference to a node fewer. -/
def decNode (n : Nat) (s : State) : State := decBy s.team.pins.length n s
/-- Raise or lower a node's count. -/
def countNode (up : Bool) (k n : Nat) (s : State) : State := countBy decNode up k n s
/-- One more reference to a node. -/
def incNode (n : Nat) (s : State) : State := countNode true 0 n s
/-- Release the pin of a granule, if it has one. -/
def unpin (g : Nat) (s : State) : State := unpinBy decNode g s

/-! ### Opening segments and appending (R237, R240) -/

/-- The lowest number below a bound that a list does not hold. -/
def lowestFree (bound : Nat) (l : List Nat) : Option Nat := (List.range bound).find? (fun i => !l.contains i)

/-- Frames in use, frozen ones included. -/
def framesUsed (g : GraphLog) : List Nat := (g.segs.filter (fun x => !x.spilled)).map (·.slot) ++ g.frozenFrames.map (·.1)
/-- Spill slots in use, frozen ones included. -/
def slotsUsed (g : GraphLog) : List Nat := (g.segs.filter (fun x => x.spilled)).map (·.slot) ++ g.frozenSlots.map (·.1)

/-- The resident segment opened earliest, other than the current one. -/
def oldestResident (g : GraphLog) : Option Seg :=
  (g.segs.filter (fun x => !x.spilled && g.cur != some x.id)).foldl (fun best x =>
    match best with
    | none => some x
    | some b => if x.order < b.order then some x else best) none

/-- What an append of n nodes needs before it can go on. -/
inductive Room where
  | ready
  | spill (seg : Nat)
  | full (reason : Nat)
  deriving DecidableEq, Repr

/-- Whether n nodes fit (R237, R240). -/
def logRoom (s : State) (n : Nat) : Room :=
  let g := s.team.log
  let left := match g.cur with
    | some _ => 256 - g.next
    | none => 0
  if n ≤ left then .ready
  else if s.job.rcd.logsz = 0 then .full 3
  else if (lowestFree (logFrames s) (framesUsed g)).isSome then .ready
  else if s.team.spillsz = 0 then .full 2
  else if (lowestFree (spillSlots s.team.spillsz) (slotsUsed g)).isNone then .full 1
  else match oldestResident g with
    | some x => .spill x.id
    | none => .full 1

/-- Give a segment's frame or slot and its identifier back; a deterministic job slice freezes them until the first flush
after the decrement that freed them (R239). -/
def dropSeg (id : Nat) (s : State) : State :=
  match findSeg s.team.log id with
  | none => s
  | some x =>
    let freeze := isDet s && decide (s.job.flushK ≤ x.freedIn)
    onLog (fun g => { g with
      segs := g.segs.filter (fun y => y.id != id)
      frozenFrames := if freeze && !x.spilled then (x.slot, x.freedIn) :: g.frozenFrames else g.frozenFrames
      frozenSlots := if freeze && x.spilled then (x.slot, x.freedIn) :: g.frozenSlots else g.frozenSlots
      frozenIds := if freeze then (id, x.freedIn) :: g.frozenIds else g.frozenIds }) s

/-- Open the next segment; room is known to exist. -/
def openSeg (s : State) : State :=
  let g := s.team.log
  let id := (lowestFree (g.segs.length + g.frozenIds.length + 1) (g.segs.map (·.id) ++ g.frozenIds.map (·.1))).getD 0
  let f := (lowestFree (logFrames s) (framesUsed g)).getD 0
  let s1 := match g.cur with
    | some c => match findSeg g c with
      | some x => if x.used = 0 then dropSeg c s else s
      | none => s
    | none => s
  onLog (fun l => { l with
    segs := l.segs ++ [⟨id, false, f, l.opened, 0, 0⟩], cur := some id, next := 0, opened := l.opened + 1 }) s1

/-- A node before it is appended: opcode, whether a square root stands in it, and its three fields. -/
structure NodeSpec where
  opc : Nat
  sqrt : Bool
  left : Nat
  right : Nat
  aux : Nat
  kids : List Nat
  deriving DecidableEq, Repr

/-- Child nodes that node bytes name, by opcode (R236). -/
def nodeKids (b : List Byte) : List Nat :=
  let h := fun (i : Nat) => bytesToNat ((b.drop i).take 4)
  let l := match (nth 0 b 0).toNat with
    | 0x10 | 0x11 | 0x12 | 0x14 => [h 4, h 8]
    | 0x13 => [h 4, h 8, h 12]
    | 0x15 | 0x16 => [h 4]
    | _ => []
  (l.filter (fun x => x / 2 ^ 30 == 1)).map (· % 2 ^ 30)

/-- Something still names a node: a tagged register, a live node's child field, a pin, or a change of its count to come. -/
def nodeNamed (s : State) (n : Nat) : Bool :=
  let g := s.team.log
  ((allCrews s).filter (fun c => c.key.job = s.crew.key.job && c.key.team = s.crew.key.team)).any (fun c =>
    c.ln.regs.htags.any (fun p => (smGet 0 c.ln.regs.vregs p.1).toNat % 2 ^ 30 == n)) ||
  g.segs.any (fun x => (List.range 256).any (fun i => (nodeKids (nodeImg g (256 * x.id + i))).contains n)) ||
  s.team.pins.any (fun p => pinNode s p.1 == n) || g.pend.any (fun p => p.1 == n)

/-- A number that a new node takes is an altered node's no longer, unless something still names that node (R242).
(DEDUCED, unsafe: notes/assumptions/36.md) -/
def untaint (n : Nat) (s : State) : State :=
  if s.team.log.tainted.contains n && !nodeNamed s n then
    onLog (fun g => { g with tainted := g.tainted.filter (· != n) }) s
  else s

/-- AppendNode (R167, R237, R238): the node number; children are counted, the node's own count is 0. A pin of its granule
is released first (R241). -/
def appendNode (x : NodeSpec) (s : State) : Nat × State :=
  let s1 := match s.team.log.cur with
    | some _ => if s.team.log.next < 256 then s else openSeg s
    | none => openSeg s
  let g := s1.team.log
  let seg := g.cur.getD 0
  let n := 256 * seg + g.next
  let bytes := natToBytes 1 x.opc ++ natToBytes 1 (if x.sqrt then 1 else 0) ++ natToBytes 2 0 ++
    natToBytes 4 x.left ++ natToBytes 4 x.right ++ natToBytes 4 x.aux
  let s2 := onLog (fun l => modSeg seg (fun y => { y with used := y.used + 1 })
    { l with
      next := l.next + 1
      sqrts := if x.sqrt then (if l.sqrts.contains n then l.sqrts else n :: l.sqrts)
               else l.sqrts.filter (· != n) }) s1
  (n, x.kids.foldl (fun t k => incNode k t) (nodePut n 0 bytes (untaint n (unpinNodeBy decNode n s2))))

/-! ### Stores to the scratchpad (R241) -/

/-- The 16-byte granules that n bytes at an offset overlap. -/
def granulesOf (off n : Nat) : List Nat := (List.range ((off + n + 15) / 16 - off / 16)).map (· + off / 16)

/-- Store bytes to the team scratchpad: pins are released first. -/
def spadWr (off : Nat) (bytes : List Byte) (s : State) : State :=
  spadPut off bytes ((granulesOf off bytes.length).foldl (fun t g => unpin g t) s)

/-! ### The walker (R239) -/

/-- Reclaim a node whose count is zero: mark its slot free, lower its children's counts, and give its segment
back when it was the last. Where the node's count or bytes do not stand, its children's counts no longer do. -/
def reclaimNode (n : Nat) (s : State) : Except XFail State := do
  let s0 := unpinNodeBy decNode n s
  match ← readNode s0 n with
  | none => .ok (taint [n] s0)
  | some (b, _) =>
    let img := nodeImg s0.team.log n
    let k := smGet 0 s0.team.log.decAt n
    let s1 := if b = img ∧ !s0.team.log.tainted.contains n then s0 else taint (n :: nodeKids b ++ nodeKids img) s0
    let s2 ← writeNode n 0 [0] s1
    let s3 := (nodeKids b).foldl (fun t x => countNode false k x t) s2
    let seg := n / 256
    let s4 := onLog (fun g => modSeg seg (fun y => { y with used := y.used - 1, freedIn := max k y.freedIn })
      { g with decAt := smDel g.decAt n }) s3
    .ok (match findSeg s4.team.log seg with
      | some x => if x.used = 0 ∧ s4.team.log.cur ≠ some seg then dropSeg seg s4 else s4
      | none => s4)

/-- The walker's next piece of work: a count change, else a node to reclaim; none when it has nothing to do. -/
def walkerStep (s : State) : Option (Except XFail State) :=
  match s.team.log.pend with
  | (n, up, k) :: r => some (countIn decNode up k n (onLog (fun g => { g with pend := r }) s))
  | [] => match s.team.log.zeros with
    | n :: r => some (reclaimNode n (onLog (fun g => { g with zeros := r }) s))
    | [] => none

/-- The walker has no work left of intervals up to k (R239). -/
def walkedTo (k : Nat) (g : GraphLog) : Bool :=
  g.pend.all (fun p => decide (k < p.2.2)) && g.zeros.all (fun n => decide (k < smGet 0 g.decAt n))

/-- The verbatim copy of the segment being spilled to the lowest free spill slot (R237). -/
def spillSeg (id : Nat) (s : State) : Except XFail State := do
  match findSeg s.team.log id, lowestFree (spillSlots s.team.spillsz) (slotsUsed s.team.log) with
  | some g, some k =>
    let t ← homeWrite (ctxAsker (coreOf s) s) none (slotAddr s k) (spadRd s (logBase s + 4096 * g.slot) 4096) s
    .ok (onLog (fun l => modSeg id (fun y => { y with spilled := true, slot := k }) { l with spilling := none }) t)
  | _, _ => .ok (onLog (fun l => { l with spilling := none }) s)

/-- Release every tagged handle of the crew in focus (R238). -/
def releaseTags (s : State) : State :=
  let r := s.crew.ln.regs
  let s1 := r.htags.foldl (fun t p => decNode ((smGet 0 r.vregs p.1).toNat % 2 ^ 30) t) s
  onRegs (fun x => { x with htags := [] }) s1

end Sys2Proof.Machine
end

