-- ==== Sys2Proof/Machine/Engines.lean ====
section
/-! DEFINITION. What the engines share: operations in flight and their counters, deferred traps, faults of an
engine's access, handles and barriers, and abandoned operations (R182, R202, R204, R207, R224, R252, R269,
R283 to R286, R352, R370). -/

namespace Sys2Proof.Machine

/-! ### Operations in flight -/

/-- Put an operation in flight for the crew in focus; its counter rises (R182). -/
def addOp (o : Op) (s : State) : State := onC (fun c => { c with ops := c.ops ++ [o] }) s

/-- The counter would pass 4,095 (R182). -/
def opFull (s : State) (k : OpClass) : Bool := decide (4095 ≤ outstanding s.crew k)

/-- Replace the first element that satisfies a test. -/
def updFirst {α : Type} (p : α → Bool) (f : α → α) : List α → List α
  | [] => []
  | x :: r => if p x then f x :: r else x :: updFirst p f r

/-- Drop the first element that satisfies a test. -/
def dropFirst {α : Type} (p : α → Bool) : List α → List α
  | [] => []
  | x :: r => if p x then r else x :: dropFirst p r

/-- The first operation of the crew in focus that satisfies a test. -/
def findOp (s : State) (p : Op → Bool) : Option Op := s.crew.ops.find? p

/-- Take the first such operation away. -/
def endOp (p : Op → Bool) (s : State) : State := onC (fun c => { c with ops := dropFirst p c.ops }) s

/-- The first such operation has nothing left to do: it is taken away, or stays outstanding until it is its turn to complete
(R182). -/
def opEnd (p : Op → Bool) (s : State) : State :=
  if (findOp s p).any (behindOlder s.crew) then
    onC (fun c => { c with ops := updFirst p (fun o => { o with kind := .ended }) c.ops }) s
  else endOp p s

/-- Operations that have waited for their turn alone complete (R182). -/
def settleOps (c : Crew) : Crew := { c with ops := c.ops.filter (fun o => o.kind != .ended || behindOlder c o) }

/-- Change the first such operation. -/
def modOp (p : Op → Bool) (f : Op → Op) (s : State) : State := onC (fun c => { c with ops := updFirst p f c.ops }) s

/-- Pend a deferred trap for the crew in focus (R370). -/
def pendTrap (cause : Nat) (info : W64) (due : Due) (s : State) : State :=
  onC (fun c => { c with ptraps := c.ptraps ++ [⟨cause, info, due⟩] }) s

/-- What kind of operation an engine holds: with its crew it names the one, for each engine works on the first operation of
its kind (R182). -/
def opTag (o : Op) : Nat :=
  match o.kind with
  | .copy _ => 1
  | .wload _ _ _ _ => 2
  | .tmul _ => 3
  | .fabric _ => 4
  | .reduce _ => 5
  | .remote _ _ _ => 6
  | .peerAmo _ _ _ _ => 7
  | _ => 0

/-- The name under which the first operation of the crew in focus that satisfies a test waits in a merge entry. -/
def engineWaiter (p : Op → Bool) (source : Nat) (va : W64) (s : State) : IoWaiter :=
  .engine s.crew.key source (((findOp s p).map opTag).getD 0) va

/-- An engine's access for the crew in focus meets a fault at an address as the engine formed it: the operation is held and
waits in the cluster's merge table; with the table full it tries again (R283, R284). -/
def engineFault (p : Op → Bool) (source : Nat) (va : W64) (kind level entryPa access : Nat) (s : State) : State :=
  let mk := mkMerge s.job (clusterOf (coreOf s)) false va.toNat (fld va 55 12) kind level entryPa access source
  match joinMerge mk [engineWaiter p source va s] s with
  | none => s
  | some (_, t) => modOp p (fun o => { o with held := true, collapse := false }) t

/-- A virtual address as a requester forms it: with the aperture of its pointer (R285). -/
def ptrAt (p : W64) (va : Nat) : W64 := BitVec.ofNat 64 (va % 2 ^ 56 + 2 ^ 56 * fld p 63 56)

/-- The scheduler's access for a job slice meets a fault: it waits in the I/O die's merge table (R279, R283). -/
def ioFault (j : Job) (w : IoWaiter) (va : W64) (kind level entryPa access : Nat) (s : State) : State :=
  match joinMerge (mkMerge j 64 false va.toNat (fld va 55 12) kind level entryPa access 6) [w] s with
  | none => s
  | some (_, t) => t

/-- The scheduler's write for a job slice is held under R290: it waits in the I/O die's merge table while the home
collapses the page (R283, R290). -/
def ioHold (j : Job) (w : IoWaiter) (va frame : Nat) (s : State) : State :=
  match joinMerge (mkMerge j 64 true va (va % 2 ^ 56 / 4096) 0 4 frame 1 6) [w] s with
  | none => startCollapse frame s
  | some (_, t) => startCollapse frame t

/-- A waiting access of the scheduler has its answer outstanding (R35). -/
def waitsIo (s : State) (w : IoWaiter) : Bool := s.merges.any (fun m => m.waiters.contains w || m.holds.contains w)

/-- A failed access of the scheduler to a team's context area: a fault waits for its answer, a write to a duplicated
page for the collapse, and anything else fails the job slice with REASON 7 (R298). -/
def contextFail (w : IoWaiter) (va access : Nat) (e : XFail) (s : State) : State :=
  match e with
  | .fault k lv pa => ioFault s.job w (BitVec.ofNat 64 va) k lv pa access s
  | .held f => ioHold s.job w va f s
  | _ => abortJob s.job.take 7 0 s

/-- The pages of n bytes at an offset of the context area of the team in focus, translated for a kind of access; the first
that fails is named by its address as the device forms it from CTXBASE (R285, R298). -/
def areaXlats (kind off n : Nat) (s : State) : Except (Nat × XFail) (List (Nat × Xlat)) :=
  (List.range (ceilDiv n 4096)).mapM (fun i =>
    let va := (ptrAt s.job.rcd.ctxbase (ctxAddr s.job.rcd s.team.idx + off + 4096 * i)).toNat
    match translate s (schedAsker s.job) va kind with
    | .ok x => .ok (va, x)
    | .error e => .error (va, e))

/-- A page in the device's own layout: free bytes (R298). (DESIGN CHOICE, unsafe: notes/assumptions/21.md) -/
def ownPage (s : State) : List Byte :=
  (List.range 512).flatMap (fun i => natToBytes 8 (Config.freeWord (s.free + i)).toNat)

/-- Read or write one page of a context area at its home, for the holders that cache its translation (R280, R298).
(DESIGN CHOICE, unsafe: notes/assumptions/21.md) -/
def areaPage (hs : List (HolderKind × Nat)) (kind : Nat) (s : State) (p : Nat × Xlat) : State :=
  let a := { schedAsker s.job with holders := hs }
  let t := homeSync a (kind == 1) p.2.pa 4096 p.2.coh (noteXlat a kind (p.1 % 2 ^ 56 / 4096) p.2 s)
  if kind = 1 then stored [] p.2.pa 4096 { t with mem := smSetMany 0 t.mem p.2.pa (ownPage t), free := t.free + 512 }
  else t

/-- A frame holds uncorrectable data. -/
def frameBad (s : State) (pa : Nat) : Bool :=
  s.memBad.any (fun (b : Nat × Bool) => b.2 && decide (pa / 8 ≤ b.1 ∧ b.1 < pa / 8 + 512))

/-- Read or write n bytes at an offset of the context area of the team in focus, all of it or nothing: its pages, and the
state after it; otherwise the first page that cannot be read or written, and why (R298).
(DESIGN CHOICE, unsafe: notes/assumptions/21.md) -/
def areaAccess (hs : List (HolderKind × Nat)) (kind off n : Nat) (s : State) :
    Except (Nat × XFail) (List (Nat × Xlat) × State) := do
  let xs ← areaXlats kind off n s
  let t := xs.foldl (areaPage hs kind) s
  match xs.find? (fun p => kind == 0 && frameBad t p.2.pa) with
  | some p => .error (p.1, .bad)
  | none => .ok (xs, t)

/-- Access a part of the context area of the team in focus, and go on; a failure waits for its answer or fails the job slice,
and nothing goes on while one is awaited (R298). (DESIGN CHOICE, unsafe: notes/assumptions/21.md) -/
def areaGo (hs : List (HolderKind × Nat)) (kind off n : Nat) (go : State → State) (s : State) : State :=
  let w := IoWaiter.context s.job.take s.team.idx
  if waitsIo s w then s
  else match areaAccess hs kind off n s with
    | .error (va, e) => contextFail w va kind e s
    | .ok (_, t) => go t

/-- Who holds the translations of context areas that the device reads and writes for a core, and of weight granules (R280). -/
def areaHolders (core : Nat) : List (HolderKind × Nat) := [(.cluster, clusterOf core)]
def granuleHolders (core : Nat) : List (HolderKind × Nat) := [(.matrix, core), (.cluster, clusterOf core)]

/-- The accumulator slots and the weight backing end where the spill area begins (R298). -/
def accSlots (r : Rec) : Nat := spillOff r - 524288 - 16 * 20480
/-- The weight backing. -/
def backing (r : Rec) : Nat := spillOff r - 524288

/-- An access arriving from the fabric fails: a fault makes a record of source 7 and waits for its answer, as does a write
held under R290 for the collapse (R283, R285, R342); none when the I/O die's table is full. -/
def ingressFault (w : IoWaiter) (va access : Nat) (e : XFail) (s : State) : Option State :=
  let j := { Job.reset with root := s.dev.fxroot }
  let mk := fun (held : Bool) (k lv pa : Nat) => mkMerge j 64 held va (va % 2 ^ 56 / 4096) k lv pa access 7
  match e with
  | .fault k lv pa => (joinMerge (mk false k lv pa) [w] s).map (·.2)
  | .held f => (joinMerge (mk true 0 4 f) [w] s).map (fun x => startCollapse f x.2)
  | _ => some s

/-- The access code of an access from the fabric. -/
def remAccess : RemKind → Nat
  | .read _ => 0
  | .write _ => 1
  | .amo _ _ _ _ => 2

/-- An access arriving from a peer is performed, or waits for the answer to its fault, with the I/O die's table full for a
free entry first (R283, R286, R342). -/
def ingressGo (va : Nat) (k : RemKind) (s : State) : State :=
  match ingressDo va k s with
  | .ok (_, _, t) => t
  | .error e => match ingressFault (.ingress va k) va (remAccess k) e s with
    | some t => t
    | none => { s with dev := { s.dev with ingressWait := s.dev.ingressWait ++ [(va, k)] } }

/-- Accesses that waited for a free entry try again (R283). -/
def ingressAgain (s : State) : State :=
  s.dev.ingressWait.foldl (fun t x => ingressGo x.1 x.2 t) { s with dev := { s.dev with ingressWait := [] } }

/-! ### L1 at core scope -/

/-- Acquire at core scope at the end of a wait (R172, R180, R186, R208). -/
def acquireLines (s : State) : State :=
  let core := coreOf s
  dropLines (fun l => l.core == core && l.kind == .ro)
    (wbLines (fun l => l.core == core && l.kind == .swc) true s)

/-- Release at core or cluster scope: dirty SWC lines go home (R172). Stores to HWC pages that the core holds are performed for
its own crews already, and crews of other teams are not ordered at these scopes (R162). -/
def releaseCore (s : State) : State :=
  let core := coreOf s
  wbLines (fun l => l.core == core && l.kind == .swc) false s

/-- Release at die scope or wider: dirty SWC lines go home, and the core's stores to HWC pages that its crews may have seen are
performed (R172, R179). (DESIGN CHOICE, unsafe: notes/assumptions/7.md) -/
def releaseLines (s : State) : State :=
  let core := coreOf s
  wbLines (fun l => l.core == core && (l.kind == .swc || l.kind == .hwc)) false s

/-! ### Running a scalar instruction -/

/-- Accesses of a stream through aperture 0x3 that failed at the peer. -/
def peerFailed (lane : Bool) (o : Op) : Bool :=
  match o.kind with
  | .remote k _ (some (.failed _)) => k == lane
  | _ => false

/-- An instruction that traps or parks has used its issue slot (R308); one that waits uses it when it goes on.
(DEDUCED, unsafe: notes/assumptions/28.md) -/
def slotOf (e : Stop) (s : State) : State :=
  match e with
  | .trap _ _ | .park _ _ _ _ _ _ | .hold _ _ _ | .trapOpen _ | .peer _ => useSlot s
  | .wait _ | .flushWait _ | .remote _ _ => s

/-- What a stop of a scalar instruction, or of its fetch, does beside (R97, R98, R284).
(DESIGN CHOICE, safe: notes/assumptions/2.md) -/
def haltScalar (e : Stop) (s : State) : State :=
  match e with
  | .trap c i => trapScalar c i s.crew.sc.pc s
  | .park ptr va kind level pa acc => parkFault false (acc == 3) 0 0 ptr va kind level pa acc s
  | .hold va frame acc => parkHold false 0 va frame acc s
  | .wait w => onC (fun c => { c with wait := w }) s
  | .flushWait w => onC (fun c => { c with wait := w }) (releaseLines s)
  | .trapOpen c =>
    let (v, s1) := takeFree s
    trapScalar c (v &&& 0xFFFFFFFFFFFFFF) s1.crew.sc.pc s1
  | .remote l rel => onC (fun c => { c with
      wait := .remote
      ops := c.ops ++ [⟨.fabric, .remote false l none, [], c.region.isSome, false, false, c.sieveOrder⟩] })
      (if rel then releaseLines s else s)
  | .peer i => trapScalar 0x17 i s.crew.sc.pc (dropOps (peerFailed false) s)

/-- What a stop does to the machine. -/
def stopScalar (e : Stop) (s : State) : State := haltScalar e (slotOf e s)

/-- Run a scalar instruction whose body also gives the next address. -/
def runTo (body : State → Res (State × W64)) (s : State) : Host.Outcome State Fault Refusal :=
  .next (match body s with
    | .ok (t, pc) => finish pc t
    | .error e => stopScalar e s)

/-- Run a scalar instruction whose body itself finishes it or leaves it waiting. -/
def runSelf (body : State → Res State) (s : State) : Host.Outcome State Fault Refusal :=
  .next (match body s with
    | .ok t => t
    | .error e => stopScalar e s)

/-- Run a one-word scalar instruction. -/
def run (body : State → Res State) (s : State) : Host.Outcome State Fault Refusal :=
  runTo (fun t => (body t).map (fun u => (u, s.crew.sc.pc + 4))) s

/-- Run a long form. -/
def runLong (body : State → Res State) (s : State) : Host.Outcome State Fault Refusal :=
  runTo (fun t => (body t).map (fun u => (u, s.crew.sc.pc + 8))) s

/-- Complete the scalar instruction a crew is blocked in, for an agent that grants it. -/
def grantScalar (k : CrewKey) (f : State → State) (s : State) : State :=
  onCrew k (fun t => finish (t.crew.sc.pc + 4) (f t)) s

/-! ### Returning from a trap (R294) -/

/-- The slices of a set continue at an address, or stop when it is 0; every other gang stays as it is. -/
def redirect (slices : List Nat) (pc : W64) (r : ARun) : ARun :=
  let rest := (r.gangs.map (fun g => { g with members := g.members.filter (fun m => !slices.contains m) })).filter
    (fun g => g.members ≠ [])
  let live := slices.filter (fun i => match nth none (r.slices.map some) i with
    | some t => t.live
    | none => false)
  if pc = 0 then
    { r with
      gangs := rest
      slices := r.slices.mapIdx (fun i t => if slices.contains i then { t with live := false, stack := [] } else t) }
  else if live = [] then { r with gangs := rest }
  else { r with gangs := ⟨pc, live, .ready⟩ :: rest }

/-- A kept arrival at graft after a resume: one that continues elsewhere abandons the wait, and an arrival whose graft is
not complete still counts (R296). -/
def graftBack (pc : W64) (k : Option GraftKept) : Option GraftKept :=
  match k with
  | some x => if x.pc = pc then some x else if x.done.isSome then none else some { x with waits := false }
  | none => none

/-- The body of resume: accepted only in a handler, waits for its runs, checks its addresses, and reinstates
the suspended run with every latch invalid (R65, R121, R294). The next address is trap.pc. -/
def resumeBody (s : State) : Res (State × W64) :=
  match s.crew.handler with
  | none => .error (.trap 0x01 0x5C000005)
  | some h => do
    need (s.crew.ln.hcur.isNone && s.crew.ln.hqueue.isEmpty) (.wait .lanes)
    let t := s.crew.sc.trap
    let out := fun (p : W64) => decide (2 < fld p 63 60 ∨ fld p 59 56 ≠ 0)
    need (!out t.pc) (.trap 0x06 t.pc)
    need (t.lpc == 0 || !out t.lpc) (.trap 0x06 t.lpc)
    need (fld t.pc 1 0 == 0) (.trap 0x07 t.pc)
    need (fld t.lpc 1 0 == 0) (.trap 0x07 t.lpc)
    let s1 := onC (fun c => { c with
      handler := none
      barKept := c.barKept.filter (fun k => k.pc == t.pc)
      graftKept := graftBack t.pc c.graftKept
      ln := { c.ln with
        cur := if h.laneTrap then c.ln.cur.map (redirect h.slices t.lpc) else c.ln.cur } }) s
    .ok (dropLatches s1, t.pc)

/-! ### Handles (R204) -/

/-- The handle of a name in the team in focus. -/
def handleOf (s : State) (h : Nat) : Option Handle := smGet none s.team.handles h

/-- Change a bound handle. -/
def modHandle (h : Nat) (f : Handle → Handle) (s : State) : State :=
  match handleOf s h with
  | none => s
  | some x => onT (fun t => { t with handles := smSet none t.handles h (some (f x)) }) s

/-- A state of a handle. -/
def setHandle (h : Nat) (st : HandleState) (s : State) : State := modHandle h (fun x => { x with st := st }) s

/-- The crews of the team in focus, in crew order. -/
def teamCrews (s : State) : List Crew :=
  let l := (allCrews s).filter (fun c => c.key.job == s.team.job && c.key.team == s.team.idx)
  (List.range 16).filterMap (fun i => l.find? (fun c => c.key.crew == i))

/-- A crew waits for the handle to become full and will claim it. -/
def claims (h : Nat) (c : Crew) : Bool :=
  c.park.isNone && match c.wait with
    | .handleFull x true _ => x == h
    | _ => false

/-- A crew waits for the handle to become full without claiming it. -/
def watches (h : Nat) (c : Crew) : Bool :=
  match c.wait with
  | .handleFull x false _ => x == h
  | .cpYield x _ => x == h
  | _ => false

/-- The lap parity a waiting claimer wants. -/
def lapOk (flap : Bool) (c : Crew) : Bool :=
  match c.wait with
  | .handleFull _ _ (some p) => p == flap
  | _ => true

/-- Where a crew released by a full handle goes on: cp.yield goes to its target (R203). -/
def afterFull (c : Crew) (pc : W64) : W64 :=
  match c.wait with
  | .cpYield _ target => target
  | _ => pc + 4

/-- A fill is complete (R204, R205): the lap bit and fill count advance, the handle is full and passes in the
same step to the first claimer that waits for this fill, and h.wait and cp.yield waiters go on. -/
def handleFilled (h : Nat) (s : State) : State :=
  match handleOf s h with
  | none => s
  | some x =>
    let flap := x.fc % 2 == 1
    let s1 := modHandle h (fun y => { y with flap := flap, fc := y.fc + 1, st := .full }) s
    let crews := teamCrews s1
    let s2 := (crews.filter (watches h)).foldl (fun t c =>
      onCrew c.key (fun u => finish (afterFull c u.crew.sc.pc) u) t) s1
    match crews.find? (fun c => claims h c && lapOk flap c) with
    | some c => onCrew c.key (fun u => finish (u.crew.sc.pc + 4) (acquireLines u)) (setHandle h .draining s2)
    | none => s2

/-! ### Barriers (R207) -/

/-- The barrier of a name in the team in focus. -/
def barrierOf (s : State) (b : Nat) : Option Barrier := smGet none s.team.barriers b

/-- A crew waits in bar.meet or bar.hold on a barrier. -/
def waitsBar (b : Nat) (c : Crew) : Bool :=
  match c.wait with
  | .barMeet x _ => x == b
  | .barHold x => x == b
  | _ => false

/-- A crew's kept arrival is on a barrier whose phase is not complete (R296). -/
def keepsBar (b : Nat) (c : Crew) : Bool :=
  match c.barKept with
  | some k => k.bar == b && k.done.isNone
  | none => false

/-- Waiters on a barrier: a kept arrival counts as one. -/
def barWaiters (b : Nat) (s : State) : Nat :=
  ((teamCrews s).map (fun c => (if waitsBar b c then 1 else 0) + (if keepsBar b c then 1 else 0))).foldl (· + ·) 0

/-- The clock of a crew released by a flush (R319). -/
def raiseClock (flush : Option Nat) (s : State) : State :=
  match flush with
  | some k => onC (fun c => { c with clock := max c.clock ((k + 1) * flushF s.job) }) s
  | none => s

/-- What a phase completion does to the wait of the crew in focus (R207): a wait for a later phase is one nearer; a
wait for this phase ends, with acquire at core scope. -/
def barRelease (b : Nat) (flush : Option Nat) (s : State) : State :=
  let go := fun (t : State) => raiseClock flush (finish (t.crew.sc.pc + 4) (acquireLines t))
  match s.crew.wait with
  | .barMeet x (a + 1) => if x = b then onC (fun c => { c with wait := .barMeet b a }) s else s
  | .barMeet x 0 => if x = b then go s else s
  | .barHold x => if x = b then go s else s
  | _ => s

/-- What a phase completion does to a kept arrival. -/
def keptRelease (b : Nat) (flush : Option Nat) (c : Crew) : Crew :=
  { c with barKept := c.barKept.map (fun k =>
      if k.bar = b ∧ k.done = none then
        match k.ahead with
        | a + 1 => { k with ahead := a }
        | 0 => { k with done := some (flush.getD 0) }
      else k) }

/-- An entry without a binding returns to the pool when no copy refers to it (R207).
(DEDUCED, unsafe: notes/assumptions/27.md) -/
def barCollect (b : Nat) (s : State) : State :=
  match barrierOf s b with
  | some x => if 32 ≤ b ∧ x.copies = 0 then onT (fun t => { t with barriers := smDel t.barriers b }) s else s
  | none => s

/-- The first phase of a barrier is over: PH inverts and its waiters are released together (R207). -/
def barComplete (b : Nat) (x : Barrier) (flush : Option Nat) (s : State) : State :=
  let x' := { x with ph := !x.ph, arrs := x.arrs.drop x.exp, pend := 0, touched := false }
  let s1 := onT (fun t => { t with barriers := smSet none t.barriers b (some x') }) s
  (teamCrews s1).foldl (fun t c => onCrew c.key (fun u => barRelease b flush (onC (keptRelease b flush) u)) t) s1

/-- Complete phases whose arrivals are in while PEND = 0 (R207). In deterministic mode a phase that no copy and no
bar.pend touched is completed by the flush alone (R318, R319). -/
def barCheck (b : Nat) : Nat → State → State
  | 0, s => barCollect b s
  | n + 1, s =>
    match barrierOf s b with
    | none => s
    | some x =>
      if x.exp ≤ x.arrs.length ∧ x.pend = 0 ∧ (!isDet s || x.touched) then barCheck b n (barComplete b x none s)
      else barCollect b s

/-- Change a bound barrier, then see whether its phase is complete. -/
def barUpdate (b : Nat) (f : Barrier → Barrier) (s : State) : State :=
  match barrierOf s b with
  | none => s
  | some x =>
    let y := f x
    barCheck b (y.arrs.length + 1) (onT (fun t => { t with barriers := smSet none t.barriers b (some y) }) s)

/-! ### Operations abandoned (R202, R224, R269, R286, R352) -/

/-- A copy operation. -/
def isCopy (o : Op) : Bool := match o.kind with
  | .copy _ => true
  | _ => false

/-- The first copy in flight. -/
def firstCopy (s : State) : Option (Op × CopyOp) :=
  (findOp s isCopy).bind (fun o => match o.kind with
    | .copy c => some (o, c)
    | _ => none)

/-- Abandon the first copy: the handle returns to free, the counter falls, no arrival, and the crew takes a
deferred trap (R202). -/
def abandonCopy (cause : Nat) (s : State) : State :=
  match firstCopy s with
  | none => s
  | some (_, c) =>
    let s1 := pendTrap cause (BitVec.ofNat 64 c.handle) (.handle c.handle)
      (setHandle c.handle .free (endOp isCopy s))
    match c.bar with
    | none => s1
    | some b => barUpdate b (fun x => { x with copies := x.copies - 1 }) s1

/-- Abandon an operation that satisfies a test, with a deferred trap (R224, R269, R352). -/
def abandonOp (p : Op → Bool) (cause : Nat) (info : W64) (due : Due) (s : State) : State :=
  pendTrap cause info due (endOp p s)

/-- Bytes of the weight space become zero (R224); of an abandoned load those are its blocks, which alone were being copied.
(DESIGN CHOICE, unsafe: notes/assumptions/64.md) -/
def zeroWeights (off n : Nat) (s : State) : State :=
  onT (fun t => { t with weights := smSetMany 0 t.weights off (List.replicate n 0) }) s

/-- An operation of the engine's order: mat.wload, mloop, mat.zero, mat.drain, sp.tmul. -/
def isEngine (o : Op) : Bool :=
  match o.kind with
  | .wload _ _ _ _ | .mloop _ | .mzero _ _ | .mdrain _ | .tmul _ => true
  | _ => false

/-- Drop the n-th entry of a name from a list. -/
def dropNth (k : CrewKey) : Nat → List CrewKey → List CrewKey
  | _, [] => []
  | 0, x :: r => if x = k then r else x :: dropNth k 0 r
  | n + 1, x :: r => if x = k then x :: dropNth k n r else x :: dropNth k (n + 1) r

/-- Take the entry of the first operation that satisfies a test, which is still in flight, out of its core's engine order
(R220). -/
def engineDone (p : Op → Bool) (s : State) : State :=
  let n := (s.crew.ops.filter isEngine).findIdx p
  let c := coreOf s
  { s with cores := smMod CoreSt.reset s.cores c (fun x => { x with engine := dropNth s.crew.key n x.engine }) }

/-- SHAPE of a bank is set as an operation's issue sets it, whether or not the operation was performed (R226, R269). -/
def shapeBank (b f : Nat) (s : State) : State :=
  onC (fun c => { c with banks := smMod none c.banks b (·.map (fun x => { x with shape := some (x.shape.getD f) })) }) s

/-! ### Fabric operations that a peer cannot complete (R188, R352) -/

/-- This device's number. -/
def fxSelf (s : State) : Nat := s.dev.fxself.toNat % 4096

/-- A fabric-class operation that has not been answered. -/
def isFab (o : Op) : Bool := o.cls == .fabric && opLive o

/-- Trap "fabric peer error" detail. -/
def peerInfo (reason peer : Nat) : W64 := BitVec.ofNat 64 (reason * 4096 + peer % 4096)

/-- The reason of R352 for a translation that ends in a fault of a kind at this device as the peer. -/
def peerReason (kind : Nat) : Nat := if 2 ≤ kind ∧ kind ≤ 4 then 3 else 2

/-- The gang that waits for its vamo's release. -/
def waitingVamo (s : State) : Option Gang :=
  (curRun s.crew).bind (fun r => r.gangs.find? (fun g => match g.wait with
    | .released _ => true
    | _ => false))

/-- That gang goes on. -/
def readyVamo (s : State) : State :=
  setRun ((curRun s.crew).map (fun r => { r with gangs := r.gangs.map (fun g => match g.wait with
    | .released _ => { g with wait := .ready }
    | _ => g) })) s

/-- The answers of lanes still at a peer are written nowhere. -/
def forgetPeers (s : State) : State :=
  onC (fun c => { c with ops := c.ops.map (fun o => match o.kind with
    | .peerAmo k x a _ => if a.lane = 32 then o else { o with kind := .peerAmo k x a 1025 }
    | _ => o) }) s

/-- An atomic or scatter-add that a flush sent to a peer cannot be completed there: the precise trap 0x17 at an atomic, a
deferred one for a scatter-add (R188, R352). (DEDUCED, unsafe: notes/assumptions/27.md) -/
def peerFail (a : AmoOp) (d : Nat) (info : W64) (s : State) : State :=
  if d = 1025 then abandonOp isFab 0x17 info .fabric s
  else
    let t := endOp isFab s
    if a.lane = 32 then trapScalar 0x17 info (t.crew.sc.pc - 4) t
    else match waitingVamo t with
      | some g => trapLane 0x17 info (g.pc - 12) (BitVec.ofNat 64 (2 ^ a.lane)) g.members (readyVamo (forgetPeers t))
      | none => t

/-- A fabric operation of the crew in focus cannot be completed at a peer, with trap.info of 0x17 (R352). -/
def fabLost (o : Op) (info : W64) (s : State) : State :=
  match o.kind with
  | .remote lane l _ =>
    if s.crew.status = .complete then endOp isFab s
    else modOp isFab (fun x => { x with kind := .remote lane l (some (.failed info)) }) s
  | .fabric _ | .reduce _ => abandonOp isFab 0x17 info .fabric s
  | .peerAmo _ _ a d => peerFail a d info s
  | _ => s

/-- The operation that waits in a merge entry under a name of engineWaiter. -/
def heldBy (tag : Nat) (o : Op) : Bool := o.held && opTag o == tag

/-- A waiting engine abandons its operation under its own rule (R286): the source of its record, the kind of its operation,
the trap cause, and the faulting address and kind. Source 7 is an access of this device to itself through the fabric (R342,
R352). -/
def failEngine (src tag cause : Nat) (va : W64) (kind : Nat) (s : State) : State :=
  if src = 5 then
    setRun ((curRun s.crew).map (fun r => { r with gangs := r.gangs.map (fun g => match g.wait with
      | .refine w l => { g with wait := .refine w (fld va 55 12 :: l) }
      | _ => g) })) s
  else match findOp s (heldBy tag) with
    | none => s
    | some o =>
      if src = 7 then fabLost o (peerInfo (peerReason kind) (fxSelf s)) s
      else match o.kind with
      | .copy _ => abandonCopy cause s
      | .wload _ woff hdr len =>
        abandonOp (heldBy tag) cause (BitVec.ofNat 64 woff) .matrix (zeroWeights (woff + hdr) (len - hdr) (engineDone (heldBy tag) s))
      | .tmul t => abandonOp (heldBy tag) cause (BitVec.ofNat 64 t.tile) .matrix (shapeBank t.bank 2 (engineDone (heldBy tag) s))
      | .fabric _ => abandonOp (heldBy tag) cause (BitVec.ofNat 64 (fld va 55 0 + 2 ^ 56 * kind)) .fabric s
      | .reduce _ => abandonOp (heldBy tag) cause (BitVec.ofNat 64 (fld va 55 0 + 2 ^ 56 * kind)) .fabric s
      | _ => s

/-- The engine tries its held operation again. -/
def retryEngine (tag : Nat) (s : State) : State := modOp (heldBy tag) (fun o => { o with held := false }) s

end Sys2Proof.Machine
end

