-- ==== Sys2Proof/Machine/DevReg.lean ====
section
/-! DEFINITION. The device-control registers: what each reads as, and what a write does (R19, R170, R171, R210,
R275, R282 to R289, R296, R304, R312, R326, R342, R354 to R367). -/

namespace Sys2Proof.Machine

/-- Change the device registers. -/
def onDev (f : DevRegs → DevRegs) (s : State) : State := { s with dev := f s.dev }

/-- Signal an MSI-X vector (R353). (DESIGN CHOICE, safe: notes/assumptions/41.md) -/
def signal (v : Nat) (s : State) : State := onDev (fun d => { d with msi := smMod 0 d.msi v (· + 1) }) s

/-! ### Queues and the banks behind them (R18, R19, R170, R171, R210) -/

/-- Capacity in QCTL. -/
def qCap (ctl : W64) : Nat := fld ctl 16 0
/-- EN. -/
def qEn (ctl : W64) : Bool := ctl.getLsbD 63
/-- WORLD. -/
def qSecure (ctl : W64) : Bool := ctl.getLsbD 56

/-- Bytes of one cluster SRAM bank. -/
def bankBytes : Nat := 131072

/-- The banks (64 × cluster + bank) behind a queue of entries of a size (R18, R365). -/
def qBanks (ctl : W64) (size : Nat) : List Nat :=
  (List.range (ceilDiv (qCap ctl * size) bankBytes)).map (fun i => 64 * fld ctl 53 48 + (fld ctl 45 40 + i) % 64)

/-- Pushes and pops of a queue are refused: a bank behind it leaves or has left FIFO mode (R171). -/
def qRefused (s : State) (ctl : W64) (size : Nat) : Bool :=
  (qBanks ctl size).any (fun b =>
    let r := smGet BankReg.reset s.bankRegs b
    r.left || (r.busy && r.cur == 2))

/-- Slice queue q. -/
def sliceQ (s : State) (q : Nat) : SliceQueue := smGet SliceQueue.reset s.queues q
/-- Change slice queue q. -/
def modQ (q : Nat) (f : SliceQueue → SliceQueue) (s : State) : State :=
  { s with queues := smMod SliceQueue.reset s.queues q f }
/-- Data queue n. -/
def dataQ (s : State) (n : Nat) : DataQueue := smGet DataQueue.reset s.dataQueues n
/-- Change data queue n. -/
def modDQ (n : Nat) (f : DataQueue → DataQueue) (s : State) : State :=
  { s with dataQueues := smMod DataQueue.reset s.dataQueues n f }

/-- A write of QCTL or DQCTL: while EN is 1 only a write that clears EN takes effect (R365); a write that sets EN
with a capacity out of range is ignored. (DEDUCED, unsafe: notes/assumptions/13.md) Bits without a field are dropped.
(DESIGN CHOICE, unsafe: notes/assumptions/61.md) -/
def newCtl (old v : W64) : W64 :=
  if qEn old && qEn v then old
  else if qEn v && (decide (qCap v < 64) || decide (65536 < qCap v)) then old
  else v &&& 0x813F3F000001FFFF

/-- QCTL write. (DEDUCED, unsafe: notes/assumptions/13.md) -/
def setQctl (q : Nat) (v : W64) (s : State) : State := modQ q (fun x => { x with qctl := newCtl x.qctl v }) s
/-- DQCTL write. (DEDUCED, unsafe: notes/assumptions/13.md) -/
def setDqctl (n : Nat) (v : W64) (s : State) : State := modDQ n (fun x => { x with ctl := newCtl x.ctl v }) s
/-- QSTAT: a write of 1 to bit 0 clears the overflow status (R18). -/
def clearQstat (q : Nat) (v : W64) (s : State) : State :=
  if v.getLsbD 0 then modQ q (fun x => { x with qstat := false }) s else s

/-- Slice queue records in a bank that leaves FIFO mode, as (queue, index) of the first. -/
def recInBank (s : State) (b : Nat) : Option (Nat × Nat) :=
  (s.queues.filterMap (fun p =>
    if (qBanks p.2.qctl 128).contains b && !p.2.recs.isEmpty then some (p.1, 0) else none)).head?

/-- Each slice record held in the bank fails with REASON 10 (R171).
(DESIGN CHOICE, unsafe: notes/assumptions/55.md) -/
def discardRecs (b : Nat) : Nat → State → State
  | 0, s => s
  | n + 1, s => match recInBank s b with
    | none => s
    | some (q, i) => discardRecs b n (failRecord q i 10 s)

/-- A bank mode register as it reads (R170); WORLD takes a new value with CUR (R171 step 5). -/
def bankWord (r : BankReg) : Nat :=
  r.mode + 16 * r.cur + (if r.world then 256 else 0) + (if r.done then 2 ^ 30 else 0) + (if r.busy then 2 ^ 31 else 0)

/-- A write of a bank mode register (R170, R171 step 1). -/
def setBankMode (cluster bank v : Nat) (s : State) : State :=
  let b := 64 * cluster + bank
  let r := smGet BankReg.reset s.bankRegs b
  let mode := v % 4
  let world := v.testBit 8
  if mode = 3 ∨ r.busy then s
  else
    let r1 := if v.testBit 30 then { r with done := false } else r
    let r2 := if mode = r.mode ∧ world = r.nextWorld then r1
      else { r1 with busy := true, done := false, mode := mode, nextWorld := world
                     left := r.left || (r.cur == 2 && mode != 2) }
    { s with bankRegs := smSet BankReg.reset s.bankRegs b r2 }

/-- A place lies in a cluster SRAM bank. -/
def locInBank (cluster bank : Nat) : Loc → Bool
  | .cspad c off => c == cluster && off / bankBytes == bank
  | _ => false

/-- An atomic or a scatter-add to the bank has begun and is not applied yet (R171 step 2); a deterministic job slice's
waits in the Sieve. -/
def bankInUse (s : State) (cluster bank : Nat) : Bool :=
  let p := locInBank cluster bank
  (allCrews s).any (fun c =>
    c.ops.any (fun o => match o.kind with
      | .amo a => p a.loc
      | .vamo l _ => l.any (fun a => p a.loc)
      | .scatAdd l => l.any (fun x => p x.loc)
      | _ => false) ||
    c.sieve.any (fun e => match e.kind with
      | .amo a | .vamo a _ => p a.loc
      | .add x => p x.loc
      | _ => false))

/-- The end of a transition (R171 steps 2 to 5). Lines of cache-mode banks are coherent copies and need no
write-back here; the bank is zeroed when it enters scratchpad or FIFO mode or changes world. Of a queue that several banks
back, every entry and every record counts as held in the bank that leaves FIFO mode.
(DESIGN CHOICE, unsafe: notes/assumptions/55.md) -/
def finishBank (cluster bank : Nat) (s : State) : State :=
  let b := 64 * cluster + bank
  let r := smGet BankReg.reset s.bankRegs b
  if !r.busy || bankInUse s cluster bank then s
  else
    let base := 2 ^ 23 * cluster + bankBytes * bank
    let inBank := fun (k : Nat) => decide (base ≤ k) && decide (k < base + bankBytes)
    let inWord := fun (k : Nat) => inBank (8 * k)
    let clear := r.mode != 0 || r.world != r.nextWorld || r.cur == 1
    let s1 := if clear then
        { s with cspad := s.cspad.filter (fun p => !inBank p.1), cspadBad := s.cspadBad.filter (fun p => !inWord p.1) }
      else s
    let s2 := if r.cur = 2 then discardRecs b (queuedCount s1)
        { s1 with dataQueues := s1.dataQueues.filterMap (fun p =>
            let q := if (qBanks p.2.ctl 8).contains b then { p.2 with entries := [], bad := [] } else p.2
            if q = DataQueue.reset then none else some (p.1, q)) } else s1
    let r' := { r with cur := r.mode, world := r.nextWorld, busy := false, done := true, left := r.left && r.mode != 2 }
    { s2 with bankRegs := smSet BankReg.reset s2.bankRegs b r' }

/-! ### Rings (R367): 0 and 1 the fault queues, 2 and 3 the event queues, 4 + d the monitor queues -/

/-- A ring. -/
def ringOf (s : State) (r : Nat) : Ring := smGet ⟨0, 0, 0, 0⟩ s.rings r
/-- Change a ring. -/
def modRing (r : Nat) (f : Ring → Ring) (s : State) : State := { s with rings := smMod ⟨0, 0, 0, 0⟩ s.rings r f }

/-- A SIZE the ring can run with. -/
def ringSizeOk (r : Ring) : Bool :=
  decide (64 ≤ r.size.toNat) && decide (r.size.toNat ≤ 65536) && decide (2 ^ Nat.log2 r.size.toNat = r.size.toNat)

/-- Records written and not consumed. -/
def ringUsed (r : Ring) : Nat := (r.tail - r.head).toNat

/-- The ring has room for a record. -/
def ringRoom (r : Ring) : Bool := ringSizeOk r && decide (ringUsed r < r.size.toNat)

/-- A HEAD write forward, never past TAIL (R367). -/
def setRingHead (r : Nat) (v : W64) (s : State) : State :=
  modRing r (fun x => if (v - x.head).toNat ≤ ringUsed x then { x with head := v } else x) s

/-- A BASE or SIZE write; HEAD and TAIL become 0 (R367). -/
def setRingBase (r : Nat) (isSize : Bool) (v : W64) (s : State) : State :=
  modRing r (fun x => if isSize then ⟨x.base, v, 0, 0⟩ else ⟨v, x.size, 0, 0⟩) s

/-- The rings of the secure world. -/
def ringSecure (r : Nat) : Bool := r == 1 || r == 3

/-- Write a record into a ring that has room, in the ring's world: a slot of a non-secure ring in a secure frame is not
written (R304, R367). (DEDUCED, unsafe: notes/assumptions/14.md) -/
def ringPut (r : Nat) (bytes : List Byte) (s : State) : State :=
  let x := ringOf s r
  let pa := x.base.toNat + x.tail.toNat % x.size.toNat * bytes.length
  let s1 := if ringSecure r || !secureFrame s (pa / 4096 * 4096) then memWr none pa bytes s else s
  modRing r (fun y => { y with tail := y.tail + 1 }) s1

/-! ### FRESP (R286) -/

/-- A crew waits in a merge entry. -/
def parkedIn (table entry : Nat) (c : Crew) : Bool :=
  match c.park with
  | some p => p.table == table && p.entry == entry
  | none => false

/-- A gang that a fault had parked issues again. -/
def unparkRun (r : ARun) : ARun :=
  { r with gangs := r.gangs.map (fun g => if g.wait = .parked then { g with wait := .ready } else g) }

/-- A parked sp.part goes on (R262). -/
def unparkPart (o : Op) : Op :=
  match o.kind with
  | .part d ptr m p share _ => { o with kind := .part d ptr m p share false }
  | _ => o

/-- A crew leaves its merge entry and will issue again. -/
def unpark (c : Crew) : Crew :=
  { c with park := none, ops := c.ops.map unparkPart, ln := { c.ln with cur := c.ln.cur.map unparkRun, hcur := c.ln.hcur.map unparkRun } }

/-- The trap cause of a fault answered with fail: 0x08 for kinds 1, 5 and 6, 0x09 for kinds 2 to 4 (R286). -/
def failCause (kind : Nat) : Nat := if 2 ≤ kind ∧ kind ≤ 4 then 0x09 else 0x08

/-- The trap of a parked crew whose record, of a kind, was answered with fail; a write held under R290 that joined the
entry has no kind of its own. An instruction fetch names its address (R286, R292). -/
def failParked (kind : Nat) (s : State) : State :=
  match s.crew.park with
  | none => s
  | some p =>
    let own := if p.kind = 0 then kind else p.kind
    let cause := failCause own
    let info := BitVec.ofNat 64 (fld p.va 55 0 + 2 ^ 56 * own)
    let s1 := onC unpark (dropOps parkedPart s)
    if p.lane then
      match (curRun s.crew).bind (fun r => r.gangs.find? (fun g => g.wait == .parked)) with
      | some g => trapLane cause info g.pc (BitVec.ofNat 64 p.mask) g.members s1
      | none => s1
    else trapScalar cause info s1.crew.sc.pc s1

/-- The entry of an answer, when it has a record outstanding in the writer's world. -/
def answered (s : State) (secure io : Bool) (merge : Nat) : Option Merge :=
  let table := if io then 64 else merge / 1024 % 64
  s.merges.find? (fun m => m.table == table && m.entry == merge % 1024 && m.secure == secure && m.written && !m.held)

/-- Free a merge entry: the crews and the accesses from peers that wait for one of its table try again (R283). -/
def freeEntry (m : Merge) (s : State) : State :=
  let s1 := mapCrews (fun c => if parkedIn m.table noEntry c then unpark c else c)
    { s with merges := s.merges.filter (fun x => !(x.table == m.table && x.entry == m.entry)) }
  if m.table = 64 then ingressAgain s1 else s1

/-- The keys of the crews waiting in a merge entry. -/
def waitersOf (s : State) (m : Merge) : List CrewKey :=
  ((allCrews s).filter (parkedIn m.table m.entry)).map (·.key)

/-- A waiter translates afresh and proceeds; the scheduler's accesses do so at their next turn (R286, R290). -/
def retryWaiter (w : IoWaiter) (s : State) : State :=
  match w with
  | .engine k _ tag _ => onCrew k (retryEngine tag) s
  | .ingress va k => ingressGo va k s
  | _ => s

/-- Every waiter of an entry translates afresh and proceeds, and the entry is freed (R286, R290). -/
def retryAll (m : Merge) (s : State) : State :=
  (m.waiters ++ m.holds).foldl (fun t w => retryWaiter w t)
    (freeEntry m (mapCrews (fun c => if parkedIn m.table m.entry c then unpark c else c) s))

/-- The writes held under R290 that joined the entry of a fault translate afresh (R290); a parked crew's has no kind. -/
def retryHeld (m : Merge) (s : State) : State :=
  m.holds.foldl (fun t w => retryWaiter w t)
    (mapCrews (fun c => if parkedIn m.table m.entry c && c.park.any (fun p => p.kind == 0) then unpark c else c)
      { s with merges := s.merges.map (fun x => if x.table = m.table ∧ x.entry = m.entry then { x with holds := [] } else x) })

/-- ACTION 0 (R286). -/
def frespRetryAt (secure io : Bool) (merge : Nat) (s : State) : State :=
  match answered s secure io merge with
  | none => s
  | some m => retryAll m s

/-- The queue and place of a waiting record. -/
def findRec (s : State) (uid : Nat) : Option (Nat × Nat) :=
  (s.queues.filterMap (fun p => (p.2.recs.findIdx? (fun r => r.uid == uid)).map (fun i => (p.1, i)))).head?

/-- Fail the record whose prerequisite word could not be read (R35). -/
def failPrereq (uid : Nat) (s : State) : State :=
  match findRec s uid with
  | some (q, i) => failRecord q i 2 s
  | none => s

/-- ACTION 1: waiting crews trap, engines abandon their operations, and a scheduler access fails as R35, R239
and R298 state. -/
def frespFailAt (secure io : Bool) (merge : Nat) (s : State) : State :=
  match answered s secure io merge with
  | none => s
  | some m =>
    let s1 := (waitersOf s m).foldl (fun t k => onCrew k (failParked m.kind) t) (freeEntry m s)
    (m.waiters ++ m.holds).foldl (fun t w => match w with
      | .engine k src tag va => onCrew k (failEngine src tag (failCause m.kind) va m.kind) t
      | .completion j => modJob j (fun x => { x with phase := .done }) (match findJob t j with
        | some x => raise (mkEvent t x 3 1 11 0 0 0) t
        | none => t)
      | .digest j => abortJob j 8 0 t
      | .prereq uid _ => failPrereq uid t
      | .walker j _ => abortJob j 7 0 t
      | .context j _ => abortJob j 7 0 t
      | .ingress _ _ => t) s1

/-- An answer takes effect: actions 2 and 3 ignore it (R286). -/
def answerNow (secure : Bool) (v : W64) (s : State) : State :=
  match fld v 17 16 with
  | 0 => frespRetryAt secure (v.getLsbD 18) (fld v 15 0) s
  | 1 => frespFailAt secure (v.getLsbD 18) (fld v 15 0) s
  | _ => s

/-- An acknowledgement for one of some lines is outstanding. -/
def awaitsAck (lines : List Nat) (s : State) : Bool := s.tlbs.any (fun e => e.stale && e.lines.any lines.contains)

/-- A place in device or host memory. -/
def inMemory (l : Loc) : Bool :=
  match l with
  | .phys _ _ => true
  | _ => false

/-- An operation that writes device memory and is not performed. -/
def writesMemory (o : Op) : Bool :=
  match o.kind with
  | .store l | .scatter l => l.any inMemory
  | .amo a => inMemory a.loc
  | .vamo l _ => l.any (fun a => inMemory a.loc)
  | .scatAdd l => l.any (fun a => inMemory a.loc)
  | .copy _ => true
  | _ => false

/-- Every earlier write of a writer to device memory is performed with its acknowledgements: of the host, or of a crew
(R286). (DEDUCED, unsafe: notes/assumptions/13.md) -/
def writesDone (who : Option CrewKey) (s : State) : Bool :=
  match who with
  | none => s.dev.hostHeld.isEmpty && !awaitsAck s.dev.hostLines s
  | some k => !(findCrew s k).any (fun c => c.ops.any writesMemory || c.sieve.any (fun e => (sieveCls e.kind).isSome)) &&
      !s.tlbs.any (fun e => e.stale && e.stores.contains k) && !s.l1.any (fun l => l.writers.contains k)

/-- A write of FRESP takes effect once its writer's earlier writes are performed (R286), and in D3 after it (R357).
(DEDUCED, unsafe: notes/assumptions/13.md, DEDUCED, unsafe: notes/assumptions/33.md) -/
def setFresp (who : Option CrewKey) (secure : Bool) (v : W64) (s : State) : State :=
  if writesDone who s && !s.dev.d3 then answerNow secure v s
  else if 2 ≤ fld v 17 16 then s
  else onDev (fun d => { d with answers := d.answers ++ [⟨who, secure, v &&& 0x7FFFF⟩] }) s

/-- The answer of an event: the oldest of the same words that waits, or a new one of the host's. -/
def answerEvent (secure : Bool) (v : W64) (s : State) : State :=
  match s.dev.answers.find? (fun a => a.secure == secure && a.val == v) with
  | some a =>
    if writesDone a.who s && !s.dev.d3 then answerNow secure v (onDev (fun d => { d with answers := d.answers.erase a }) s) else s
  | none => setFresp none secure v s

/-! ### Address spaces, pre-emption and abort -/

/-- ASIDINV: every cached translation of the ASID is dropped; BUSY until each holder has acknowledged (R282). -/
def setAsidinv (v : W64) (s : State) : State :=
  let a := fld v 11 0
  let busy := s.tlbs.any (fun e => e.asid == a)
  onDev (fun d => { d with asidinv := if busy && !d.asidinv.contains a then a :: d.asidinv else d.asidinv })
    { s with
      tlbs := s.tlbs.map (fun e => if e.asid = a then { e with stale := true, inval := true } else e)
      espalier := s.espalier.map (fun e => if e.asid = a then { e with valid := false } else e) }

/-- ASIDINV.BUSY. -/
def asidBusy (s : State) : Bool := s.tlbs.any (fun e => e.stale && e.inval && s.dev.asidinv.contains e.asid)

/-- A team begins to leave its core (R296); CTXBASE 0 is never pre-empted (R301). -/
def stopTeam (ctx : Bool) (t : Team) : Team :=
  match t.place, ctx with
  | .resident c, true => { t with place := .stopping c }
  | _, _ => t

/-- Pre-empt every running team of the job slices a test selects. -/
def preemptJobs (p : Job → Bool) (s : State) : State :=
  let sel := (allJobs s).filter (fun j => p j && j.phase == .running && j.rcd.ctxbase != 0)
  let f := fun (t : Team) => stopTeam (sel.any (fun j => j.take == t.job)) t
  { s with team := f s.team, teams := s.teams.map f }

/-- PREEMPT: the first write gives DONESEQ, the second the queue, and acts (R296, R365). -/
def setPreempt (second : Bool) (v : W64) (s : State) : State :=
  if second then preemptJobs (fun j => j.rcd.doneseq == s.dev.preemptSeq && j.queue == fld v 5 0) s
  else onDev (fun d => { d with preemptSeq := v }) s

/-- The first waiting record of a queue with a sequence value. -/
def findSeqRec (s : State) (q : Nat) (seq : W64) : Option Nat :=
  (sliceQ s q).recs.findIdx? (fun r => r.rcd.doneseq == seq)

/-- Fail every waiting record of a queue with a sequence value (R312). -/
def failSeq (q : Nat) (seq : W64) : Nat → State → State
  | 0, s => s
  | n + 1, s => match findSeqRec s q seq with
    | none => s
    | some i => failSeq q seq n (failRecord q i 9 s)

/-- Abort every matching job slice, running or still queued (R312). -/
def abortSeqs (q : Nat) (seq : W64) (s : State) : State :=
  let jobs := (allJobs s).filter (fun j => j.rcd.doneseq == seq && j.queue == q &&
    (j.phase == .running || j.phase == .gridDone))
  let s1 := jobs.foldl (fun t j => abortJob j.take 9 0 t) s
  failSeq q seq (queuedCount s1) s1

/-- SLCABORT: the second write aborts every matching job slice (R312, R365); in D3, where waiting records stay in their
queues, once it is left (R357). (DEDUCED, unsafe: notes/assumptions/33.md) -/
def setSlcabort (second : Bool) (v : W64) (s : State) : State :=
  if second then
    if s.dev.d3 then onDev (fun d => { d with lateAborts := d.lateAborts ++ [(fld v 5 0, s.dev.abortSeq)] }) s
    else abortSeqs (fld v 5 0) s.dev.abortSeq s
  else onDev (fun d => { d with abortSeq := v }) s

/-! ### Power and attestation -/

/-- Some team is resident. -/
def anyResident (s : State) : Bool := (allTeams s).any (fun t => (placeCore t.place).isSome)

/-- REQ = 01: D3 is entered while no team is resident (R354, R357). -/
def enterD3 (s : State) : State := if anyResident s then s else onDev (fun d => { d with d3 := true }) s
/-- REQ = 00: D3 is left, and the aborts asked for in it take place (R357). (DEDUCED, unsafe: notes/assumptions/33.md) -/
def leaveD3 (s : State) : State :=
  if s.dev.d3 then
    s.dev.lateAborts.foldl (fun t x => abortSeqs x.1 x.2 t) (onDev (fun d => { d with d3 := false, lateAborts := [] }) s)
  else s

/-- PSTATE write. -/
def setPstate (v : W64) (s : State) : State :=
  match fld v 3 2 with
  | 0 => leaveD3 s
  | 1 => enterD3 s
  | _ => s

/-- PCAP write: out of range is ignored (R357). -/
def setPcap (v : W64) (s : State) : State :=
  let w := fld v 11 0
  if 1500 ≤ w ∧ w ≤ 3400 then onDev (fun d => { d with pcap := w }) s else s

/-- ATTGO: a write of 1 starts a report unless one is being made (R361). -/
def setAttgo (v : W64) (s : State) : State :=
  if v.getLsbD 0 && !s.dev.attBusy then onDev (fun d => { d with attBusy := true, attDone := false }) s else s

/-- Error log: bits written 1 are cleared (R365). -/
def clearErrlog (i : Nat) (v : W64) (s : State) : State :=
  onDev (fun d => { d with errlog := smMod 0 d.errlog i (fun x => x &&& ~~~v) }) s

/-! ### The register map (R365, R366) -/

/-- A register of the map: a slice-queue register at an offset in its block, a data queue's control, a bank mode
register, the fault or event block of a world, a monitor block, and the others by name. -/
inductive Reg where
  | queue (q off : Nat)
  | dq (n : Nat)
  | bank (c b : Nat)
  | world (w off : Nat)
  | monitor (d off : Nat)
  | asidinv
  | preempt (second : Bool)
  | slcabort (second : Bool)
  | fxself
  | fxroot
  | fxroute (p : Nat)
  | secrgn (i : Nat)
  | hdm (size : Bool)
  | bootstat
  | attNonce (i : Nat)
  | attMask
  | attGo
  | attDone
  | attBuf (i : Nat)
  | pstate
  | pcap
  | thermst
  | thermdie (i : Nat)
  | errlog (i : Nat)
  | none
  deriving DecidableEq, Repr

/-- The register an offset names. (DESIGN CHOICE, unsafe: notes/assumptions/12.md) -/
def regAt (off : Nat) : Reg :=
  if 0x10000 ≤ off ∧ off < 0x14000 then .queue ((off - 0x10000) / 0x100) (off % 0x100 / 8 * 8)
  else if 0x20000 ≤ off ∧ off < 0x24000 then .bank ((off - 0x20000) / 0x100) (off % 0x100 / 4)
  else if 0x30000 ≤ off ∧ off < 0x32000 then .world ((off - 0x30000) / 0x1000) (off % 0x1000 / 8 * 8)
  else if 0x32000 ≤ off ∧ off < 0x32800 then .monitor ((off - 0x32000) / 0x100) (off % 0x100 / 8 * 8)
  else if 0x51000 ≤ off ∧ off < 0x52000 then .fxroute (off - 0x51000)
  else if 0x60000 ≤ off ∧ off < 0x60080 then .secrgn ((off - 0x60000) / 8)
  else if 0x61000 ≤ off ∧ off < 0x61020 then .attNonce ((off - 0x61000) / 8)
  else if 0x61038 ≤ off ∧ off < 0x63038 then .attBuf ((off - 0x61038) / 8)
  else if 0x70100 ≤ off ∧ off < 0x701C8 then .thermdie ((off - 0x70100) / 8)
  else if 0x80000 ≤ off ∧ off < 0x80040 then .errlog ((off - 0x80000) / 8)
  else if 0x90000 ≤ off ∧ off < 0xA0000 then
    if off % 16 < 8 then .dq ((off - 0x90000) / 16) else .none
  else match off / 8 * 8 with
    | 0x33000 => .asidinv
    | 0x40000 => .preempt false
    | 0x40008 => .preempt true
    | 0x40010 => .slcabort false
    | 0x40018 => .slcabort true
    | 0x50000 => .fxself
    | 0x50008 => .fxroot
    | 0x60080 => .hdm false
    | 0x60088 => .hdm true
    | 0x60100 => .bootstat
    | 0x61020 => .attMask
    | 0x61028 => .attGo
    | 0x61030 => .attDone
    | 0x70000 => .pstate
    | 0x70008 => .pcap
    | 0x70010 => .thermst
    | _ => .none

/-- The bytes of a register: 1 for FXROUTE, 4 for a bank mode register, 8 otherwise. -/
def regSize : Reg → Nat
  | .fxroute _ => 1
  | .bank _ _ => 4
  | _ => 8

/-- 0 or 1. -/
def bitOf (b : Bool) : W64 := if b then 1 else 0

/-- A ring register by its place in BASE, SIZE, HEAD, TAIL. -/
def ringReg (r : Ring) (i : Nat) : W64 :=
  match i with
  | 0 => r.base
  | 1 => r.size
  | 2 => r.head
  | _ => r.tail

/-- PSTATE.CUR. -/
def pstateCur (s : State) : Nat := if s.dev.d3 then 3 else s.dev.pstate

/-- What a register reads as; none where the spec gives a register that is only written no reading. -/
def regRead (s : State) (r : Reg) : Option W64 :=
  match r with
  | .queue q off =>
    let x := sliceQ s q
    match off with
    | 0x00 => some x.qctl
    | 0x08 => some (BitVec.ofNat 64 (qCap x.qctl - x.recs.length))
    | 0x10 => some (bitOf x.qstat)
    | 0x18 => some x.qptroot
    | 0x20 => some x.stkbase
    | 0x28 => some x.stksz
    | 0x30 => some x.xcap
    | _ => if 0x40 ≤ off ∧ off < 0x60 then some (BitVec.ofNat 64 (bytesToNat ((x.digest.drop (off - 0x40)).take 8)))
      else some 0
  | .dq n => some (dataQ s n).ctl
  | .bank c b => some (BitVec.ofNat 64 (bankWord (smGet BankReg.reset s.bankRegs (64 * c + b))))
  | .world w off =>
    if off < 0x20 then some (ringReg (ringOf s w) (off / 8))
    else if off = 0x20 then none
    else if off < 0x48 then some (ringReg (ringOf s (2 + w)) (off / 8 - 5))
    else some 0
  | .monitor d off =>
    if off < 0x20 then some (ringReg (ringOf s (4 + d)) (off / 8))
    else match off with
      | 0x20 => some (smGet 0 s.dev.mqovf d)
      | 0x28 => some (smGet 0 s.dev.repbase d)
      | 0x30 => some (smGet 0 s.dev.repsize d)
      | _ => some 0
  | .asidinv => some (bitOf (asidBusy s) <<< 63)
  | .preempt _ | .slcabort _ | .attGo => none
  | .fxself => some s.dev.fxself
  | .fxroot => some s.dev.fxroot
  | .fxroute p => some ((smGet 0 s.dev.fxroute p).zeroExtend 64)
  | .secrgn i => some (smGet 0 s.dev.secrgn i)
  | .hdm b => some (if b then s.dev.hdmsize else s.dev.hdmbase)
  | .bootstat => some ((bitOf s.dev.bootReady <<< 63) ||| BitVec.ofNat 64 (s.dev.bootCode % 256))
  | .attNonce i => some (smGet 0 s.dev.attNonce i)
  | .attMask => some s.dev.attMask
  | .attDone => some (bitOf s.dev.attDone)
  | .attBuf i => some (BitVec.ofNat 64 (bytesToNat ((s.dev.attBuf.drop (8 * i)).take 8)))
  | .pstate => some (BitVec.ofNat 64 (pstateCur s + (if s.dev.d3 then 4 else 0)))
  | .pcap => some (BitVec.ofNat 64 s.dev.pcap)
  | .thermst => some (bitOf s.dev.tripped <<< 63)
  | .thermdie i => some (BitVec.ofNat 64 (smGet 0 s.dev.temps i % 256 + (if smGet false s.dev.hots i then 256 else 0)))
  | .errlog i => some (smGet 0 s.dev.errlog i)
  | .none => some 0

/-- Registers in which a write of 1 clears a bit. -/
def regW1c : Reg → Bool
  | .queue _ 0x10 => true
  | .bank _ _ => true
  | .errlog _ => true
  | _ => false

/-- A write of a whole register by a crew or the host. Read-only and locked registers ignore it (R366). STKSZ takes any
value. (DESIGN CHOICE, unsafe: notes/assumptions/54.md) FXSELF and FXROUTE keep the bits to which the spec gives no field.
(DESIGN CHOICE, unsafe: notes/assumptions/61.md) -/
def regWrite (who : Option CrewKey) (r : Reg) (v : W64) (s : State) : State :=
  match r with
  | .queue q off =>
    match off with
    | 0x00 => setQctl q v s
    | 0x10 => clearQstat q v s
    | 0x18 => modQ q (fun x => { x with qptroot := v &&& ~~~0xFFF }) s
    | 0x20 => modQ q (fun x => { x with stkbase := v }) s
    | 0x28 => modQ q (fun x => { x with stksz := v }) s
    | 0x30 => modQ q (fun x => { x with xcap := v }) s
    | _ => if 0x40 ≤ off ∧ off < 0x60 then
        modQ q (fun x => { x with digest := patch (off - 0x40) x.digest (natToBytes 8 v.toNat) }) s
      else s
  | .dq n => setDqctl n v s
  | .bank c b => setBankMode c b (v.toNat % 2 ^ 32) s
  | .world w off =>
    match off with
    | 0x00 => setRingBase w false v s
    | 0x08 => setRingBase w true v s
    | 0x10 => setRingHead w v s
    | 0x20 => setFresp who (w == 1) v s
    | 0x28 => setRingBase (2 + w) false v s
    | 0x30 => setRingBase (2 + w) true v s
    | 0x38 => setRingHead (2 + w) v s
    | _ => s
  | .monitor d off =>
    match off with
    | 0x00 => setRingBase (4 + d) false v s
    | 0x08 => setRingBase (4 + d) true v s
    | 0x10 => setRingHead (4 + d) v s
    | 0x28 => onDev (fun x => { x with repbase := smSet 0 x.repbase d v }) s
    | 0x30 => onDev (fun x => { x with repsize := smSet 0 x.repsize d v }) s
    | _ => s
  | .asidinv => setAsidinv v s
  | .preempt b => setPreempt b v s
  | .slcabort b => setSlcabort b v s
  | .fxself => onDev (fun d => { d with fxself := v }) s
  | .fxroot => onDev (fun d => { d with fxroot := v &&& ~~~0xFFF }) s
  | .fxroute p => onDev (fun d => { d with fxroute := smSet 0 d.fxroute p (v.setWidth 8) }) s
  | .attNonce i => onDev (fun d => { d with attNonce := smSet 0 d.attNonce i v }) s
  | .attMask => onDev (fun d => { d with attMask := v }) s
  | .attGo => setAttgo v s
  | .pstate => setPstate v s
  | .pcap => setPcap v s
  | .errlog i => clearErrlog i v s
  | .secrgn _ | .hdm _ | .bootstat | .attDone | .attBuf _ | .thermst | .thermdie _ | .none => s

/-- The bytes of a register as it reads; an open reading is a free value.
(DESIGN CHOICE, safe: notes/assumptions/2.md) -/
def regBytes (off : Nat) (s : State) : List Byte × State :=
  let r := regAt off
  match regRead s r with
  | some v => (natToBytes (regSize r) v.toNat, s)
  | none =>
    let (v, s1) := takeFree s
    (natToBytes (regSize r) v.toNat, s1)

/-- Read n bytes of the device-control aperture. -/
def dctlRd : Nat → Nat → Nat → State → List Byte × State
  | 0, _, _, s => ([], s)
  | f + 1, off, n, s =>
    if n = 0 then ([], s)
    else
      let sz := regSize (regAt off)
      let (b, s1) := regBytes off s
      let o := off % sz
      let k := min n (sz - o)
      let (r, s2) := dctlRd f (off + k) (n - k) s1
      ((b.drop o).take k ++ r, s2)

/-- Write bytes of the device-control aperture: bytes of a register not written keep what it reads as, or count
as zero where a 1 clears. -/
def dctlWr : Nat → Nat → List Byte → State → State
  | 0, _, _, s => s
  | _, _, [], s => s
  | f + 1, off, bs, s =>
    let r := regAt off
    let sz := regSize r
    let o := off % sz
    let k := min bs.length (sz - o)
    let old := if regW1c r then List.replicate sz 0 else natToBytes sz ((regRead s r).getD 0).toNat
    let v := BitVec.ofNat 64 (bytesToNat (patch o old (bs.take k)))
    dctlWr f (off + k) (bs.drop k) (regWrite (some s.crew.key) r v s)

end Sys2Proof.Machine
end

