-- ==== Sys2Proof/Machine/Memory.lean ====
section
/-! DEFINITION. MemAccess: the checks of a pointer in their order, translation, and the access itself
(R163, R165, R166, R279). -/

namespace Sys2Proof.Machine

/-- The aperture of a pointer. -/
def apOf (p : W64) : Nat := fld p 63 60

/-- A bit that R163 requires to be zero is set. -/
def mbzBad (p : W64) : Bool :=
  match apOf p with
  | 0 | 1 | 2 => fld p 59 56 != 0
  | 4 => fld p 59 20 != 0
  | 5 => fld p 59 23 != 0
  | 6 => fld p 59 40 != 0
  | 7 => fld p 59 16 != 0
  | 15 => fld p 59 32 != 0
  | _ => false

/-- The mapped address of a stack offset for a lane, 32 for the scalar stream (R165). -/
def stackVa (s : State) (lane off : Nat) : Nat :=
  let g := (s.crew.key.team * s.job.rcd.crews + s.crew.key.crew) * 33 + lane
  s.job.stkbase.toNat + g * s.job.stksz.toNat + off

/-- The virtual address a pointer names. -/
def vaOf (s : State) (lane : Nat) (p : W64) : Nat :=
  if apOf p = 6 then stackVa s lane (fld p 39 0) else fld p 55 0

/-- The bank register of a cluster-scratchpad pointer. -/
def cspadBank (s : State) (p : W64) : BankReg :=
  smGet BankReg.reset s.bankRegs (64 * clusterOf (coreOf s) + fld p 22 17)

/-- The aperture checks of R166, R163 and R165; those of the stack aperture come with the others, before the alignment
check. (DESIGN CHOICE, unsafe: notes/assumptions/53.md) -/
def apBad (s : State) (lane : Nat) (p : W64) (n : Nat) : Bool :=
  let ap := apOf p
  (decide (8 ≤ ap) && decide (ap ≤ 14)) || mbzBad p || ap == 7 ||
  (ap == 4 && decide (spadBytes s < fld p 19 0 + n)) ||
  (ap == 5 && ((cspadBank s p).cur != 1 || (cspadBank s p).busy)) ||
  (ap == 6 && (decide (s.job.stksz.toNat ≤ fld p 39 0) || decide (2 ^ 56 ≤ stackVa s lane (fld p 39 0))))

/-- The checks of R166 before translation, in their order. -/
def memCheck (s : State) (lane : Nat) (p : W64) (n : Nat) : Res Unit := do
  need (!apBad s lane p n) (.trap 0x06 p)
  need (p.toNat % min n 16 == 0) (.trap 0x07 p)
  need (apOf p != 15 || s.job.secure) (.trap 0x09 (BitVec.ofNat 64 (fld p 55 0)))
  need (apOf p != 5 || !(cspadBank s p).world || s.job.secure) (.trap 0x09 (BitVec.ofNat 64 (fld p 55 0)))

/-- A checked and translated access: where it goes, the virtual page it used, the translation, and its access code. -/
structure Place where
  loc : Loc
  page : Nat
  xlat : Option Xlat
  kind : Nat
  deriving DecidableEq, Repr

/-- n bytes at one place and k at another share a byte. -/
def locHits (l : Loc) (n : Nat) (m : Loc) (k : Nat) : Bool :=
  match l, m with
  | .phys a _, .phys b _ => overlaps a n b k
  | .spad a, .spad b => overlaps a n b k
  | .cspad c a, .cspad d b => c == d && overlaps a n b k
  | .dctl a, .dctl b => overlaps a n b k
  | _, _ => false

/-- A scalar atomic of the crew in focus that touches n bytes at a place has not executed. -/
def amoPending (s : State) (l : Loc) (n : Nat) : Bool :=
  s.crew.ops.any (fun o => match o.kind with
    | .amo a => locHits a.loc a.n l n
    | _ => false)

/-- Where a checked access of at most 16 bytes goes, for a lane of the crew in focus. -/
def placeOf (s : State) (lane : Nat) (p : W64) (kind : Nat) : Res Place :=
  match apOf p with
  | 3 => .ok ⟨.remote (fld p 59 48) (fld p 47 0), 0, none, kind⟩
  | 4 => .ok ⟨.spad (fld p 19 0), 0, none, kind⟩
  | 5 => .ok ⟨.cspad (clusterOf (coreOf s)) (fld p 22 0), 0, none, kind⟩
  | 15 => .ok ⟨.dctl (fld p 31 0), 0, none, kind⟩
  | _ =>
    let va := vaOf s lane p
    match translate s (crewAsker s) va kind with
    | .ok x => .ok ⟨.phys x.pa x.coh, va / 4096, some x, kind⟩
    | .error e => .error (xStop p va kind e)

/-- Check and translate one access of at most 16 bytes for a lane of the crew in focus. A load or store of the scalar
stream waits for its own earlier atomic on the same bytes (R176). -/
def locate (s : State) (lane : Nat) (p : W64) (n kind : Nat) : Res Place := do
  memCheck s lane p n
  let x ← placeOf s lane p kind
  need (lane != 32 || kind == 2 || !amoPending s x.loc n) (.wait .other)
  .ok x

/-- A holder of the core caches the translation of an access (R280). -/
def noteAt (k : HolderKind) (p : Place) (s : State) : State :=
  match p.xlat with
  | some x => noteXlat (engineAsker k s) p.kind p.page x s
  | none => s

/-- The core's translation cache holds the translation of an access (R280). -/
def notePlace (p : Place) (s : State) : State := noteAt .core p s

/-- Read n bytes at a place: the bytes and whether they are uncorrectable. -/
def rdLoc (l : Loc) (n : Nat) (ro : Bool) (s : State) : List Byte × Bool × State :=
  match l with
  | .phys pa coh => physRd (coreOf s) pa n coh ro s
  | .spad off => (spadRd s off n, badAt s.team.spadBad off n, s)
  | .cspad c off =>
    let a := 2 ^ 23 * c + off
    (smGetMany 0 s.cspad a n, badAt s.cspadBad a n, s)
  | .remote _ _ => ([], false, s)
  | .dctl off =>
    let (b, t) := dctlRd (n + 1) off n s
    (b, false, t)

/-- Write bytes at a place. -/
def wrLoc (l : Loc) (bytes : List Byte) (s : State) : State :=
  match l with
  | .phys pa coh => physWr (coreOf s) pa bytes coh s
  | .spad off => spadWr off bytes s
  | .cspad c off =>
    let a := 2 ^ 23 * c + off
    { s with cspad := smSetMany 0 s.cspad a bytes, cspadBad := clearBad s.cspadBad a bytes.length }
  | .remote _ _ => s
  | .dctl off => dctlWr (bytes.length + 1) off bytes s

/-- An access of n bytes as pieces of 16 (R166). -/
def pieces (p : W64) (n : Nat) : List (W64 × Nat) :=
  if n ≤ 16 then [(p, n)]
  else (List.range (ceilDiv n 16)).map (fun i => (p + BitVec.ofNat 64 (16 * i), min 16 (n - 16 * i)))

/-- Check and translate an access of any length. -/
def locateAll (s : State) (lane : Nat) (p : W64) (n kind : Nat) : Res (List (Place × Nat)) := do
  memCheck s lane p n
  (pieces p n).mapM (fun q => do
    let l ← locate s lane q.1 q.2 kind
    .ok (l, q.2))

/-- MemRead of any length by the crew in focus; uncorrectable data traps 0x15 (R166). -/
def memRead (lane : Nat) (p : W64) (n : Nat) (s : State) : Res (List Byte × State) := do
  let ls ← locateAll s lane p n 0
  let (bs, bad, t) := ls.foldl (fun (acc : List Byte × Bool × State) (q : Place × Nat) =>
    let (b, e, u) := rdLoc q.1.loc q.2 false (notePlace q.1 acc.2.2)
    (acc.1 ++ b, acc.2.1 || e, u)) ([], false, s)
  need (!bad) (.trap 0x15 (BitVec.ofNat 64 (vaOf s lane p)))
  .ok (bs, t)

/-- MemWrite of any length by the crew in focus. -/
def memWrite (lane : Nat) (p : W64) (bytes : List Byte) (s : State) : Res State := do
  let ls ← locateAll s lane p bytes.length 1
  .ok ((ls.foldl (fun (acc : State × List Byte) (q : Place × Nat) =>
    (wrLoc q.1.loc (acc.2.take q.2) (notePlace q.1 acc.1), acc.2.drop q.2)) (s, bytes)).1)

/-- The kind of line that a stream's instruction cache holds. -/
def codeKind (lane : Bool) : LineKind := if lane then .lcode else .scode

/-- Four bytes of code at a physical address as an instruction cache of a core gives them: from its line, which no store
reaches, else from memory, which may be uncorrectable (R169). (DESIGN CHOICE, unsafe: notes/assumptions/8.md) -/
def codeRd (s : State) (lane : Bool) (pa : Nat) : List Byte × Bool :=
  match findLine s (coreOf s) (pa / 128) (codeKind lane) with
  | some l => ((l.data.drop (pa % 128)).take 4, false)
  | none => (memRd s pa 4, badAt s.memBad pa 4)

/-- Bring the line of a physical address into an instruction cache (R169). (DESIGN CHOICE, unsafe: notes/assumptions/8.md) -/
def fillCode (lane : Bool) (pa : Nat) (s : State) : State :=
  let core := coreOf s
  match findLine s core (pa / 128) (codeKind lane) with
  | some _ => s
  | none => { s with l1 := ⟨core, pa / 128, codeKind lane, memRd s (pa / 128 * 128) 128, 0, []⟩ :: s.l1 }

/-- What a fetch of n bytes of code at a global address leaves: lines in the stream's instruction cache, and translations
in the core's (R169, R280). -/
def noteFetch (lane : Bool) (p : W64) (n : Nat) (s : State) : State :=
  (List.range (n / 4)).foldl (fun t i =>
    let va := fld (p + BitVec.ofNat 64 (4 * i)) 55 0
    match translate t (crewAsker t) va 3 with
    | .ok x => fillCode lane x.pa (noteXlat (crewAsker t) 3 (va / 4096) x t)
    | .error _ => t) s

/-- Fetch n bytes of code at a global address, word by word (R42, R279). (DEDUCED, unsafe: notes/assumptions/42.md) -/
def fetchBytes (lane : Bool) (s : State) (p : W64) (n : Nat) : Res (List Byte) :=
  (List.range (n / 4)).foldlM (fun (acc : List Byte) i => do
    let q := p + BitVec.ofNat 64 (4 * i)
    need (decide (fld q 63 60 ≤ 2) && fld q 59 56 == 0) (.trap 0x06 q)
    need (fld q 1 0 == 0) (.trap 0x07 q)
    let va := fld q 55 0
    match translate s (crewAsker s) va 3 with
    | .ok x =>
      let (b, bad) := codeRd s lane x.pa
      need (!bad) (.trap 0x15 (BitVec.ofNat 64 va))
      .ok (acc ++ b)
    | .error e => .error (xStop q va 3 e)) []

end Sys2Proof.Machine
end

