-- ==== Sys2Proof/Machine/Runs.lean ====
section
/-! DEFINITION. Lane runs beginning and completing, and the completion of crews and teams (R31, R32, R110, R111,
R113, R120, R217, R219, R238). -/

namespace Sys2Proof.Machine

/-- A queued run as it begins: every slice live at the target as one gang, its mask full (R111). -/
def startRun (slices : Nat) (r : QRun) : ARun where
  run := r
  gangs := [⟨r.target, List.range slices, .ready⟩]
  slices := List.replicate slices ⟨15, [], true⟩
  flags := 0
  yielded := false

/-- The first queued run begins, if none executes: latches invalid (R63, R111). -/
def beginRun (s : State) : State :=
  let n := s.job.rcd.slices
  let l := s.crew.ln
  if s.crew.handler.isSome then
    match l.hcur, l.hqueue with
    | none, r :: rest => dropLatches (onLn (fun x => { x with hcur := some (startRun n r), hqueue := rest }) s)
    | _, _ => s
  else
    match l.cur, l.queue with
    | none, r :: rest => dropLatches (onLn (fun x => { x with cur := some (startRun n r), queue := rest }) s)
    | _, _ => s

/-- Runs enqueued or executing of the stream in use: the handler's while a trap is handled (R293). -/
def runsOut (c : Crew) : Nat :=
  if c.handler.isSome then c.ln.hqueue.length + c.ln.hcur.toList.length
  else c.ln.queue.length + c.ln.cur.toList.length

/-- Enqueue a run (R110); it begins at once if none is before it. -/
def enqueueRun (target : W64) (s : State) : State :=
  let c := s.crew
  let h := c.handler.isSome
  let r : QRun := ⟨target, c.sc.snaps, c.sc.rmdef, c.sc.fmte, c.sc.rseed, if h then c.ln.nextHSeq else c.ln.nextSeq, h,
    inRegion s⟩
  beginRun (onLn (fun l =>
    if h then { l with hqueue := l.hqueue ++ [r], nextHSeq := l.nextHSeq + 1 }
    else { l with queue := l.queue ++ [r], nextSeq := l.nextSeq + 1 }) s)

/-- A complete run's flags are covered by a wait that leaves the newest n out (R113). -/
def covered (c : Crew) (n : Nat) (f : HeldFlags) : Bool :=
  if c.handler.isSome then f.handler && decide (f.seq + n < c.ln.nextHSeq)
  else f.handler || decide (f.seq + n < c.ln.nextSeq)

/-- Deliver the flags of covered runs into astat (R85). -/
def deliverFlags (n : Nat) (s : State) : State :=
  let c := s.crew
  let fl := (c.ln.held.filter (covered c n)).foldl (fun a f => a ||| f.flags) fNone
  addFlags fl (onLn (fun l => { l with held := l.held.filter (fun f => !covered c n f) }) s)

/-! ### The core's banks and token -/

/-- Change a core. -/
def modCore (c : Nat) (f : CoreSt → CoreSt) (s : State) : State :=
  { s with cores := smMod CoreSt.reset s.cores c f }
/-- A core. -/
def coreAt (s : State) (c : Nat) : CoreSt := smGet CoreSt.reset s.cores c

/-- A crew is on a core. -/
def crewOn (s : State) (core : Nat) (c : Crew) : Bool :=
  match findTeam s c.key.job c.key.team with
  | some t => placeCore t.place == some core
  | none => false

/-- The crews of a core in the order of R11. -/
def coreCrews (s : State) (core : Nat) : List Crew :=
  sortBy (fun a b => !keyLt b.key a.key) ((allCrews s).filter (crewOn s core))

/-- A crew on a core is deterministic. -/
def detCrew (s : State) (c : Crew) : Bool :=
  match findJob s c.key.job with
  | some j => j.rcd.flags.testBit 0
  | none => false

/-- A crew waits for the matrix token, to complete mat.token.take or to resume after a restore (R219, R231). -/
def wantsToken (c : Crew) : Bool :=
  (c.hadToken || match c.wait with
    | .token _ => true
    | _ => false) && c.park.isNone

/-- Give the token to a crew that waits for it (R219). -/
def grantToken (core : Nat) (flush : Option Nat) (k : CrewKey) (s : State) : State :=
  onCrew k (fun t =>
    if t.crew.hadToken then onC (fun c => { c with hadToken := false }) t
    else raiseClock flush (finish (t.crew.sc.pc + 4) t)) (modCore core (fun x => { x with token := some k }) s)

/-- The token goes to the first waiter in (team, crew) order if it is free and no deterministic crew's pass is still to be
settled by its flush. A deterministic crew that is first takes it at a flush, and the others wait behind it (R219, R318).
(DEDUCED, unsafe: notes/assumptions/27.md) -/
def offerToken (core : Nat) (s : State) : State :=
  if (coreAt s core).token.isSome || (coreAt s core).passer.isSome then s
  else match (coreCrews s core).find? wantsToken with
    | some c => if !detCrew s c || c.hadToken then grantToken core none c.key s else s
    | none => s

/-- The token is free, for the first waiter (R219). -/
def freeToken (core : Nat) (s : State) : State :=
  offerToken core (modCore core (fun x =>
    { x with token := none, freedAt := if isDet s then intervalOf s else x.freedAt, passer := none }) s)

/-- A token that an abort has freed goes to the first waiter of its core (R219, R312). -/
def offerTokens (s : State) : State :=
  (((allCrews s).filter wantsToken).filterMap (fun c =>
    (findTeam s c.key.job c.key.team).bind (fun t => placeCore t.place))).eraseDups.foldl (fun t core => offerToken core t) s

/-- No pass of the token by a crew that a test selects is left to settle; the token goes to a waiter.
(DEDUCED, unsafe: notes/assumptions/27.md) -/
def settlePass (core : Nat) (p : CrewKey → Bool) (s : State) : State :=
  if (coreAt s core).passer.any p then offerToken core (modCore core (fun x => { x with passer := none }) s) else s

/-- A crew gives up the token if it holds it. -/
def dropToken (k : CrewKey) (core : Nat) (s : State) : State :=
  if (coreAt s core).token = some k then freeToken core s else s

/-! ### Banks and weight granules -/

/-- A new bank (R216). -/
def freshBank : Bank := ⟨.fp, 0, none, 0, 0, []⟩

/-- The banks a request needs: those acc.alloc asks for and those spilled (R218). A crew with spilled banks that waits for
something else, or for nothing, asks for those alone. (DEDUCED, safe: notes/assumptions/48.md) -/
def accNeed (c : Crew) : Nat :=
  match c.wait with
  | .acc _ n _ => n + c.spilled.length
  | _ => c.spilled.length

/-- Bind the requested banks of a waiting crew, its spilled banks with them. Spilled banks keep their entries in
the crew's save area, which is where banks itself holds them (R217, R218). -/
def bindBanks (first n : Nat) (c : Crew) : Crew :=
  { c with
    banks := (List.range n).foldl (fun m i => smSet none m (first + i) (some freshBank)) c.banks
    spilled := []
    carried := [] }

/-- Banks of a crew that occupy physical banks. -/
def banksHeld (c : Crew) : Nat := c.banks.length - c.spilled.length

/-- Physical banks in use on a core. -/
def banksUsed (s : State) (core : Nat) : Nat := ((coreCrews s core).map banksHeld).foldl (· + ·) 0

/-- A crew blocked in acc.alloc. -/
def inAlloc (c : Crew) : Bool :=
  match c.wait with
  | .acc _ _ _ => true
  | _ => false

/-- The request of the crew in focus is granted: its acc.alloc completes, or its spilled banks alone are back. -/
def giveBanks (flush : Option Nat) (s : State) : State :=
  match s.crew.wait with
  | .acc first n _ => raiseClock flush (finish (s.crew.sc.pc + 4) (onC (bindBanks first n) s))
  | _ => onC (fun c => { c with spilled := [], carried := [] }) s

/-- Grant a crew's request; spilled banks are read back from the accumulator slots first (R218, R298), but for those that
the mesh carried with their team (R38). -/
def grantAcc (flush : Option Nat) (c : Crew) (s : State) : State :=
  onCrew c.key (fun t =>
    if t.crew.spilled.all t.crew.carried.contains then giveBanks flush t
    else areaGo (areaHolders (coreOf t)) 0 (accSlots t.job.rcd) (16 * 20480) (giveBanks flush) t) s

/-- Grant waiting bank requests whole and strictly in (team, crew) order (R217), as long as the first can be. A
deterministic acc.alloc is granted only at a flush (R318), and holds back those behind it until then. -/
def grantBanks (core : Nat) : Nat → State → State
  | 0, s => s
  | f + 1, s =>
    match (coreCrews s core).find? (fun c => accNeed c != 0) with
    | none => s
    | some c =>
      if banksUsed s core + accNeed c ≤ 16 ∧ !(detCrew s c && inAlloc c) then
        let t := grantAcc none c s
        if (findCrew t c.key).any (fun x => accNeed x != 0) then t else grantBanks core f t
      else s

/-- Banks given up by a deterministic crew count as free from the flush of its interval on (R319).
(DEDUCED, unsafe: notes/assumptions/27.md) -/
def noteFrees (core n : Nat) (s : State) : State :=
  if isDet s ∧ n ≠ 0 then modCore core (fun x => { x with frees := (intervalOf s, n) :: x.frees }) s else s

/-- The 4 KiB granules of n bytes of a weight space. -/
def wtGranules (off n : Nat) : List Nat := (List.range ((off + n + 4095) / 4096 - off / 4096)).map (· + off / 4096)

/-- Granules of a team's weight space that weight loads in flight go to. -/
def loadGranules (s : State) (t : Team) : List Nat :=
  ((allCrews s).filter (fun c => c.key.job == t.job && c.key.team == t.idx)).flatMap (fun c =>
    c.ops.flatMap (fun o => match o.kind with
      | .wload _ woff _ len => wtGranules woff len
      | _ => []))

/-- Granules of a team's weight space in use: those with a byte that is not zero, and those of weight loads in flight
(R222). (DEDUCED, safe: notes/assumptions/48.md) -/
def usedGranules (s : State) (t : Team) : List Nat :=
  (t.weights.map (fun (p : Host.Cell) => p.1 / 4096) ++ loadGranules s t).eraseDups

/-- Granules that a core's weight buffer holds (R222). (DEDUCED, safe: notes/assumptions/48.md) -/
def granulesOn (s : State) (core : Nat) : Nat :=
  (((allTeams s).filter (fun t => placeCore t.place == some core)).map (fun t =>
    ((usedGranules s t).filter (fun g => !t.absent.contains g)).length)).foldl (· + ·) 0

/-! ### Crews and teams complete (R32, R120) -/

/-- Raise the completion event of a level whose EVT bit is set (R32). -/
def levelEvent (level : Nat) (team crew : Nat) (s : State) : State :=
  if s.job.rcd.flags.testBit (12 + level) then raise (mkEvent s s.job level 0 0 0 team crew) s else s

/-- The team in focus completes when all its crews have and what they issued is performed: its resources are released and
its log discarded. A team of an aborted job slice raises no event (R32). -/
def teamComplete (s : State) : State :=
  let crews := teamCrews s
  if crews.all (fun c => c.status == .complete && c.ops.isEmpty) && !crews.isEmpty && (placeCore s.team.place).isSome then
    let s1 := onT (fun t => { t with
      place := .done, handles := [], barriers := [], pins := [], log := GraphLog.reset, tab0 := none, tab1 := none })
      (settlePass (coreOf s) (fun k => k.job == s.team.job && k.team == s.team.idx) s)
    if s.job.phase = .running then levelEvent 1 s.team.idx 0 (onJ (fun j => { j with teamsDone := j.teamsDone + 1 }) s1)
    else s1
  else s

/-- The crew in focus completes once its scalar stream has ended and no run is left: flags, tagged handles,
banks and the token are given up. -/
def crewComplete (s : State) : State :=
  let c := s.crew
  let idle := c.ln.cur.isNone && c.ln.queue.isEmpty && c.ln.hcur.isNone && c.ln.hqueue.isEmpty
  if c.status = .exited ∧ idle then
    let core := coreOf s
    let all := c.ln.held.foldl (fun a f => a ||| f.flags) fNone
    let s1 := releaseTags (addFlags all (onLn (fun l => { l with held := [] }) s))
    let s2 := onC (fun x => { x with status := .complete, active := false, banks := [], spilled := [], carried := [], tiles := [], ptraps := [],
                                     barKept := none, graftKept := none }) s1
    let s3 := onJ (fun j => { j with crewsDone := j.crewsDone + 1 }) (levelEvent 0 c.key.team c.key.crew s2)
    let s4 := grantBanks core 16 (noteFrees core (banksHeld c) (dropToken c.key core s3))
    teamComplete s4
  else s

/-- A crew whose scalar stream has ended and that has no run left retires no more (R32). -/
def crewOver (c : Crew) : Bool :=
  c.status == .complete || (c.status == .exited && c.ln.cur.isNone && c.ln.queue.isEmpty && c.ln.hcur.isNone && c.ln.hqueue.isEmpty)

/-- The run in execution has no gang left: it is complete once its results are in (R111). -/
def runStopped (c : Crew) : Bool :=
  match curRun c with
  | some r => r.gangs.isEmpty
  | none => false

/-- An operation whose results a lane run waits for. -/
def laneReturning (o : Op) : Bool :=
  match o.kind with
  | .laneLoad _ => true
  | .gather _ => true
  | .vamo _ _ => true
  | .remote l _ _ => l
  | _ => false

/-- The run in execution completes: its flags are held for a wait, the next run begins, and a crew whose scalar
stream has ended may be complete. A yielded run offers the crew's issue slot (R159). -/
def completeRun (s : State) : State :=
  match curRun s.crew with
  | none => s
  | some r =>
    if r.gangs.isEmpty && !s.crew.ops.any laneReturning then
      let s1 := onLn (fun l => { l with held := l.held ++ [⟨r.run.seq, r.run.handler, r.flags⟩] }) (setRun none s)
      let s2 := if r.yielded && !isDet s then onC (fun c => { c with offered := true }) s1 else s1
      crewComplete (beginRun s2)
    else s

end Sys2Proof.Machine
end

