-- ==== Sys2Proof/Machine/ScalarAlu.lean ====
section
/-! DEFINITION. The scalar register operations, integer and floating (R101, R102). -/

namespace Sys2Proof.Machine

/-- An n-bit result widened into a register (R101). -/
def widen (n : Nat) (signed : Bool) (r : Nat) : W64 := if signed then sext r n else zext r n

/-- A scalar operation of one register: value and flags. -/
def un (d a : BitVec 6) (f : Nat → Nat × Flags) (wd : Nat → W64) (s : State) : Host.Outcome State Fault Refusal :=
  run (fun t =>
    let r := f (rdS t a.toNat).toNat
    (putS d.toNat (wd r.1) t).map (addFlags r.2)) s

/-- A scalar operation of two registers: value and flags. -/
def bin (d a b : BitVec 6) (f : Nat → Nat → Nat × Flags) (wd : Nat → W64) (s : State) :
    Host.Outcome State Fault Refusal :=
  run (fun t =>
    let r := f (rdS t a.toNat).toNat (rdS t b.toNat).toNat
    (putS d.toNat (wd r.1) t).map (addFlags r.2)) s

/-- A value without flags. -/
def plain (v : Nat) : Nat × Flags := (v, fNone)

/-- A clamped integer as n bits. -/
def wrapFlags (n : Nat) (r : Int × Flags) : Nat × Flags := (wrapN n r.1, r.2)

/-- (a + b) mod 2^n. -/
def iAdd (n a b : Nat) : Nat × Flags := plain ((a + b) % 2 ^ n)
/-- (a − b) mod 2^n. -/
def iSub (n a b : Nat) : Nat × Flags := plain (wrapN n ((a : Int) - b))
/-- Low n bits of the product. -/
def iMul (n a b : Nat) : Nat × Flags := plain (a * b % 2 ^ n)
/-- High n bits of the signed product. -/
def iMulh (n a b : Nat) : Nat × Flags := plain (wrapN n ((sVal n a * sVal n b) >>> n))
/-- High n bits of the unsigned product. -/
def iMulhz (n a b : Nat) : Nat × Flags := plain ((a % 2 ^ n) * (b % 2 ^ n) / 2 ^ n)
/-- Signed quotient (R78, R79). -/
def iDiv (n a b : Nat) : Nat × Flags := wrapFlags n (divS n false (sVal n a) (sVal n b))
/-- Unsigned quotient (R79). -/
def iDivz (n a b : Nat) : Nat × Flags := divZ n (a % 2 ^ n) (b % 2 ^ n)
/-- Signed remainder (R78, R79). -/
def iRem (n a b : Nat) : Nat × Flags := wrapFlags n (remS (sVal n a) (sVal n b))
/-- Unsigned remainder (R79). -/
def iRemz (n a b : Nat) : Nat × Flags := remZ (a % 2 ^ n) (b % 2 ^ n)
/-- Signed minimum. -/
def iMin (n a b : Nat) : Nat × Flags := plain (wrapN n (min (sVal n a) (sVal n b)))
/-- Signed maximum. -/
def iMax (n a b : Nat) : Nat × Flags := plain (wrapN n (max (sVal n a) (sVal n b)))
/-- Unsigned minimum. -/
def iMinz (n a b : Nat) : Nat × Flags := plain (min (a % 2 ^ n) (b % 2 ^ n))
/-- Unsigned maximum. -/
def iMaxz (n a b : Nat) : Nat × Flags := plain (max (a % 2 ^ n) (b % 2 ^ n))
/-- SatS(a + b, n). -/
def iAddSat (n a b : Nat) : Nat × Flags := wrapFlags n (satS (sVal n a + sVal n b) n)
/-- SatS(a − b, n). -/
def iSubSat (n a b : Nat) : Nat × Flags := wrapFlags n (satS (sVal n a - sVal n b) n)
/-- SatZ(a + b, n). -/
def iAddzSat (n a b : Nat) : Nat × Flags :=
  wrapFlags n (satZ (((a % 2 ^ n : Nat) : Int) + (b % 2 ^ n : Nat)) n)
/-- SatZ(a − b, n). -/
def iSubzSat (n a b : Nat) : Nat × Flags :=
  wrapFlags n (satZ (((a % 2 ^ n : Nat) : Int) - (b % 2 ^ n : Nat)) n)
/-- a AND b. -/
def iAnd (n a b : Nat) : Nat × Flags := plain ((a &&& b) % 2 ^ n)
/-- a OR b. -/
def iOr (n a b : Nat) : Nat × Flags := plain ((a ||| b) % 2 ^ n)
/-- a XOR b. -/
def iXor (n a b : Nat) : Nat × Flags := plain ((a ^^^ b) % 2 ^ n)
/-- a AND NOT b. -/
def iAndn (n a b : Nat) : Nat × Flags := plain (andnN n a b)
/-- Shift left by b mod n. -/
def iShl (n a b : Nat) : Nat × Flags := plain ((a % 2 ^ n) <<< (b % 2 ^ n % n) % 2 ^ n)
/-- Logical shift right by b mod n. -/
def iShr (n a b : Nat) : Nat × Flags := plain ((a % 2 ^ n) >>> (b % 2 ^ n % n))
/-- Arithmetic shift right by b mod n. -/
def iSar (n a b : Nat) : Nat × Flags := plain (wrapN n (sarN n a (b % 2 ^ n % n)))
/-- Rotate left by b mod n. -/
def iRol (n a b : Nat) : Nat × Flags := plain (rolN n a (b % 2 ^ n % n))
/-- Number of one bits. -/
def iPopc (n a : Nat) : Nat × Flags := plain (popN n (a % 2 ^ n))
/-- Leading zeros, n for zero. -/
def iClz (n a : Nat) : Nat × Flags := plain (clzN n a)
/-- Trailing zeros, n for zero. -/
def iCtz (n a : Nat) : Nat × Flags := plain (ctzN n (a % 2 ^ n))

/-- add: iAdd on 64 bits, sign-extended (R101). -/
def execAdd (d a b : BitVec 6) (s : State) : Host.Outcome State Fault Refusal :=
  bin d a b (iAdd 64) (widen 64 true) s

/-- sub: iSub on 64 bits, sign-extended (R101). -/
def execSub (d a b : BitVec 6) (s : State) : Host.Outcome State Fault Refusal :=
  bin d a b (iSub 64) (widen 64 true) s

/-- mul: iMul on 64 bits, sign-extended (R101). -/
def execMul (d a b : BitVec 6) (s : State) : Host.Outcome State Fault Refusal :=
  bin d a b (iMul 64) (widen 64 true) s

/-- mulh: iMulh on 64 bits, sign-extended (R101). -/
def execMulh (d a b : BitVec 6) (s : State) : Host.Outcome State Fault Refusal :=
  bin d a b (iMulh 64) (widen 64 true) s

/-- mulhz: iMulhz on 64 bits, zero-extended (R101). -/
def execMulhz (d a b : BitVec 6) (s : State) : Host.Outcome State Fault Refusal :=
  bin d a b (iMulhz 64) (widen 64 false) s

/-- div: iDiv on 64 bits, sign-extended (R101). -/
def execDiv (d a b : BitVec 6) (s : State) : Host.Outcome State Fault Refusal :=
  bin d a b (iDiv 64) (widen 64 true) s

/-- divz: iDivz on 64 bits, zero-extended (R101). -/
def execDivz (d a b : BitVec 6) (s : State) : Host.Outcome State Fault Refusal :=
  bin d a b (iDivz 64) (widen 64 false) s

/-- rem: iRem on 64 bits, sign-extended (R101). -/
def execRem (d a b : BitVec 6) (s : State) : Host.Outcome State Fault Refusal :=
  bin d a b (iRem 64) (widen 64 true) s

/-- remz: iRemz on 64 bits, zero-extended (R101). -/
def execRemz (d a b : BitVec 6) (s : State) : Host.Outcome State Fault Refusal :=
  bin d a b (iRemz 64) (widen 64 false) s

/-- min: iMin on 64 bits, sign-extended (R101). -/
def execMin (d a b : BitVec 6) (s : State) : Host.Outcome State Fault Refusal :=
  bin d a b (iMin 64) (widen 64 true) s

/-- max: iMax on 64 bits, sign-extended (R101). -/
def execMax (d a b : BitVec 6) (s : State) : Host.Outcome State Fault Refusal :=
  bin d a b (iMax 64) (widen 64 true) s

/-- minz: iMinz on 64 bits, zero-extended (R101). -/
def execMinz (d a b : BitVec 6) (s : State) : Host.Outcome State Fault Refusal :=
  bin d a b (iMinz 64) (widen 64 false) s

/-- maxz: iMaxz on 64 bits, zero-extended (R101). -/
def execMaxz (d a b : BitVec 6) (s : State) : Host.Outcome State Fault Refusal :=
  bin d a b (iMaxz 64) (widen 64 false) s

/-- addSat: iAddSat on 64 bits, sign-extended (R101). -/
def execAddSat (d a b : BitVec 6) (s : State) : Host.Outcome State Fault Refusal :=
  bin d a b (iAddSat 64) (widen 64 true) s

/-- subSat: iSubSat on 64 bits, sign-extended (R101). -/
def execSubSat (d a b : BitVec 6) (s : State) : Host.Outcome State Fault Refusal :=
  bin d a b (iSubSat 64) (widen 64 true) s

/-- addzSat: iAddzSat on 64 bits, zero-extended (R101). -/
def execAddzSat (d a b : BitVec 6) (s : State) : Host.Outcome State Fault Refusal :=
  bin d a b (iAddzSat 64) (widen 64 false) s

/-- subzSat: iSubzSat on 64 bits, zero-extended (R101). -/
def execSubzSat (d a b : BitVec 6) (s : State) : Host.Outcome State Fault Refusal :=
  bin d a b (iSubzSat 64) (widen 64 false) s

/-- and: iAnd on 64 bits, zero-extended (R101). -/
def execAnd (d a b : BitVec 6) (s : State) : Host.Outcome State Fault Refusal :=
  bin d a b (iAnd 64) (widen 64 false) s

/-- or: iOr on 64 bits, zero-extended (R101). -/
def execOr (d a b : BitVec 6) (s : State) : Host.Outcome State Fault Refusal :=
  bin d a b (iOr 64) (widen 64 false) s

/-- xor: iXor on 64 bits, zero-extended (R101). -/
def execXor (d a b : BitVec 6) (s : State) : Host.Outcome State Fault Refusal :=
  bin d a b (iXor 64) (widen 64 false) s

/-- andn: iAndn on 64 bits, zero-extended (R101). -/
def execAndn (d a b : BitVec 6) (s : State) : Host.Outcome State Fault Refusal :=
  bin d a b (iAndn 64) (widen 64 false) s

/-- shl: iShl on 64 bits, sign-extended (R101). -/
def execShl (d a b : BitVec 6) (s : State) : Host.Outcome State Fault Refusal :=
  bin d a b (iShl 64) (widen 64 true) s

/-- shr: iShr on 64 bits, zero-extended (R101). -/
def execShr (d a b : BitVec 6) (s : State) : Host.Outcome State Fault Refusal :=
  bin d a b (iShr 64) (widen 64 false) s

/-- sar: iSar on 64 bits, sign-extended (R101). -/
def execSar (d a b : BitVec 6) (s : State) : Host.Outcome State Fault Refusal :=
  bin d a b (iSar 64) (widen 64 true) s

/-- rol: iRol on 64 bits, zero-extended (R101). -/
def execRol (d a b : BitVec 6) (s : State) : Host.Outcome State Fault Refusal :=
  bin d a b (iRol 64) (widen 64 false) s

/-- popc: iPopc on 64 bits (R101). -/
def execPopc (d a : BitVec 6) (s : State) : Host.Outcome State Fault Refusal :=
  un d a (iPopc 64) (widen 64 false) s

/-- clz: iClz on 64 bits (R101). -/
def execClz (d a : BitVec 6) (s : State) : Host.Outcome State Fault Refusal :=
  un d a (iClz 64) (widen 64 false) s

/-- ctz: iCtz on 64 bits (R101). -/
def execCtz (d a : BitVec 6) (s : State) : Host.Outcome State Fault Refusal :=
  un d a (iCtz 64) (widen 64 false) s

/-- addW: iAdd on 32 bits, sign-extended (R101). -/
def execAddW (d a b : BitVec 6) (s : State) : Host.Outcome State Fault Refusal :=
  bin d a b (iAdd 32) (widen 32 true) s

/-- subW: iSub on 32 bits, sign-extended (R101). -/
def execSubW (d a b : BitVec 6) (s : State) : Host.Outcome State Fault Refusal :=
  bin d a b (iSub 32) (widen 32 true) s

/-- mulW: iMul on 32 bits, sign-extended (R101). -/
def execMulW (d a b : BitVec 6) (s : State) : Host.Outcome State Fault Refusal :=
  bin d a b (iMul 32) (widen 32 true) s

/-- mulhW: iMulh on 32 bits, sign-extended (R101). -/
def execMulhW (d a b : BitVec 6) (s : State) : Host.Outcome State Fault Refusal :=
  bin d a b (iMulh 32) (widen 32 true) s

/-- mulhzW: iMulhz on 32 bits, zero-extended (R101). -/
def execMulhzW (d a b : BitVec 6) (s : State) : Host.Outcome State Fault Refusal :=
  bin d a b (iMulhz 32) (widen 32 false) s

/-- divW: iDiv on 32 bits, sign-extended (R101). -/
def execDivW (d a b : BitVec 6) (s : State) : Host.Outcome State Fault Refusal :=
  bin d a b (iDiv 32) (widen 32 true) s

/-- divzW: iDivz on 32 bits, zero-extended (R101). -/
def execDivzW (d a b : BitVec 6) (s : State) : Host.Outcome State Fault Refusal :=
  bin d a b (iDivz 32) (widen 32 false) s

/-- remW: iRem on 32 bits, sign-extended (R101). -/
def execRemW (d a b : BitVec 6) (s : State) : Host.Outcome State Fault Refusal :=
  bin d a b (iRem 32) (widen 32 true) s

/-- remzW: iRemz on 32 bits, zero-extended (R101). -/
def execRemzW (d a b : BitVec 6) (s : State) : Host.Outcome State Fault Refusal :=
  bin d a b (iRemz 32) (widen 32 false) s

/-- minW: iMin on 32 bits, sign-extended (R101). -/
def execMinW (d a b : BitVec 6) (s : State) : Host.Outcome State Fault Refusal :=
  bin d a b (iMin 32) (widen 32 true) s

/-- maxW: iMax on 32 bits, sign-extended (R101). -/
def execMaxW (d a b : BitVec 6) (s : State) : Host.Outcome State Fault Refusal :=
  bin d a b (iMax 32) (widen 32 true) s

/-- minzW: iMinz on 32 bits, zero-extended (R101). -/
def execMinzW (d a b : BitVec 6) (s : State) : Host.Outcome State Fault Refusal :=
  bin d a b (iMinz 32) (widen 32 false) s

/-- maxzW: iMaxz on 32 bits, zero-extended (R101). -/
def execMaxzW (d a b : BitVec 6) (s : State) : Host.Outcome State Fault Refusal :=
  bin d a b (iMaxz 32) (widen 32 false) s

/-- addSatW: iAddSat on 32 bits, sign-extended (R101). -/
def execAddSatW (d a b : BitVec 6) (s : State) : Host.Outcome State Fault Refusal :=
  bin d a b (iAddSat 32) (widen 32 true) s

/-- subSatW: iSubSat on 32 bits, sign-extended (R101). -/
def execSubSatW (d a b : BitVec 6) (s : State) : Host.Outcome State Fault Refusal :=
  bin d a b (iSubSat 32) (widen 32 true) s

/-- addzSatW: iAddzSat on 32 bits, zero-extended (R101). -/
def execAddzSatW (d a b : BitVec 6) (s : State) : Host.Outcome State Fault Refusal :=
  bin d a b (iAddzSat 32) (widen 32 false) s

/-- subzSatW: iSubzSat on 32 bits, zero-extended (R101). -/
def execSubzSatW (d a b : BitVec 6) (s : State) : Host.Outcome State Fault Refusal :=
  bin d a b (iSubzSat 32) (widen 32 false) s

/-- andW: iAnd on 32 bits, zero-extended (R101). -/
def execAndW (d a b : BitVec 6) (s : State) : Host.Outcome State Fault Refusal :=
  bin d a b (iAnd 32) (widen 32 false) s

/-- orW: iOr on 32 bits, zero-extended (R101). -/
def execOrW (d a b : BitVec 6) (s : State) : Host.Outcome State Fault Refusal :=
  bin d a b (iOr 32) (widen 32 false) s

/-- xorW: iXor on 32 bits, zero-extended (R101). -/
def execXorW (d a b : BitVec 6) (s : State) : Host.Outcome State Fault Refusal :=
  bin d a b (iXor 32) (widen 32 false) s

/-- andnW: iAndn on 32 bits, zero-extended (R101). -/
def execAndnW (d a b : BitVec 6) (s : State) : Host.Outcome State Fault Refusal :=
  bin d a b (iAndn 32) (widen 32 false) s

/-- shlW: iShl on 32 bits, sign-extended (R101). -/
def execShlW (d a b : BitVec 6) (s : State) : Host.Outcome State Fault Refusal :=
  bin d a b (iShl 32) (widen 32 true) s

/-- shrW: iShr on 32 bits, zero-extended (R101). -/
def execShrW (d a b : BitVec 6) (s : State) : Host.Outcome State Fault Refusal :=
  bin d a b (iShr 32) (widen 32 false) s

/-- sarW: iSar on 32 bits, sign-extended (R101). -/
def execSarW (d a b : BitVec 6) (s : State) : Host.Outcome State Fault Refusal :=
  bin d a b (iSar 32) (widen 32 true) s

/-- rolW: iRol on 32 bits, zero-extended (R101). -/
def execRolW (d a b : BitVec 6) (s : State) : Host.Outcome State Fault Refusal :=
  bin d a b (iRol 32) (widen 32 false) s

/-- popcW: iPopc on 32 bits (R101). -/
def execPopcW (d a : BitVec 6) (s : State) : Host.Outcome State Fault Refusal :=
  un d a (iPopc 32) (widen 32 false) s

/-- clzW: iClz on 32 bits (R101). -/
def execClzW (d a : BitVec 6) (s : State) : Host.Outcome State Fault Refusal :=
  un d a (iClz 32) (widen 32 false) s

/-- ctzW: iCtz on 32 bits (R101). -/
def execCtzW (d a : BitVec 6) (s : State) : Host.Outcome State Fault Refusal :=
  un d a (iCtz 32) (widen 32 false) s

/-! ### Floating operations (R99, R102) -/

/-- A floating result zero-extended from n bits. -/
def fOut (n : Nat) (r : Nat) : W64 := zext r n

/-- A scalar floating operation of one register under the crew's rounding mode. -/
def fun1 (d a : BitVec 6) (n : Nat) (f : Rm → Nat → Nat × Flags) (wd : Nat → W64) (s : State) :
    Host.Outcome State Fault Refusal :=
  un d a (fun x => f (rmDef s) (x % 2 ^ n)) wd s

/-- A scalar floating operation of two registers under the crew's rounding mode. -/
def fun2 (d a b : BitVec 6) (n : Nat) (f : Rm → Nat → Nat → Nat × Flags) (s : State) :
    Host.Outcome State Fault Refusal :=
  bin d a b (fun x y => f (rmDef s) (x % 2 ^ n) (y % 2 ^ n)) (fOut n) s

/-- ffma: the old destination is the addend. -/
def fun3 (d a b : BitVec 6) (n : Nat) (fmt : Fmt) (s : State) : Host.Outcome State Fault Refusal :=
  bin d a b (fun x y => fFma fmt (rmDef s) (x % 2 ^ n) (y % 2 ^ n) ((rdS s d.toNat).toNat % 2 ^ n)) (fOut n) s

/-- fadd on binary64 (R102). -/
def execFaddF64 (d a b : BitVec 6) (s : State) : Host.Outcome State Fault Refusal :=
  fun2 d a b 64 (fun rm => fAdd fmtF64 rm) s

/-- fsub on binary64 (R102). -/
def execFsubF64 (d a b : BitVec 6) (s : State) : Host.Outcome State Fault Refusal :=
  fun2 d a b 64 (fun rm => fSub fmtF64 rm) s

/-- fmul on binary64 (R102). -/
def execFmulF64 (d a b : BitVec 6) (s : State) : Host.Outcome State Fault Refusal :=
  fun2 d a b 64 (fun rm => fMul fmtF64 rm) s

/-- fdiv on binary64 (R102). -/
def execFdivF64 (d a b : BitVec 6) (s : State) : Host.Outcome State Fault Refusal :=
  fun2 d a b 64 (fun rm => fDiv fmtF64 rm) s

/-- fmin on binary64 (R102). -/
def execFminF64 (d a b : BitVec 6) (s : State) : Host.Outcome State Fault Refusal :=
  fun2 d a b 64 (fun _ => fMinMax fmtF64 false) s

/-- fmax on binary64 (R102). -/
def execFmaxF64 (d a b : BitVec 6) (s : State) : Host.Outcome State Fault Refusal :=
  fun2 d a b 64 (fun _ => fMinMax fmtF64 true) s

/-- ffma on binary64 (R102). -/
def execFfmaF64 (d a b : BitVec 6) (s : State) : Host.Outcome State Fault Refusal :=
  fun3 d a b 64 fmtF64 s

/-- fsqrt on binary64 (R102). -/
def execFsqrtF64 (d a : BitVec 6) (s : State) : Host.Outcome State Fault Refusal :=
  fun1 d a 64 (fSqrt fmtF64) (fOut 64) s

/-- s64 to binary64 (R86, R102). -/
def execFcvtF64S64 (d a : BitVec 6) (s : State) : Host.Outcome State Fault Refusal :=
  fun1 d a 64 (fun rm x => fOfInt fmtF64 rm (sVal 64 x)) (fOut 64) s

/-- z64 to binary64 (R86, R102). -/
def execFcvtF64Z64 (d a : BitVec 6) (s : State) : Host.Outcome State Fault Refusal :=
  fun1 d a 64 (fun rm x => fOfInt fmtF64 rm (x : Int)) (fOut 64) s

/-- binary64 to s64 (R86, R102). -/
def execFcvtS64F64 (d a : BitVec 6) (s : State) : Host.Outcome State Fault Refusal :=
  fun1 d a 64 (fun rm x => wrapFlags 64 (fToInt rm (sMin 64) (sMax 64) (exOf fmtF64 x))) (fOut 64) s

/-- binary64 to z64 (R86, R102). -/
def execFcvtZ64F64 (d a : BitVec 6) (s : State) : Host.Outcome State Fault Refusal :=
  fun1 d a 64 (fun rm x => wrapFlags 64 (fToInt rm 0 (zMax 64) (exOf fmtF64 x))) (fOut 64) s

/-- fabs on binary64: the sign bit cleared (R102). -/
def execFabsF64 (d a : BitVec 6) (s : State) : Host.Outcome State Fault Refusal :=
  fun1 d a 64 (fun _ x => plain (fClearSign fmtF64 x)) (fOut 64) s

/-- fneg on binary64: the sign bit inverted (R102). -/
def execFnegF64 (d a : BitVec 6) (s : State) : Host.Outcome State Fault Refusal :=
  fun1 d a 64 (fun _ x => plain (fFlip fmtF64 x)) (fOut 64) s

/-- fadd on binary32 (R102). -/
def execFaddF32 (d a b : BitVec 6) (s : State) : Host.Outcome State Fault Refusal :=
  fun2 d a b 32 (fun rm => fAdd fmtF32 rm) s

/-- fsub on binary32 (R102). -/
def execFsubF32 (d a b : BitVec 6) (s : State) : Host.Outcome State Fault Refusal :=
  fun2 d a b 32 (fun rm => fSub fmtF32 rm) s

/-- fmul on binary32 (R102). -/
def execFmulF32 (d a b : BitVec 6) (s : State) : Host.Outcome State Fault Refusal :=
  fun2 d a b 32 (fun rm => fMul fmtF32 rm) s

/-- fdiv on binary32 (R102). -/
def execFdivF32 (d a b : BitVec 6) (s : State) : Host.Outcome State Fault Refusal :=
  fun2 d a b 32 (fun rm => fDiv fmtF32 rm) s

/-- fmin on binary32 (R102). -/
def execFminF32 (d a b : BitVec 6) (s : State) : Host.Outcome State Fault Refusal :=
  fun2 d a b 32 (fun _ => fMinMax fmtF32 false) s

/-- fmax on binary32 (R102). -/
def execFmaxF32 (d a b : BitVec 6) (s : State) : Host.Outcome State Fault Refusal :=
  fun2 d a b 32 (fun _ => fMinMax fmtF32 true) s

/-- ffma on binary32 (R102). -/
def execFfmaF32 (d a b : BitVec 6) (s : State) : Host.Outcome State Fault Refusal :=
  fun3 d a b 32 fmtF32 s

/-- fsqrt on binary32 (R102). -/
def execFsqrtF32 (d a : BitVec 6) (s : State) : Host.Outcome State Fault Refusal :=
  fun1 d a 32 (fSqrt fmtF32) (fOut 32) s

/-- s64 to binary32 (R86, R102). -/
def execFcvtF32S64 (d a : BitVec 6) (s : State) : Host.Outcome State Fault Refusal :=
  fun1 d a 64 (fun rm x => fOfInt fmtF32 rm (sVal 64 x)) (fOut 32) s

/-- z64 to binary32 (R86, R102). -/
def execFcvtF32Z64 (d a : BitVec 6) (s : State) : Host.Outcome State Fault Refusal :=
  fun1 d a 64 (fun rm x => fOfInt fmtF32 rm (x : Int)) (fOut 32) s

/-- binary32 to s64 (R86, R102). -/
def execFcvtS64F32 (d a : BitVec 6) (s : State) : Host.Outcome State Fault Refusal :=
  fun1 d a 32 (fun rm x => wrapFlags 64 (fToInt rm (sMin 64) (sMax 64) (exOf fmtF32 x))) (fOut 64) s

/-- binary32 to z64 (R86, R102). -/
def execFcvtZ64F32 (d a : BitVec 6) (s : State) : Host.Outcome State Fault Refusal :=
  fun1 d a 32 (fun rm x => wrapFlags 64 (fToInt rm 0 (zMax 64) (exOf fmtF32 x))) (fOut 64) s

/-- fabs on binary32: the sign bit cleared (R102). -/
def execFabsF32 (d a : BitVec 6) (s : State) : Host.Outcome State Fault Refusal :=
  fun1 d a 32 (fun _ x => plain (fClearSign fmtF32 x)) (fOut 32) s

/-- fneg on binary32: the sign bit inverted (R102). -/
def execFnegF32 (d a : BitVec 6) (s : State) : Host.Outcome State Fault Refusal :=
  fun1 d a 32 (fun _ x => plain (fFlip fmtF32 x)) (fOut 32) s

/-- binary32 widened to binary64 (R102). -/
def execFcvtF64F32 (d a : BitVec 6) (s : State) : Host.Outcome State Fault Refusal :=
  fun1 d a 32 (fCvt fmtF32 fmtF64) (fOut 64) s

/-- binary64 rounded to binary32 (R102). -/
def execFcvtF32F64 (d a : BitVec 6) (s : State) : Host.Outcome State Fault Refusal :=
  fun1 d a 64 (fCvt fmtF64 fmtF32) (fOut 32) s

end Sys2Proof.Machine
end

