-- ==== Sys2Proof/Machine/ScalarImm.lean ====
section
/-! DEFINITION. Immediate operations, compares and predicate logic of the scalar stream (R103 to R106). -/

namespace Sys2Proof.Machine

/-- Write one register without flags. -/
def setReg (d : BitVec 6) (v : State → W64) (s : State) : Host.Outcome State Fault Refusal :=
  run (fun t => putS d.toNat (v t) t) s

/-- addi (R103). -/
def execAddi (d a : BitVec 6) (i : BitVec 14) (s : State) : Host.Outcome State Fault Refusal :=
  setReg d (fun t => rdS t a.toNat + i.signExtend 64) s
/-- andi (R103). -/
def execAndi (d a : BitVec 6) (i : BitVec 14) (s : State) : Host.Outcome State Fault Refusal :=
  setReg d (fun t => rdS t a.toNat &&& i.signExtend 64) s
/-- ori (R103). -/
def execOri (d a : BitVec 6) (i : BitVec 14) (s : State) : Host.Outcome State Fault Refusal :=
  setReg d (fun t => rdS t a.toNat ||| i.zeroExtend 64) s
/-- xori (R103). -/
def execXori (d a : BitVec 6) (i : BitVec 14) (s : State) : Host.Outcome State Fault Refusal :=
  setReg d (fun t => rdS t a.toNat ^^^ i.zeroExtend 64) s

/-- A shift by an immediate amount: the operation of R101 with the amount in place of sB (R103). -/
def shiftImm (n : Nat) (signed : Bool) (f : Nat → Nat → Nat → Nat × Flags) (d a : BitVec 6) (amt : Nat) (s : State) :
    Host.Outcome State Fault Refusal :=
  un d a (fun x => f n x amt) (widen n signed) s

/-- shli (R103). -/
def execShli (d a n : BitVec 6) (s : State) : Host.Outcome State Fault Refusal := shiftImm 64 true iShl d a n.toNat s
/-- shli.w (R103). -/
def execShliW (d a : BitVec 6) (n : BitVec 5) (s : State) : Host.Outcome State Fault Refusal :=
  shiftImm 32 true iShl d a n.toNat s
/-- shri (R103). -/
def execShri (d a n : BitVec 6) (s : State) : Host.Outcome State Fault Refusal := shiftImm 64 false iShr d a n.toNat s
/-- shri.w (R103). -/
def execShriW (d a : BitVec 6) (n : BitVec 5) (s : State) : Host.Outcome State Fault Refusal :=
  shiftImm 32 false iShr d a n.toNat s
/-- sari (R103). -/
def execSari (d a n : BitVec 6) (s : State) : Host.Outcome State Fault Refusal := shiftImm 64 true iSar d a n.toNat s
/-- sari.w (R103). -/
def execSariW (d a : BitVec 6) (n : BitVec 5) (s : State) : Host.Outcome State Fault Refusal :=
  shiftImm 32 true iSar d a n.toNat s
/-- roli (R103). -/
def execRoli (d a n : BitVec 6) (s : State) : Host.Outcome State Fault Refusal := shiftImm 64 false iRol d a n.toNat s
/-- roli.w (R103). -/
def execRoliW (d a : BitVec 6) (n : BitVec 5) (s : State) : Host.Outcome State Fault Refusal :=
  shiftImm 32 false iRol d a n.toNat s

/-- li (R104). -/
def execLi (d : BitVec 6) (i : BitVec 20) (s : State) : Host.Outcome State Fault Refusal :=
  setReg d (fun _ => i.signExtend 64) s

/-- Write one register from a long form. -/
def setRegLong (d : BitVec 6) (v : State → W64) (s : State) : Host.Outcome State Fault Refusal :=
  runLong (fun t => putS d.toNat (v t) t) s

/-- li.w (R104). -/
def execLiW (d : BitVec 6) (i : BitVec 32) (s : State) : Host.Outcome State Fault Refusal :=
  setRegLong d (fun _ => i.signExtend 64) s
/-- li.wz (R104). -/
def execLiWz (d : BitVec 6) (i : BitVec 32) (s : State) : Host.Outcome State Fault Refusal :=
  setRegLong d (fun _ => i.zeroExtend 64) s
/-- li.wh (R104). -/
def execLiWh (d : BitVec 6) (i : BitVec 32) (s : State) : Host.Outcome State Fault Refusal :=
  setRegLong d (fun t => (i.zeroExtend 64 <<< 32) ||| ((rdS t d.toNat).setWidth 32).zeroExtend 64) s

/-! ### Compares (R105) -/

/-- The integer tests by condition code. -/
def scalarTest (c : Nat) (a b : W64) : Bool :=
  match c with
  | 0 => a == b
  | 1 => a != b
  | 2 => a.slt b
  | 3 => a.sle b
  | 4 => b.slt a
  | 5 => b.sle a
  | 6 => a.ult b
  | 7 => a.ule b
  | 8 => b.ult a
  | 9 => b.ule a
  | 10 => a &&& b != 0
  | _ => a &&& b == 0

/-- Write a predicate. -/
def setPred (d : BitVec 4) (v : State → Bool) (s : State) : Host.Outcome State Fault Refusal :=
  run (fun t => .ok (wrC d.toNat (v t) t)) s

/-- cmp (R105). -/
def execCmp (d : BitVec 4) (a b : BitVec 6) (c : BitVec 4) (s : State) : Host.Outcome State Fault Refusal :=
  setPred d (fun t => scalarTest c.toNat (rdS t a.toNat) (rdS t b.toNat)) s

/-- A floating compare. -/
def cmpF (f : Fmt) (n : Nat) (d : BitVec 4) (a b : BitVec 6) (c : BitVec 3) (s : State) :
    Host.Outcome State Fault Refusal :=
  run (fun t =>
    let r := fCmp f c.toNat ((rdS t a.toNat).toNat % 2 ^ n) ((rdS t b.toNat).toNat % 2 ^ n)
    .ok (addFlags r.2 (wrC d.toNat r.1 t))) s

/-- cmp on binary64 (R105). -/
def execCmpF64 (d : BitVec 4) (a b : BitVec 6) (c : BitVec 3) (s : State) : Host.Outcome State Fault Refusal :=
  cmpF fmtF64 64 d a b c s
/-- cmp on binary32 (R105). -/
def execCmpF32 (d : BitVec 4) (a b : BitVec 6) (c : BitVec 3) (s : State) : Host.Outcome State Fault Refusal :=
  cmpF fmtF32 32 d a b c s

/-- The immediate of cmpi: zero-extended for the unsigned orders, sign-extended otherwise (R105). -/
def cmpiImm (c : Nat) (i : BitVec 10) : W64 := if 6 ≤ c ∧ c ≤ 9 then i.zeroExtend 64 else i.signExtend 64

/-- cmpi (R105). -/
def execCmpi (d : BitVec 4) (a : BitVec 6) (c : BitVec 4) (i : BitVec 10) (s : State) :
    Host.Outcome State Fault Refusal :=
  setPred d (fun t => scalarTest c.toNat (rdS t a.toNat) (cmpiImm c.toNat i)) s

/-! ### Predicate logic (R106) -/

/-- pred.and. -/
def execPredAnd (d a b : BitVec 4) (s : State) : Host.Outcome State Fault Refusal :=
  setPred d (fun t => rdC t a.toNat && rdC t b.toNat) s
/-- pred.or. -/
def execPredOr (d a b : BitVec 4) (s : State) : Host.Outcome State Fault Refusal :=
  setPred d (fun t => rdC t a.toNat || rdC t b.toNat) s
/-- pred.xor. -/
def execPredXor (d a b : BitVec 4) (s : State) : Host.Outcome State Fault Refusal :=
  setPred d (fun t => rdC t a.toNat != rdC t b.toNat) s
/-- pred.andn. -/
def execPredAndn (d a b : BitVec 4) (s : State) : Host.Outcome State Fault Refusal :=
  setPred d (fun t => rdC t a.toNat && !rdC t b.toNat) s
/-- pred.orn. -/
def execPredOrn (d a b : BitVec 4) (s : State) : Host.Outcome State Fault Refusal :=
  setPred d (fun t => rdC t a.toNat || !rdC t b.toNat) s
/-- pred.nand. -/
def execPredNand (d a b : BitVec 4) (s : State) : Host.Outcome State Fault Refusal :=
  setPred d (fun t => !(rdC t a.toNat && rdC t b.toNat)) s
/-- pred.nor. -/
def execPredNor (d a b : BitVec 4) (s : State) : Host.Outcome State Fault Refusal :=
  setPred d (fun t => !(rdC t a.toNat || rdC t b.toNat)) s
/-- pred.xnor. -/
def execPredXnor (d a b : BitVec 4) (s : State) : Host.Outcome State Fault Refusal :=
  setPred d (fun t => rdC t a.toNat == rdC t b.toNat) s
/-- pred.mov. -/
def execPredMov (d a : BitVec 4) (s : State) : Host.Outcome State Fault Refusal := setPred d (fun t => rdC t a.toNat) s
/-- pred.not. -/
def execPredNot (d a : BitVec 4) (s : State) : Host.Outcome State Fault Refusal := setPred d (fun t => !rdC t a.toNat) s
/-- pred.set. -/
def execPredSet (d : BitVec 4) (s : State) : Host.Outcome State Fault Refusal := setPred d (fun _ => true) s
/-- pred.clr. -/
def execPredClr (d : BitVec 4) (s : State) : Host.Outcome State Fault Refusal := setPred d (fun _ => false) s
/-- pred.nz. -/
def execPredNz (d : BitVec 4) (a : BitVec 6) (s : State) : Host.Outcome State Fault Refusal :=
  setPred d (fun t => rdS t a.toNat != 0) s
/-- pred.get. -/
def execPredGet (d : BitVec 6) (a : BitVec 4) (s : State) : Host.Outcome State Fault Refusal :=
  setReg d (fun t => if rdC t a.toNat then 1 else 0) s

end Sys2Proof.Machine
end

