-- ==== Sys2Proof/Machine/Control.lean ====
section
/-! DEFINITION. Control transfer, feeding the lane stream, special registers, system operations, spawning and
graft (R28 to R30, R38, R107 to R124, R293 to R295). -/

namespace Sys2Proof.Machine

/-! ### Control transfer (R107 to R109) -/

/-- The predicate of a conditional transfer. -/
def taken (s : State) (c : BitVec 4) (n : BitVec 1) : Bool := rdC s c.toNat != (n == 1)

/-- A word offset from an address. -/
def wordOff (pc : W64) {w : Nat} (o : BitVec w) : W64 := pc + 4 * o.signExtend 64

/-- bra (R107). (DEDUCED, unsafe: notes/assumptions/42.md) -/
def execBra (c : BitVec 4) (n : BitVec 1) (o : BitVec 21) (s : State) : Host.Outcome State Fault Refusal :=
  runTo (fun t => .ok (t, if taken t c n then wordOff t.crew.sc.pc o else t.crew.sc.pc + 4)) s

/-- call (R107). (DEDUCED, unsafe: notes/assumptions/42.md) -/
def execCall (c : BitVec 4) (n : BitVec 1) (o : BitVec 21) (s : State) : Host.Outcome State Fault Refusal :=
  runTo (fun t =>
    let pc := t.crew.sc.pc
    if taken t c n then (putS 63 (pc + 4) t).map (fun u => (u, wordOff pc o)) else .ok (t, pc + 4)) s

/-- jr and ret (R108). -/
def jrBody (a : Nat) (n : BitVec 1) (c : BitVec 4) (s : State) : Res (State × W64) := do
  let p := rdS s a
  if taken s c n then
    codeCheck p
    .ok (s, p)
  else .ok (s, s.crew.sc.pc + 4)

/-- jr (R108). -/
def execJr (a : BitVec 6) (n : BitVec 1) (c : BitVec 4) (s : State) : Host.Outcome State Fault Refusal :=
  runTo (jrBody a.toNat n c) s

/-- ret (R108). -/
def execRet (n : BitVec 1) (c : BitVec 4) (s : State) : Host.Outcome State Fault Refusal := runTo (jrBody 63 n c) s

/-- calli (R108): the target is read before the link is written. -/
def execCalli (d a : BitVec 6) (n : BitVec 1) (c : BitVec 4) (s : State) : Host.Outcome State Fault Refusal :=
  runTo (fun t => do
    let p := rdS t a.toNat
    if taken t c n then
      codeCheck p
      let u ← putS d.toNat (t.crew.sc.pc + 4) t
      .ok (u, p)
    else .ok (t, t.crew.sc.pc + 4)) s

/-- loop (R109). (DEDUCED, unsafe: notes/assumptions/42.md) -/
def execLoop (d : BitVec 6) (i : BitVec 14) (s : State) : Host.Outcome State Fault Refusal :=
  runTo (fun t => do
    let v := rdS t d.toNat - 1
    let u ← putS d.toNat v t
    .ok (u, if v != 0 then wordOff t.crew.sc.pc i else t.crew.sc.pc + 4)) s

/-! ### Feeding the lane stream (R110 to R113) -/

/-- Enqueue a run at a target: role, alignment, then room for it. (DESIGN CHOICE, unsafe: notes/assumptions/10.md) -/
def lrunBody (target : W64) (s : State) : Res State := do
  needRole s .lanes
  codeCheck target
  need (decide (runsOut s.crew < 16)) (.wait .lanes)
  .ok (enqueueRun target s)

/-- lrun. -/
def execLrun (i : BitVec 14) (s : State) : Host.Outcome State Fault Refusal :=
  run (fun t => lrunBody (wordOff t.crew.sc.pc i) t) s
/-- lrun.far with a label. -/
def execLrunFar (i : BitVec 32) (s : State) : Host.Outcome State Fault Refusal :=
  runLong (fun t => lrunBody (t.crew.sc.pc + i.signExtend 64) t) s
/-- lrun.far with a register. -/
def execLrunFarReg (a : BitVec 6) (i : BitVec 32) (s : State) : Host.Outcome State Fault Refusal :=
  runLong (fun t => lrunBody (rdS t a.toNat + i.signExtend 64) t) s

/-- Write a snapshot slot. -/
def putSnap (k : Nat) (v : W64) (s : State) : State := onSc (fun c => { c with snaps := smSet 0 c.snaps k v }) s

/-- lsnap of one slot. -/
def execLsnap (a : BitVec 6) (k : BitVec 4) (s : State) : Host.Outcome State Fault Refusal :=
  run (fun t => .ok (putSnap k.toNat (rdS t a.toNat) t)) s
/-- lsnap of two slots. -/
def execLsnapPair (a b : BitVec 6) (k : BitVec 4) (s : State) : Host.Outcome State Fault Refusal :=
  run (fun t => .ok (putSnap (k.toNat + 1) (rdS t b.toNat) (putSnap k.toNat (rdS t a.toNat) t))) s

/-- Wait until at most n runs are out, then deliver the flags of the runs covered. -/
def lwaitBody (n : Nat) (s : State) : Res State := do
  need (decide (runsOut s.crew ≤ n)) (.wait .lanes)
  .ok (deliverFlags n s)

/-- lwait. -/
def execLwait (s : State) : Host.Outcome State Fault Refusal := run (lwaitBody 0) s
/-- lwait.le. -/
def execLwaitLe (n : BitVec 4) (s : State) : Host.Outcome State Fault Refusal := run (lwaitBody n.toNat) s

/-! ### Special registers (R114 to R116) -/

/-- The value of a selector; 0 for a selector R115 does not assign, which makes the word illegal.
(DESIGN CHOICE, safe: notes/assumptions/39.md) -/
def specialRd (s : State) (sel : Nat) : W64 :=
  let c := s.crew
  let j := s.job
  let r := j.rcd
  let det := isDet s
  match sel with
  | 0x00 => BitVec.ofNat 64 (if det then c.clock else s.cycles - c.entryCycle)
  | 0x01 => BitVec.ofNat 64 (if det then 0 else devTime s)
  | 0x02 => c.sc.astat.zeroExtend 64
  | 0x03 => BitVec.ofNat 64 (c.sc.rmdef + if c.sc.fmte then 8 else 0)
  | 0x04 => c.sc.rseed
  | 0x05 => match budgetLeft s j with
    | some n => BitVec.ofNat 64 n
    | none => BitVec.allOnes 64
  | 0x06 => BitVec.ofNat 64 (if det then 0 else j.deadline)
  | 0x07 => BitVec.ofNat 64 r.depth
  | 0x08 => BitVec.ofNat 64 j.queue
  | 0x09 => r.doneseq
  | 0x0A => BitVec.ofNat 64 (r.gx + 2 ^ 32 * r.gy + 2 ^ 48 * r.gz)
  | 0x0B => BitVec.ofNat 64 (r.crews + 2 ^ 8 * (4 * r.slices) + 2 ^ 16 * r.regg + 2 ^ 24 * r.accb)
  | 0x10 => c.sc.trap.cause
  | 0x11 => c.sc.trap.pc
  | 0x12 => c.sc.trap.lpc
  | 0x13 => c.sc.trap.mask
  | 0x14 => c.sc.trap.info
  | _ => 0

/-- A write of a selector. -/
def specialWr (sel : Nat) (v : W64) (c : ScalarSt) : ScalarSt :=
  match sel with
  | 0x02 => { c with astat := v.setWidth 10 }
  | 0x03 => { c with fmte := v.getLsbD 3, rmdef := if fld v 2 0 ≤ 4 then fld v 2 0 else c.rmdef }
  | 0x04 => { c with rseed := v }
  | 0x10 => { c with trap := { c.trap with cause := v } }
  | 0x11 => { c with trap := { c.trap with pc := v } }
  | 0x12 => { c with trap := { c.trap with lpc := v } }
  | _ => c

/-- xrd. -/
def execXrd (d : BitVec 6) (sel : BitVec 14) (s : State) : Host.Outcome State Fault Refusal :=
  setReg d (fun t => specialRd t sel.toNat) s
/-- xwr. -/
def execXwr (a : BitVec 6) (sel : BitVec 14) (s : State) : Host.Outcome State Fault Refusal :=
  run (fun t => .ok (onSc (specialWr sel.toNat (rdS t a.toNat)) t)) s

/-! ### System operations (R117 to R121) -/

/-- nop. -/
def execNop (s : State) : Host.Outcome State Fault Refusal := run .ok s

/-- A software trap completes, then enters the handler with the following address (R118); deferred traps that are
pending arose before it and go first at that boundary (R370). -/
def softTrap (cause : Nat) (s : State) : Host.Outcome State Fault Refusal :=
  let s1 := finish (s.crew.sc.pc + 4) (settleLoads s)
  .next (takeDeferred (onC (fun c => { c with ptraps := c.ptraps ++ [⟨cause, 0, .now⟩] }) s1))

/-- trap. -/
def execTrap (c : BitVec 8) (s : State) : Host.Outcome State Fault Refusal := softTrap c.toNat s
/-- brk. -/
def execBrk (s : State) : Host.Outcome State Fault Refusal := softTrap 0x18 s

/-- An atomic or pop of the scalar stream has its answer outstanding in the Sieve or at a peer. -/
def heldAmo (c : Crew) : Bool := awaitsSieve c || awaitsPeer false c

/-- The state of a handle of a crew's team. -/
def handleAt (s : State) (k : CrewKey) (h : Nat) : Option HandleState :=
  (findTeam s k.job k.team).bind (fun t => (smGet none t.handles h).map (·.st))

/-- The lane stream of a crew may issue. -/
def laneReady (c : Crew) : Bool :=
  (curRun c).any (fun r => r.gangs.any (fun g => g.wait == .ready || g.wait == .stall))

/-- Operations of any counted class are in flight; a queue push is counted in none (R182). -/
def anyOps (c : Crew) : Bool :=
  c.ops.any opLive || c.sieve.any (fun e => match e.kind with
    | .push _ _ => false
    | _ => true)

/-- exit (R120, R219, R293, R341): waits for the counters, then ends the scalar stream; a handler's exit
discards the suspended run and the runs behind it. -/
def execExit (s : State) : Host.Outcome State Fault Refusal :=
  .next (match (do
      notInRegion s
      need (!anyOps s.crew) (.wait .other)
      .ok () : Res Unit) with
    | .error e => stopScalar e s
    | .ok _ =>
      let s1 := retire (onC (fun c => { c with
        status := .exited
        wait := .none
        ln := if c.handler.isSome then { c.ln with cur := none, queue := [] } else c.ln }) s)
      crewComplete (dropToken s.crew.key (coreOf s) s1))

/-- resume (R121, R294). -/
def execResume (s : State) : Host.Outcome State Fault Refusal := runTo resumeBody s

/-! ### Nesting (R28 to R30, R122, R123) -/

/-- A little-endian field of bytes. -/
def fieldAt (b : List Byte) (off n : Nat) : Nat := bytesToNat ((b.drop off).take n)

/-- A slice record of 128 bytes (R13). -/
def parseRec (b : List Byte) : Rec where
  format := fieldAt b 0 2
  flags := fieldAt b 2 2
  gx := fieldAt b 4 4
  gy := fieldAt b 8 2
  gz := fieldAt b 10 2
  crews := fieldAt b 12 1
  slices := fieldAt b 13 1
  regg := fieldAt b 14 1
  accb := fieldAt b 15 1
  spad := fieldAt b 16 2
  logsz := fieldAt b 18 1
  spillsz := fieldAt b 19 1
  detexp := fieldAt b 20 1
  cmpl := fieldAt b 21 1
  depth := fieldAt b 22 1
  placeByte := fieldAt b 23 1
  roles := fieldAt b 24 4
  resv := fieldAt b 28 4
  entry := BitVec.ofNat 64 (fieldAt b 32 8)
  args := BitVec.ofNat 64 (fieldAt b 40 8)
  handler := BitVec.ofNat 64 (fieldAt b 48 8)
  deadline := BitVec.ofNat 64 (fieldAt b 56 8)
  budget := BitVec.ofNat 64 (fieldAt b 64 8)
  doneaddr := BitVec.ofNat 64 (fieldAt b 72 8)
  doneseq := BitVec.ofNat 64 (fieldAt b 80 8)
  preq0addr := BitVec.ofNat 64 (fieldAt b 88 8)
  preq0seq := BitVec.ofNat 64 (fieldAt b 96 8)
  preq1addr := BitVec.ofNat 64 (fieldAt b 104 8)
  preq1seq := BitVec.ofNat 64 (fieldAt b 112 8)
  ctxbase := BitVec.ofNat 64 (fieldAt b 120 8)

/-- A pointer to an aligned word in aperture 0x0 to 0x2 (R16). (DEDUCED, unsafe: notes/assumptions/26.md) -/
def wordPtr (p : W64) : Bool := decide (apOf p ≤ 2) && !mbzBad p && fld p 2 0 == 0

/-- A prerequisite with no address, or with one that names no word, holds nothing back.
(DEDUCED, unsafe: notes/assumptions/26.md) -/
def preInit (addr : W64) : PreqSt := if addr = 0 ∨ !wordPtr addr then .met else .unmet

/-- Append a record to a slice queue. -/
def pushRec (q : Nat) (r : Rec) (parent : Option Nat) (die : Nat) (secure : Bool) (s : State) : State :=
  let x : QRec := ⟨s.nextTake, r, parent, die, secure, preInit r.preq0addr, preInit r.preq1addr, false⟩
  { modQ q (fun y => { y with recs := y.recs ++ [x] }) s with nextTake := s.nextTake + 1 }

/-- The deadline of a child (R30): the earlier of its own and its parent's effective one, 0 standing for none. -/
def childDeadline (own parent : Nat) : Nat :=
  if own = 0 then parent else if parent = 0 then own else min own parent

/-- Push a child of the crew's job slice (R29 to R31): depth, deadline and world are the device's to set, and the
parent's grid counts it. (DEDUCED, unsafe: notes/assumptions/38.md) -/
def pushChild (q : Nat) (r : Rec) (s : State) : State :=
  let r' := { r with
    depth := s.job.rcd.depth + 1
    deadline := BitVec.ofNat 64 (childDeadline r.deadline.toNat s.job.deadline) }
  pushRec q r' (some s.job.take) (dieOf (coreOf s)) s.job.secure s

/-- Read the 128-byte record at a pointer in aperture 0x0 to 0x2 or 0x4, aligned to 128 bytes (R122, R212). -/
def readRec (p : W64) (s : State) : Res (Rec × State) := do
  need (decide (apOf p ≤ 2) || apOf p == 4) (.trap 0x06 p)
  need (!apBad s 32 p 128) (.trap 0x06 p)
  need (p.toNat % 128 == 0) (.trap 0x07 p)
  let (b, t) ← memRead 32 p 128 s
  .ok (parseRec b, t)

/-- No place for a record, or the queue's banks refuse pushes. -/
def qFull (s : State) (q : Nat) : Bool :=
  decide (qCap (sliceQ s q).qctl ≤ (sliceQ s q).recs.length) || qRefused s (sliceQ s q).qctl 128

/-! ### Graft (R38, R39, R124) -/

/-- graft after an arrival kept across a trap (R97): it waits on, or the move has been made. -/
def graftKeptBody (k : GraftKept) (s : State) : State :=
  let s1 := onC (fun c => { c with graftKept := none }) s
  match k.done with
  | none => onC (fun c => { c with wait := .graft k.hint }) s1
  | some f => raiseClock (if isDet s then some f else none) (finish (s.crew.sc.pc + 4) s1)

/-- graft: a crew arrives once its runs are done, and waits for the move. In a handler the runs are the handler's own
(R293). (DEDUCED, unsafe: notes/assumptions/23.md) -/
def graftBody (a : BitVec 6) (s : State) : Res State := do
  notInRegion s
  match s.crew.wait, s.crew.graftKept.filter (fun k => k.waits && k.pc == s.crew.sc.pc) with
  | .graft h, _ => .error (.wait (.graft h))
  | _, some k => .ok (graftKeptBody k s)
  | _, none =>
    need (decide (runsOut s.crew = 0)) (.wait .lanes)
    .ok (onC (fun c => { c with wait := .graft (rdS s a.toNat), graftKept := none }) s)

/-- graft. (DEDUCED, unsafe: notes/assumptions/23.md) -/
def execGraft (a : BitVec 6) (s : State) : Host.Outcome State Fault Refusal := runSelf (graftBody a) s

end Sys2Proof.Machine
end

