-- ==== Sys2Proof/Machine/MemScalar.lean ====
section
/-! DEFINITION. Scalar loads, stores, atomics, fences, counter waits and cache maintenance (R178 to R193, R198,
R199, R213, R316, R320). -/

namespace Sys2Proof.Machine

/-! ### Accesses through aperture 0x3 (R188) -/

/-- The scalar access of this description, in flight or answered. -/
def isRemote (l : List RemAcc) (o : Op) : Bool :=
  match o.kind with
  | .remote false m _ => m == l
  | _ => false

/-- A scalar access through aperture 0x3 has been sent. -/
def sentScalar (x : RemAcc) (s : State) : Bool := (findOp s (isRemote [x])).isSome

/-- A scalar access through aperture 0x3: it is sent once, as a release if rel is set, waits for its reply, and goes on
with the reply. -/
def remoteScalar (rel : Bool) (x : RemAcc) (fin : List Byte → State → Res State) (s : State) : Res State :=
  match findOp s (isRemote [x]) with
  | some o => match o.kind with
    | .remote _ _ (some (.data b)) => fin b (opEnd (isRemote [x]) s)
    | .remote _ _ (some (.failed i)) => .error (.peer i)
    | _ => .error (.wait .remote)
  | none => do
    need (!opFull s .fabric) (.wait .other)
    .error (.remote [x] rel)

/-! ### Loads and stores (R191, R192) -/

/-- Bytes and signedness of a load width code. -/
def ldWidth (w : BitVec 3) : Nat × Bool := (2 ^ (w.toNat / 2), w.toNat % 2 == 0 && w != 6)

/-- The loaded value as a register holds it. -/
def ldValue (w : BitVec 3) (b : List Byte) : W64 :=
  let (n, signed) := ldWidth w
  widen (8 * n) signed (bytesToNat b)

/-- An operation in flight issued by the crew in focus. -/
def newOp (s : State) (cls : OpClass) (kind : OpKind) (pages : List Nat) : Op :=
  ⟨cls, kind, pages, inRegion s, false, false, s.crew.sieveOrder⟩

/-- ld and ld.ro: checked and translated at the load, the value returning later (R97, R191). -/
def ldBody (ro : Bool) (d a : BitVec 6) (w : BitVec 3) (o : BitVec 10) (s : State) : Res State := do
  need (!liveIn s d.toNat) (.trap 0x02 0)
  let n := (ldWidth w).1
  let p := rdS s a.toNat + BitVec.ofInt 64 (o.toInt * n)
  let l ← locate s 32 p n 0
  match l.loc with
  | .remote _ _ => remoteScalar false ⟨p, .read n, 32⟩ (fun b t => putS d.toNat (ldValue w b) t) s
  | _ =>
    need (!opFull s .load) (.wait .other)
    let (b, bad, t) := rdLoc l.loc n ro (notePlace l s)
    .ok (addOp (newOp s .load (.load d.toNat (ldValue w b) bad (BitVec.ofNat 64 (vaOf s 32 p))) [l.page]) t)

/-- ld (R191). (DESIGN CHOICE, unsafe: notes/assumptions/7.md) -/
def execLd (d a : BitVec 6) (w : BitVec 3) (o : BitVec 10) (s : State) : Host.Outcome State Fault Refusal :=
  run (ldBody false d a w o) s
/-- ld.ro (R186, R191). (DESIGN CHOICE, unsafe: notes/assumptions/7.md) -/
def execLdRo (d a : BitVec 6) (w : BitVec 3) (o : BitVec 10) (s : State) : Host.Outcome State Fault Refusal :=
  run (ldBody true d a w o) s

/-- st: the store is issued, and its counter falls when it is performed at device scope (R182, R192). -/
def stBody (d a : BitVec 6) (w : BitVec 2) (o : BitVec 12) (s : State) : Res State := do
  let n : Nat := 2 ^ w.toNat
  let p := rdS s a.toNat + BitVec.ofInt 64 (o.toInt * n)
  let bytes := natToBytes n (rdS s d.toNat).toNat
  let l ← locate s 32 p n 1
  match l.loc with
  | .remote _ _ => remoteScalar false ⟨p, .write bytes, 32⟩ (fun _ t => .ok t) s
  | _ =>
    need (!opFull s .store) (.wait .other)
    .ok (wrLoc l.loc bytes (addOp (newOp s .store (.store [l.loc]) [l.page]) (notePlace l s)))

/-- st (R192). (DESIGN CHOICE, unsafe: notes/assumptions/7.md) -/
def execSt (d a : BitVec 6) (w : BitVec 2) (o : BitVec 12) (s : State) : Host.Outcome State Fault Refusal :=
  run (stBody d a w o) s

/-! ### Fences (R178 to R181, R187, R198, R320) -/

/-- An operation that a fence waits for: at the given scope, with release, with acquire. A store or plain scatter is
seen by the crews of its core as soon as it is issued, goes home at a release of die scope, and is performed at device scope
when its counter falls.
(DEDUCED, safe: notes/assumptions/11.md) -/
def fenceHolds (scope : Nat) (rel acq : Bool) (o : Op) : Bool :=
  match o.kind with
  | .load _ _ _ _ | .laneLoad _ | .gather _ => true
  | .part _ _ _ _ _ _ => acq || rel
  | .amo _ | .vamo _ _ => true
  | .store _ | .scatter _ | .scatAdd _ => rel && decide (5 ≤ scope)
  | .peerAmo _ _ _ d => decide (6 ≤ scope) && (d != 1025 || rel)
  | _ => false

/-- A Sieve entry that a release at device or system scope waits for (R320): any but a pop, which blocks its crew. -/
def fenceEntry (e : SieveEntry) : Bool :=
  match e.kind with
  | .pop _ _ _ _ => false
  | _ => true

/-- A Sieve entry of an atomic or a scatter-add. -/
def sieveMem (e : SieveEntry) : Bool :=
  match e.kind with
  | .amo _ | .vamo _ _ | .add _ => true
  | _ => false

/-- The newest flush index among entries. -/
def newestFlush (l : List SieveEntry) : Nat := (l.map (·.flush)).foldl max 0

/-- The page of an access held in the Sieve. -/
def sievePage (e : SieveEntry) : Option Nat :=
  match e.kind with
  | .amo a => some (fld a.va 55 12)
  | .vamo a _ => some (fld a.va 55 12)
  | .add a => some (fld a.va 55 12)
  | _ => none

/-- Invalidations the crew's fences wait for (R187). (DESIGN CHOICE, unsafe: notes/assumptions/9.md) -/
def ackWaits (s : State) : List TlbEntry := s.tlbs.filter (fun e => e.stale && e.stores.contains s.crew.key)

/-- Sieve entries of the crew's own job slice that hold back one of those acknowledgements (R316, R320). -/
def ackSieve (s : State) : List SieveEntry :=
  let pages := (ackWaits s).map (·.page)
  ((allCrews s).filter (fun c => c.key.job == s.crew.key.job)).flatMap (fun c =>
    c.sieve.filter (fun e => (sievePage e).any pages.contains))

/-- What a fence waits for; covers the crew's lane runs when runs is set (R175). First come the crew's issued accesses,
but for those that an entry in the Sieve goes before, and, once a release's dirty lines are home, the acknowledgements
that no such entry holds back (R187); then the Sieve entries, and what waits for them (R320).
(DEDUCED, unsafe: notes/assumptions/27.md) (DEDUCED, safe in part: notes/assumptions/11.md) -/
def fenceWait (scope : Nat) (rel acq runs : Bool) (s : State) : Res Unit := do
  let wide := decide (5 ≤ scope)
  let stop := fun (w : Wait) => if rel && decide (2 ≤ scope) then Stop.flushWait w else Stop.wait w
  let s1 := if rel && decide (2 ≤ scope) then releaseLines s else s
  need (!runs || decide (runsOut s.crew = 0)) (.wait .lanes)
  need (!s.crew.ops.any (fun o => fenceHolds scope rel acq o && !behindSieve s.crew o)) (.wait .other)
  let held := ackSieve s1
  need (!wide || (ackWaits s1).all (fun e => held.any (fun x => sievePage x == some e.page))) (stop .other)
  let mine := s.crew.sieve.filter fenceEntry
  need (!rel || !wide || mine.isEmpty) (stop (.detSync (newestFlush mine)))
  need (!wide || held.isEmpty) (stop (.detSync (newestFlush held)))
  need (!s.crew.ops.any (fenceHolds scope rel acq)) (.wait .other)

/-- What a completed fence does to the core's L1 (R162, R172, R179, R186). (DESIGN CHOICE, unsafe: notes/assumptions/8.md) -/
def fenceLines (scope : Nat) (rel acq : Bool) (s : State) : State :=
  let s1 := if rel && decide (4 ≤ scope) then releaseLines s
    else if rel && decide (2 ≤ scope) then releaseCore s else s
  if acq && decide (2 ≤ scope) then acquireLines s1 else s1

/-- A fence of an order code. (DEDUCED, safe: notes/assumptions/11.md) -/
def fenceBody (ord scope : Nat) (runs : Bool) (s : State) : Res State := do
  let rel := ord != 0
  let acq := ord != 1
  fenceWait scope rel acq runs s
  .ok (fenceLines scope rel acq s)

/-- fence (R198). -/
def execFence (o : BitVec 2) (sc : BitVec 3) (s : State) : Host.Outcome State Fault Refusal :=
  run (fenceBody o.toNat sc.toNat true) s

/-! ### Atomics (R184, R193, R316) -/

/-- Scope of an ORD code; 0 when relaxed. -/
def ordScope (o : Nat) : Nat := if o = 0 then 0 else if o ≤ 3 then 5 else 6
/-- An ORD code that acquires. -/
def ordAcq (o : Nat) : Bool := o == 1 || o == 3 || o == 4 || o == 6
/-- An ORD code that releases. -/
def ordRel (o : Nat) : Bool := o == 2 || o == 3 || o == 5 || o == 6

/-- Bring a core's copy of an atomic's line home (R184). -/
def amoSync (l : Loc) (n : Nat) (s : State) : State :=
  match l with
  | .phys pa coh => homeSync (crewAsker s) true pa n coh s
  | _ => s

/-- Write at the home of a place, past any L1. -/
def homeWr (l : Loc) (bytes : List Byte) (s : State) : State :=
  match l with
  | .phys pa _ => memWr (some s.crew.key) pa bytes s
  | _ => wrLoc l bytes s

/-- Read at the home of a place. -/
def homeRd (l : Loc) (n : Nat) (s : State) : List Byte × Bool × State :=
  match l with
  | .phys pa _ => (memRd s pa n, badAt s.memBad pa n, s)
  | _ => rdLoc l n false s

/-- The data of an atomic is uncorrectable. -/
def amoBad (a : AmoOp) (s : State) : Bool := (homeRd a.loc a.n (amoSync a.loc a.n s)).2.1

/-- Perform one atomic: the old value, or none when it is uncorrectable and nothing is written (R97, R193). -/
def amoDo (a : AmoOp) (s : State) : Option Nat × Flags × State :=
  let (bs, bad, t) := homeRd a.loc a.n (amoSync a.loc a.n s)
  if bad then (none, fNone, t)
  else
    let old := bytesToNat bs
    let (v, wr, f) := amoApply a.op a.n old a.b.toNat a.cmp.toNat
    (some old, f, if wr then homeWr a.loc (natToBytes a.n v) t else t)

/-- Room in the Sieve for n entries of this interval (R316). -/
def sieveRoom (s : State) (n : Nat) : Bool :=
  decide ((s.crew.sieve.filter (fun e => e.flush == intervalOf s)).length + n ≤ 1024)

/-- Add a Sieve entry. -/
def addSieve (lane : Nat) (k : SieveKind) (s : State) : State :=
  onC (fun c => { c with
    sieve := c.sieve ++ [⟨c.clock / flushF s.job, lane, c.sieveOrder, k⟩], sieveOrder := c.sieveOrder + 1 }) s

/-- The release part of an atomic at its issue (R180, R193): it waits as a fence does, and dirty lines go home. -/
def amoRelease (ord : Nat) (runs : Bool) (s : State) : Res State := do
  if ordScope ord != 0 then fenceWait (ordScope ord) (ordRel ord) (ordAcq ord) runs s
  .ok (if ordRel ord then releaseLines s else s)

/-- amo (R193): the release part at issue, then the operation goes to its home, to its peer, or into the Sieve. -/
def amoBody (d a b : BitVec 6) (op : Nat) (wide : Bool) (ord : Nat) (s : State) : Res State := do
  notInRegion s
  let n := if wide then 8 else 4
  let p := rdS s a.toNat
  let l ← locate s 32 p n 2
  let acq := if ordAcq ord then ordScope ord else 0
  let bv := rdS s b.toNat
  let cmp := rdS s d.toNat
  let x : AmoOp := ⟨op, n, BitVec.ofNat 64 (vaOf s 32 p), l.loc, bv, cmp, 32, d.toNat, acq⟩
  let r : RemAcc := ⟨p, .amo op n bv cmp, 32⟩
  if isDet s then
    let s1 ← amoRelease ord true s
    need (sieveRoom s 1) (.wait (.detSync (intervalOf s)))
    .ok (addSieve 32 (.amo x) (notePlace l s1))
  else if isFar l.loc then
    let s1 ← if sentScalar r s then .ok s else amoRelease ord true s
    remoteScalar (ordRel ord) r (fun v t =>
      let t1 := addFlags (amoApply op n (bytesToNat v) bv.toNat cmp.toNat).2.2 t
      putS d.toNat (BitVec.ofNat 64 (bytesToNat v)) (if acq != 0 then acquireLines t1 else t1)) s1
  else
    let s1 ← amoRelease ord true s
    need (!opFull s .store) (.wait .other)
    .ok (addOp (newOp s .store (.amo x) [l.page]) (notePlace l s1))

/-- amo (R193). -/
def execAmo (d a b : BitVec 6) (o : BitVec 4) (w : BitVec 1) (sc : BitVec 3) (s : State) :
    Host.Outcome State Fault Refusal := run (amoBody d a b o.toNat (w == 1) sc.toNat) s

/-! ### Counter waits (R183, R199, R320) -/

/-- The class of a code. -/
def classOf (c : Nat) : OpClass :=
  match c with
  | 0 => .load
  | 1 => .store
  | 2 => .copy
  | 3 => .matrix
  | 4 => .gather
  | 5 => .scatter
  | _ => .fabric

/-- The operations of a class that the instruction of a Sieve entry is older than. -/
def newerThan (c : Crew) (k : OpClass) (e : SieveEntry) : Nat :=
  (c.ops.filter (fun o => o.cls == k && opCounts c o && decide (e.order < o.order))).length +
    (((sieveOf k c).map (·.order)).eraseDups.filter (fun r => decide (e.order < r))).length

/-- The Sieve entries of a class that a threshold of n excludes: all but those of the newest n operations (R183, R320). -/
def excluded (c : Crew) (k : OpClass) (n : Nat) : List SieveEntry :=
  (sieveOf k c).filter (fun e => decide (n ≤ newerThan c k e))

/-- An ewait whose class can stand in the Sieve waits, in deterministic mode, until the crew's lane runs have issued their
accesses, so that the entries it finds are the same on every rerun (R317, R320).
(DEDUCED, unsafe: notes/assumptions/27.md) -/
def ewaitRuns (s : State) (k : OpClass) : Bool := isDet s && (k == .store || k == .scatter)

/-- ewait. -/
def ewaitBody (n c : Nat) (s : State) : Res State := do
  let k := classOf c
  need (!ewaitRuns s k || decide (runsOut s.crew = 0)) (.wait .lanes)
  let held := excluded s.crew k n
  need held.isEmpty (.wait (.detSync (newestFlush held)))
  need (decide (outstanding s.crew k ≤ n)) (.wait .other)
  .ok s

/-- ewait (R199). -/
def execEwait (n : BitVec 12) (c : BitVec 3) (s : State) : Host.Outcome State Fault Refusal :=
  run (ewaitBody n.toNat c.toNat) s

/-! ### Cache maintenance (R213) -/

/-- The pages of a range at which translation is tried: address, length. -/
def rangeCuts (p : W64) (n : Nat) : List (Nat × Nat) := pageCuts (n / 4096 + 2) (fld p 55 0) n

/-- Translate the pages of a cmo: a missing permission traps 0x09, any other fault parks; a range outside the global apertures
traps 0x06. (DESIGN CHOICE, unsafe: notes/assumptions/60.md) -/
def cmoCheck (op : Nat) (p : W64) (n : Nat) (s : State) : Res Unit := do
  need (decide (apOf p ≤ 2) && fld p 59 56 == 0 && decide (fld p 55 0 + n ≤ 2 ^ 56)) (.trap 0x06 p)
  (rangeCuts p n).forM (fun q => do
    let try1 := fun (kind : Nat) => match translate s (crewAsker s) q.1 kind with
      | .ok _ => (.ok () : Res Unit)
      | .error (.fault k lv pa) =>
        if k = 2 ∨ k = 3 ∨ k = 4 then .error (.trap 0x09 (BitVec.ofNat 64 (q.1 + 2 ^ 56 * k)))
        else .error (xStop p q.1 kind (.fault k lv pa))
      | .error e => .error (xStop p q.1 kind e)
    try1 0
    if op = 2 then try1 1 else .ok ())

/-- A cmo starts and the crew waits for it to complete. -/
def cmoBody (op : Nat) (a b : BitVec 6) (sc : BitVec 3) (s : State) : Res State := do
  let p := rdS s a.toNat
  let n := (rdS s b.toNat).toNat
  if n = 0 then .ok (finish (s.crew.sc.pc + 4) s)
  else
    need (decide (s.crew.wait ≠ .cmo)) (.wait .cmo)
    cmoCheck op p n s
    .ok (onC (fun c => { c with wait := .cmo, cmo := some ⟨op, sc.toNat, p, n⟩ }) s)

/-- cmo.wb. -/
def execCmoWb (a b : BitVec 6) (sc : BitVec 3) (s : State) : Host.Outcome State Fault Refusal := runSelf (cmoBody 0 a b sc) s
/-- cmo.wbinv. -/
def execCmoWbinv (a b : BitVec 6) (sc : BitVec 3) (s : State) : Host.Outcome State Fault Refusal :=
  runSelf (cmoBody 1 a b sc) s
/-- cmo.inv. -/
def execCmoInv (a b : BitVec 6) (sc : BitVec 3) (s : State) : Host.Outcome State Fault Refusal :=
  runSelf (cmoBody 2 a b sc) s
/-- cmo.iinv. -/
def execCmoIinv (a b : BitVec 6) (sc : BitVec 3) (s : State) : Host.Outcome State Fault Refusal :=
  runSelf (cmoBody 3 a b sc) s
/-- cmo.rodrop. -/
def execCmoRodrop (a b : BitVec 6) (sc : BitVec 3) (s : State) : Host.Outcome State Fault Refusal :=
  runSelf (cmoBody 4 a b sc) s

/-- A core lies in the scope instance of another. -/
def inScope (scope mine other : Nat) : Bool :=
  match scope with
  | 2 => mine == other
  | 3 => clusterOf mine == clusterOf other
  | 4 => dieOf mine == dieOf other
  | _ => true

/-- The physical pieces of a range for the crew in focus, where they translate. -/
def cmoPieces (p : W64) (n : Nat) (s : State) : List (Nat × Nat) :=
  (rangeCuts p n).filterMap (fun q => match translate s (crewAsker s) q.1 0 with
    | .ok x => some (x.pa, q.2)
    | .error _ => none)

/-- A cmo's pages stand in the translation caches of its core (R213, R280). -/
def cmoNote (p : W64) (n : Nat) (s : State) : State :=
  (rangeCuts p n).foldl (fun t q => match translate t (crewAsker t) q.1 0 with
    | .ok x => noteHolders (crewAsker t) (q.1 / 4096) x t
    | .error _ => t) s

/-- What a completed cmo has done to the caches of its scope instance.
(DESIGN CHOICE, unsafe: notes/assumptions/8.md) -/
def cmoApply (x : CmoCmd) (t : State) : State :=
  let s := cmoNote x.start x.len t
  let ps := cmoPieces x.start x.len s
  let hit := fun (l : L1Line) =>
    inScope x.scope (coreOf s) l.core && ps.any (fun q => overlaps (128 * l.line) 128 q.1 q.2)
  match x.op with
  | 0 => wbLines (fun l => hit l && dataKind l.kind) false s
  | 1 => wbLines (fun l => hit l && (dataKind l.kind || l.kind == .ro)) true s
  | 2 => dropLines (fun l => hit l && (dataKind l.kind || l.kind == .ro)) s
  | 3 => dropLines (fun l => hit l && (l.kind == .scode || l.kind == .lcode)) s
  | _ => dropLines (fun l => hit l && l.kind == .ro) s

end Sys2Proof.Machine
end

