-- ==== Sys2Proof/Machine/Sync.lean ====
section
/-! DEFINITION. Copies, buffer handles, stage rings, barriers and queues (R200 to R212). -/

namespace Sys2Proof.Machine

/-! ### Waiters in order (R40) -/

/-- No crew of the team that waits for the same thing goes before the crew in focus. -/
def firstOfTeam (w : Wait) (s : State) : Bool :=
  !(teamCrews s).any (fun c => c.wait == w && c.park.isNone && keyLt c.key s.crew.key)

/-- No crew at all that waits for the same thing goes before the crew in focus. -/
def firstOfAll (w : Wait) (s : State) : Bool :=
  !(allCrews s).any (fun c => c.wait == w && c.park.isNone && keyLt c.key s.crew.key)

/-- Trap "handle misuse" naming a handle. -/
def badHandle (h : Nat) : Stop := .trap 0x10 (BitVec.ofNat 64 h)

/-- The bound handle of a name; an unbound name traps 0x10. -/
def boundHandle (s : State) (h : Nat) : Res Handle :=
  match handleOf s h with
  | some x => .ok x
  | none => .error (badHandle h)

/-! ### Copy commands (R200) -/

/-- A copy command as its four registers give it. -/
structure CopyCmd where
  src : W64
  dst : W64
  kind : Nat
  rows : Nat
  resv : Nat
  len : Nat
  dstride : Int
  sstride : Int
  deriving DecidableEq, Repr

/-- Read a command from sA to sA + 3. -/
def copyCmd (s : State) (a : Nat) : CopyCmd where
  src := rdS s a
  dst := rdS s (a + 1)
  kind := fld (rdS s (a + 2)) 63 60
  rows := fld (rdS s (a + 2)) 59 44 + 1
  resv := fld (rdS s (a + 2)) 43 32
  len := fld (rdS s (a + 2)) 31 0
  dstride := sVal 32 (fld (rdS s (a + 3)) 63 32)
  sstride := sVal 32 (fld (rdS s (a + 3)) 31 0)

/-- A global pointer. -/
def isGlobal (p : W64) : Bool := decide (apOf p ≤ 2)
/-- A scratchpad pointer. -/
def isSpad (p : W64) : Bool := apOf p == 4

/-- The apertures a KIND allows. -/
def copyKindOk (c : CopyCmd) : Bool :=
  match c.kind with
  | 0 => isGlobal c.src && isSpad c.dst
  | 1 => isSpad c.src && isGlobal c.dst
  | 2 => isGlobal c.src && isGlobal c.dst
  | 3 => (isGlobal c.src || isSpad c.src) && (isGlobal c.dst || isSpad c.dst)
  | _ => false

/-- The conditions of R200. -/
def copyOk (c : CopyCmd) : Bool :=
  copyKindOk c && c.resv == 0 && c.len != 0 && c.len % 16 == 0 &&
  (c.kind == 3 || (c.rows == 1 && c.sstride == 0 && c.dstride == 0)) &&
  c.src.toNat % 16 == 0 && c.dst.toNat % 16 == 0 && c.sstride % 16 == 0 && c.dstride % 16 == 0

/-- The address of a row, computed without wrapping. -/
def rowAt (p : W64) (stride : Int) (r : Nat) : Int := (p.toNat : Int) + stride * r

/-- The addresses a pointer's aperture offers: [lo, hi). -/
def apRange (s : State) (p : W64) : Int × Int :=
  let lo : Nat := 2 ^ 60 * apOf p
  if isSpad p then (lo, (lo + spadBytes s : Nat)) else (lo, (lo + 2 ^ 56 : Nat))

/-- The first row of one side that leaves its aperture or allocation. -/
def badRow (s : State) (p : W64) (stride : Int) (rows len : Nat) : Option W64 :=
  let (lo, hi) := apRange s p
  ((List.range rows).find? (fun r =>
    let a := rowAt p stride r
    decide (a < lo) || decide (hi < a + len))).map (fun r => BitVec.ofInt 64 (rowAt p stride r))

/-- Every scratchpad destination row lies in a handle's buffer. -/
def inBuffer (c : CopyCmd) (h : Handle) : Bool :=
  let lo : Nat := 2 ^ 62 + h.base
  !isSpad c.dst || (List.range c.rows).all (fun r =>
    let a := rowAt c.dst c.dstride r
    decide ((lo : Int) ≤ a) && decide (a + c.len ≤ (lo + h.size : Nat)))

/-- cp.issue on a handle, with a barrier if one is named (R201). -/
def copyIssue (h a : Nat) (bar : Option Nat) (s : State) : Res State := do
  needRole s .copy
  notInRegion s
  let c := copyCmd s a
  need (copyOk c) (badHandle h)
  match badRow s c.src c.sstride c.rows c.len, badRow s c.dst c.dstride c.rows c.len with
  | some p, _ => .error (.trap 0x06 p)
  | none, some p => .error (.trap 0x06 p)
  | none, none =>
    let x ← boundHandle s h
    need (x.st == .free && firstOfTeam (.handleFree h) s) (.wait (.handleFree h))
    need (inBuffer c x) (badHandle h)
    match bar with
    | some b => need (barrierOf s b).isSome (.trap 0x0F (BitVec.ofNat 64 b))
    | none => .ok ()
    need (!opFull s .copy) (.wait .other)
    let s1 := setHandle h .filling s
    let s2 := addOp (newOp s .copy (.copy ⟨c.src, c.dst, c.rows, c.len, c.sstride, c.dstride, h, bar, none⟩) []) s1
    .ok (match bar with
      | some b => onT (fun t => { t with barriers := smMod none t.barriers b (·.map (fun y =>
          { y with copies := y.copies + 1 })) }) s2
      | none => s2)

/-- cp.issue (R201). -/
def execCpIssue (d : BitVec 6) (a : BitVec 4) (s : State) : Host.Outcome State Fault Refusal :=
  run (copyIssue d.toNat (4 * a.toNat) none) s
/-- cp.issue with a barrier (R201). -/
def execCpIssueBar (d : BitVec 6) (a : BitVec 4) (b : BitVec 5) (s : State) : Host.Outcome State Fault Refusal :=
  run (copyIssue d.toNat (4 * a.toNat) (some b.toNat)) s

/-! ### Stage rings (R206) -/

/-- A stage ring descriptor. -/
structure RingDesc where
  idx : Nat
  ph : Bool
  n : Nat
  first : Nat
  deriving DecidableEq, Repr

/-- Read a descriptor; one that breaks the table traps 0x10. -/
def ringDesc (v : W64) : Res RingDesc := do
  let r : RingDesc := ⟨fld v 19 14, v.getLsbD 13, fld v 12 6, fld v 5 0⟩
  need (fld v 63 20 == 0 && decide (r.idx < r.n) && decide (r.n ≤ 64) && decide (r.first + r.n ≤ 64))
    (badHandle (r.first + r.idx))
  .ok r

/-- cp.issue.ring (R201, R206). -/
def execCpIssueRing (d : BitVec 6) (a : BitVec 4) (s : State) : Host.Outcome State Fault Refusal :=
  run (fun t => do
    needRole t .copy
    notInRegion t
    let r ← ringDesc (rdS t d.toNat)
    copyIssue (r.first + r.idx) (4 * a.toNat) none t) s

/-- h.radv (R206). -/
def execHRadv (d a : BitVec 6) (s : State) : Host.Outcome State Fault Refusal :=
  run (fun t => do
    let v := rdS t a.toNat
    let r ← ringDesc v
    let wrap := r.idx + 1 == r.n
    let idx := if wrap then 0 else r.idx + 1
    let ph := r.ph != wrap
    putS d.toNat (BitVec.ofNat 64 (idx * 2 ^ 14 + (if ph then 2 ^ 13 else 0) + r.n * 2 ^ 6 + r.first)) t) s

/-! ### Handle operations (R203 to R205) -/

/-- cp.yield (R203). -/
def execCpYield (d : BitVec 6) (i : BitVec 32) (s : State) : Host.Outcome State Fault Refusal :=
  runSelf (fun t => do
    needRole t .copy
    notInRegion t
    let h := d.toNat
    let x ← boundHandle t h
    let target := t.crew.sc.pc + i.signExtend 64
    if x.st = .full then .ok (finish target t)
    else .ok (onC (fun c => { c with wait := .cpYield h target }) t)) s

/-- Handle entries in use on a core. -/
def handlesUsed (s : State) (core : Nat) : Nat :=
  (((allTeams s).filter (fun t => placeCore t.place == some core)).map (fun t => t.handles.length)).foldl (· + ·) 0

/-- h.bind (R205). -/
def execHBind (d a : BitVec 6) (c : BitVec 4) (s : State) : Host.Outcome State Fault Refusal :=
  run (fun t => do
    let h := d.toNat
    let base := fld (rdS t a.toNat) 31 0
    let size := fld (rdS t a.toNat) 63 32
    need ((handleOf t h).isNone && base % 16 == 0 && size % 16 == 0 && decide (base + size ≤ spadBytes t)) (badHandle h)
    if handlesUsed t (coreOf t) < 64 then
      .ok (wrC c.toNat true (onT (fun x => { x with handles := smSet none x.handles h (some ⟨base, size, .free, 0, false⟩) }) t))
    else .ok (wrC c.toNat false t)) s

/-- h.unbind (R205). -/
def execHUnbind (d : BitVec 6) (s : State) : Host.Outcome State Fault Refusal :=
  run (fun t => do
    let x ← boundHandle t d.toNat
    need (x.st == .free) (badHandle d.toNat)
    .ok (onT (fun y => { y with handles := smDel y.handles d.toNat }) t)) s

/-- The core-scope release or acquire part of a handle or barrier operation (R204, R208): the crew's issued loads and
atomics come first. It is no scalar fence, so it does not cover lane runs still to issue their accesses (R175).
(DEDUCED, unsafe: notes/assumptions/11.md) -/
def coreWait (rel acq : Bool) (s : State) : Res Unit :=
  need (!s.crew.ops.any (fenceHolds 2 rel acq)) (.wait .other)

/-- Wait for a handle to be full, then claim it: acquire at core scope (R204). ph is the lap a ring expects. -/
def claimBody (h : Nat) (ph : Option Bool) (s : State) : Res State := do
  notInRegion s
  let x ← boundHandle s h
  coreWait false true s
  need (x.st == .full && (ph == none || ph == some x.flap)) (.wait (.handleFull h true ph))
  .ok (acquireLines (setHandle h .draining s))

/-- h.claim (R205). -/
def execHClaim (d : BitVec 6) (s : State) : Host.Outcome State Fault Refusal := run (claimBody d.toNat none) s

/-- h.rclaim (R206). -/
def execHRclaim (a : BitVec 6) (s : State) : Host.Outcome State Fault Refusal :=
  run (fun t => do
    notInRegion t
    let r ← ringDesc (rdS t a.toNat)
    claimBody (r.first + r.idx) (some r.ph) t) s

/-- An issued matrix operation still reads A from a handle (R231). -/
def readsHandle (h : Nat) (o : Op) : Bool :=
  match o.kind with
  | .mloop m => m.handle == some h
  | _ => false

/-- An atomic still to execute on a byte of a scratchpad buffer. -/
def amoOnBuffer (x : Handle) (o : Op) : Bool :=
  let hit := fun (a : AmoOp) => match a.loc with
    | .spad off => decide (x.base ≤ off) && decide (off < x.base + x.size)
    | _ => false
  match o.kind with
  | .amo a => hit a
  | .vamo l _ => l.any hit
  | _ => false

/-- Nothing of the team that the release of a handle orders first is outstanding: the crew's own loads and atomics,
and the team's atomics on the buffer (R204). -/
def releaseReady (x : Handle) (s : State) : Bool :=
  !s.crew.ops.any (fenceHolds 2 true false) && !(teamCrews s).any (fun c => c.ops.any (amoOnBuffer x))

/-- h.release (R204, R205, R231). (DEDUCED, unsafe: notes/assumptions/11.md) -/
def execHRelease (d : BitVec 6) (s : State) : Host.Outcome State Fault Refusal :=
  run (fun t => do
    notInRegion t
    let h := d.toNat
    let x ← boundHandle t h
    need (x.st == .draining) (badHandle h)
    need (!(teamCrews t).any (fun c => c.ops.any (readsHandle h))) (.wait .other)
    need (releaseReady x t) (.wait .other)
    .ok (setHandle h .free (releaseCore t))) s

/-- h.wait (R205). -/
def execHWait (d : BitVec 6) (s : State) : Host.Outcome State Fault Refusal :=
  run (fun t => do
    let x ← boundHandle t d.toNat
    need (x.st == .full) (.wait (.handleFull d.toNat false none))
    .ok t) s

/-- h.try (R205). -/
def execHTry (d : BitVec 6) (c : BitVec 4) (s : State) : Host.Outcome State Fault Refusal :=
  run (fun t => do
    notInRegion t
    let x ← boundHandle t d.toNat
    coreWait false true t
    if x.st = .full then .ok (wrC c.toNat true (acquireLines (setHandle d.toNat .draining t)))
    else .ok (wrC c.toNat false t)) s

/-- The code of a handle state. -/
def handleCode : HandleState → Nat
  | .free => 0
  | .filling => 1
  | .full => 2
  | .draining => 3

/-- h.state (R205). -/
def execHState (d a : BitVec 6) (s : State) : Host.Outcome State Fault Refusal :=
  setReg d (fun t => match handleOf t a.toNat with
    | none => 0
    | some x => BitVec.ofNat 64 (handleCode x.st + (if x.flap then 4 else 0) + 8)) s

/-! ### Barriers (R207 to R209) -/

/-- Trap "barrier misuse". -/
def badBar (b : Nat) : Stop := .trap 0x0F (BitVec.ofNat 64 b)

/-- The bound barrier of a name. -/
def boundBar (s : State) (b : Nat) : Res Barrier :=
  match barrierOf s b with
  | some x => .ok x
  | none => .error (badBar b)

/-- Barrier pool entries in use on a core. -/
def barsUsed (s : State) (core : Nat) : Nat :=
  (((allTeams s).filter (fun t => placeCore t.place == some core)).map (fun t => t.barriers.length)).foldl (· + ·) 0

/-- bar.alloc (R208). -/
def execBarAlloc (c : BitVec 4) (a : BitVec 6) (b : BitVec 5) (s : State) : Host.Outcome State Fault Refusal :=
  run (fun t => do
    let exp := fld (rdS t a.toNat) 15 0
    need ((barrierOf t b.toNat).isNone && exp != 0) (badBar b.toNat)
    if barsUsed t (coreOf t) < 32 then
      .ok (wrC c.toNat true (onT (fun x => { x with
        barriers := smSet none x.barriers b.toNat (some ⟨exp, [], 0, false, false, 0⟩) }) t))
    else .ok (wrC c.toNat false t)) s

/-- One arrival, in an interval. -/
def arrive (interval : Nat) (x : Barrier) : Barrier := { x with arrs := x.arrs ++ [interval] }

/-- bar.mark (R208). -/
def execBarMark (b : BitVec 5) (s : State) : Host.Outcome State Fault Refusal :=
  run (fun t => do
    notInRegion t
    let _ ← boundBar t b.toNat
    coreWait true false t
    .ok (barUpdate b.toNat (arrive (intervalOf t)) (releaseCore t))) s

/-- bar.meet on a barrier after an arrival kept across a stop (R296). -/
def meetKept (k : BarKept) (s : State) : State :=
  let s1 := onC (fun c => { c with barKept := none }) s
  match k.done with
  | none => onC (fun c => { c with wait := .barMeet k.bar k.ahead }) s1
  | some f => raiseClock (if isDet s then some f else none) (finish (s.crew.sc.pc + 4) (acquireLines s1))

/-- bar.meet (R208, R209): it arrives once, then waits for the phase it arrived in. -/
def meetBody (b : Nat) (s : State) : Res State := do
  notInRegion s
  let x ← boundBar s b
  match s.crew.wait, s.crew.barKept.filter (fun k => k.bar == b && k.pc == s.crew.sc.pc) with
  | .barMeet y a, _ => .error (.wait (.barMeet y a))
  | _, some k => .ok (meetKept k s)
  | _, none =>
    need (decide (barWaiters b s < 16)) (badBar b)
    coreWait true true s
    let s1 := onC (fun c => { c with wait := .barMeet b (x.arrs.length / x.exp) }) (releaseCore s)
    .ok (barUpdate b (arrive (intervalOf s)) s1)

/-- bar.meet. -/
def execBarMeet (b : BitVec 5) (s : State) : Host.Outcome State Fault Refusal := runSelf (meetBody b.toNat) s

/-- bar.hold (R208): waits for the next completion while PH = ph. -/
def execBarHold (p : BitVec 1) (b : BitVec 5) (s : State) : Host.Outcome State Fault Refusal :=
  runSelf (fun t => do
    let x ← boundBar t b.toNat
    coreWait false true t
    if x.ph = (p == 1) then
      need (decide (barWaiters b.toNat t < 16) || waitsBar b.toNat t.crew) (badBar b.toNat)
      .ok (onC (fun c => { c with wait := .barHold b.toNat }) t)
    else .ok (finish (t.crew.sc.pc + 4) (acquireLines t))) s

/-- bar.pend (R208). -/
def execBarPend (a : BitVec 6) (b : BitVec 5) (s : State) : Host.Outcome State Fault Refusal :=
  run (fun t => do
    let _ ← boundBar t b.toNat
    .ok (barUpdate b.toNat (fun y =>
      { y with pend := y.pend + sVal 32 (rdS t a.toNat).toNat, touched := true }) t)) s

/-- Copies of a team that will arrive on a barrier arrive on the entry moved to another key. -/
def moveBar (b g : Nat) (o : Op) : Op :=
  match o.kind with
  | .copy c => if c.bar = some b then { o with kind := .copy { c with bar := some g } } else o
  | _ => o

/-- bar.free (R208, R209): the name is unbound; an entry that copies still refer to stays in the pool. -/
def execBarFree (b : BitVec 5) (s : State) : Host.Outcome State Fault Refusal :=
  run (fun t => do
    let x ← boundBar t b.toNat
    need (decide (barWaiters b.toNat t = 0)) (badBar b.toNat)
    let t1 := onT (fun y => { y with barriers := smDel y.barriers b.toNat }) t
    if x.copies = 0 then .ok t1
    else
      let g := 32 + ((List.range 32).find? (fun i => (barrierOf t (32 + i)).isNone)).getD 32
      .ok (mapCrews (fun c => if c.key.job = t.crew.key.job ∧ c.key.team = t.crew.key.team then
          { c with ops := c.ops.map (moveBar b.toNat g) } else c)
        (onT (fun y => { y with barriers := smSet none y.barriers g (some x) }) t1))) s

/-- bar.phase (R208). -/
def execBarPhase (d : BitVec 6) (b : BitVec 5) (s : State) : Host.Outcome State Fault Refusal :=
  run (fun t => do
    let x ← boundBar t b.toNat
    putS d.toNat (if x.ph then 1 else 0) t) s

/-! ### Queues (R210 to R212, R317) -/

/-- The queue a pointer names: a slice queue or a data queue (R210). -/
inductive QName where
  | slice (q : Nat)
  | data (n : Nat)
  deriving DecidableEq, Repr

/-- Read a queue identifier. -/
def queueName (p : W64) : Option QName :=
  if apOf p ≠ 7 ∨ fld p 59 16 ≠ 0 ∨ fld p 14 12 ≠ 0 then none
  else if p.getLsbD 15 then (if fld p 11 6 = 0 then some (.slice (fld p 5 0)) else none)
  else some (.data (fld p 11 0))

/-- The queue named, checked: outside the table or disabled traps 0x06, another world's traps 0x09. -/
def queueFor (s : State) (p : W64) (pop : Bool) : Res QName :=
  match queueName p with
  | none => .error (.trap 0x06 p)
  | some (.slice q) => do
    need (!pop && qEn (sliceQ s q).qctl) (.trap 0x06 p)
    need (!qSecure (sliceQ s q).qctl || s.job.secure) (.trapOpen 0x09)
    .ok (.slice q)
  | some (.data n) => do
    need (qEn (dataQ s n).ctl) (.trap 0x06 p)
    need (!qSecure (dataQ s n).ctl || s.job.secure) (.trapOpen 0x09)
    .ok (.data n)

/-- A data queue takes no push now. -/
def dqFull (s : State) (n : Nat) : Bool :=
  decide (qCap (dataQ s n).ctl ≤ (dataQ s n).entries.length) || qRefused s (dataQ s n).ctl 8

/-- A data queue gives no entry now. -/
def dqEmpty (s : State) (n : Nat) : Bool := (dataQ s n).entries.isEmpty || qRefused s (dataQ s n).ctl 8

/-- Append an entry. -/
def dqPush (n : Nat) (v : W64) (s : State) : State := modDQ n (fun q => { q with entries := q.entries ++ [v] }) s

/-- Take the oldest entry away. -/
def dqTail (q : DataQueue) : DataQueue :=
  { q with entries := q.entries.drop 1, bad := (q.bad.filter (· != 0)).map (· - 1) }

/-- Write the predicate of a try form. -/
def wrTry (c : Option Nat) (v : Bool) (s : State) : State :=
  match c with
  | some r => wrC r v s
  | none => s

/-- A push, blocking or try (R211, R212): c is the try form's predicate. (DEDUCED, safe: notes/assumptions/11.md) -/
def pushBody (c : Option Nat) (a b : BitVec 6) (scope : Nat) (s : State) : Res State := do
  notInRegion s
  let p := rdS s a.toNat
  let v := rdS s b.toNat
  let q ← queueFor s p false
  if scope != 0 then fenceWait scope true false true s
  let s1 := if scope != 0 then fenceLines scope true false s else s
  let w := Wait.qPush (fld p 15 0)
  let tryOnly := c.isSome && !isDet s
  match q with
  | .data n =>
    if isDet s then
      need (sieveRoom s 1) (.wait (.detSync (intervalOf s)))
      .ok (wrTry c true (addSieve 32 (.push n v) s1))
    else if dqFull s n || !firstOfAll w s then
      if tryOnly then .ok (wrTry c false s) else .error (.wait w)
    else .ok (wrTry c true (dqPush n v s1))
  | .slice k =>
    let (r, t) ← readRec v s1
    need (decide (s.job.rcd.depth + 1 ≤ 10)) (.trap 0x0E 0)
    if qFull t k || !firstOfAll w s then
      if tryOnly then .ok (wrTry c false t) else .error (.wait w)
    else .ok (wrTry c true (pushChild k r t))

/-- A pop, blocking or try; one that meets uncorrectable data has no effect (R166, R363).
(DESIGN CHOICE, unsafe: notes/assumptions/58.md) -/
def popBody (c : Option Nat) (d a : BitVec 6) (scope : Nat) (s : State) : Res State := do
  notInRegion s
  let p := rdS s a.toNat
  let q ← queueFor s p true
  if scope != 0 then fenceWait scope false true true s
  match q with
  | .slice _ => .error (.trap 0x06 p)
  | .data n =>
    if isDet s then
      need (sieveRoom s 1) (.wait (.detSync (intervalOf s)))
      .ok (addSieve 32 (.pop n d.toNat (c.getD 0) scope) s)
    else
      let w := Wait.qPop (fld p 15 0)
      if dqEmpty s n || !firstOfAll w s then
        if c.isSome then .ok (wrTry c false s) else .error (.wait w)
      else
        need (!(dataQ s n).bad.contains 0) (.trapOpen 0x15)
        let v := nth 0 (dataQ s n).entries 0
        let s1 := modDQ n dqTail s
        let s2 ← putS d.toNat v s1
        .ok (wrTry c true (if scope != 0 then fenceLines scope false true s2 else s2))

/-- q.push (R211). -/
def execQPush (a b : BitVec 6) (sc : BitVec 3) (s : State) : Host.Outcome State Fault Refusal :=
  run (pushBody none a b sc.toNat) s
/-- q.push.try (R211). -/
def execQPushTry (c : BitVec 4) (a b : BitVec 6) (sc : BitVec 3) (s : State) : Host.Outcome State Fault Refusal :=
  run (pushBody (some c.toNat) a b sc.toNat) s
/-- q.pop (R211). -/
def execQPop (d a : BitVec 6) (sc : BitVec 3) (s : State) : Host.Outcome State Fault Refusal :=
  run (popBody none d a sc.toNat) s
/-- q.pop.try (R211). -/
def execQPopTry (d a : BitVec 6) (c : BitVec 4) (sc : BitVec 3) (s : State) : Host.Outcome State Fault Refusal :=
  run (popBody (some c.toNat) d a sc.toNat) s

/-! ### spawn.try (R28, R122, R123) -/

/-- The word of spawn.try, for trap.info. -/
def spawnWord (c : BitVec 4) (a b : BitVec 6) : W64 :=
  BitVec.ofNat 64 (0x80000000 + c.toNat * 2 ^ 20 + a.toNat * 2 ^ 14 + b.toNat * 2 ^ 8)

/-- spawn.try: the push is a release at device scope. In deterministic mode it waits for room, in turn with the queue's
other waiters (R40). -/
def spawnBody (c : BitVec 4) (a b : BitVec 6) (s : State) : Res State := do
  need (s.crew.key.crew == 0) (.trap 0x01 (spawnWord c a b))
  notInRegion s
  let (r, u) ← readRec (rdS s a.toNat) s
  let q := fld (rdS s b.toNat) 5 0
  need (!qSecure (sliceQ u q).qctl || u.job.secure) (.trapOpen 0x09)
  let w := Wait.qPush (2 ^ 15 + q)
  if u.job.rcd.depth = 10 ∨ !qEn (sliceQ u q).qctl then .ok (wrC c.toNat false u)
  else if isDet u then do
    need (!qFull u q && firstOfAll w u) (.wait w)
    fenceWait 5 true false true u
    .ok (wrC c.toNat true (pushChild q r (fenceLines 5 true false u)))
  else if qFull u q then .ok (wrC c.toNat false u)
  else do
    fenceWait 5 true false true u
    .ok (wrC c.toNat true (pushChild q r (fenceLines 5 true false u)))

/-- spawn.try (R122). -/
def execSpawnTry (c : BitVec 4) (a b : BitVec 6) (s : State) : Host.Outcome State Fault Refusal := run (spawnBody c a b) s

end Sys2Proof.Machine
end

