-- ==== Sys2Proof/Machine/Matrix.lean ====
section
/-! DEFINITION. The matrix engine: the token, accumulator banks, the weight space, and its operations at issue and in
engine order (R88, R92, R94, R214 to R232). -/

namespace Sys2Proof.Machine

/-! ### Formats and shapes (R214, R215) -/

/-- The number format of a matrix element; none for Q4X. -/
def mFmt (fmt : Nat) : Option Fmt :=
  match fmt with
  | 0 => some fmtF64
  | 1 => some fmtF32
  | 2 => some fmtF16
  | 3 => some fmtBf16
  | 4 => some fmtF8a
  | 5 => some fmtF8b
  | _ => none

/-- Bytes of an element; Q4X has none of its own. -/
def mSize (fmt : Nat) : Nat :=
  match fmt with
  | 0 => 8
  | 1 => 4
  | 2 | 3 => 2
  | _ => 1

/-- Depth k of a step. -/
def mDepth (fmt : Nat) : Nat :=
  match fmt with
  | 0 | 1 => 1
  | 2 | 3 => 8
  | 4 | 5 => 16
  | _ => 32

/-- Bytes of an A chunk of one row. -/
def mChunk (fmt : Nat) : Nat := if fmt = 6 then 20 else mDepth fmt * mSize fmt

/-- Bytes of a B block. -/
def mBlock (fmt : Nat) : Nat := if fmt = 6 then 10 else 16 * mSize fmt

/-- The values of a run of element bytes; the second part says that a Q4X format error was met. -/
def mElems (fmt : Nat) (bytes : List Byte) : List Ex × Bool :=
  match mFmt fmt with
  | some f => ((chunks (mSize fmt) (bytes.length + 1) bytes).map (fun b => exOf f (bytesToNat b)), false)
  | none =>
    let l := (chunks 10 (bytes.length + 1) bytes).map (fun b => q4Decode (bytesToNat b))
    (l.flatMap (·.1), l.any (·.2))

/-- A rows of a shape. -/
def shRows (f : Nat) : Nat :=
  match f with
  | 0 => 16
  | 1 => 32
  | _ => 64

/-- B columns of a shape. -/
def shCols (f : Nat) : Nat :=
  match f with
  | 0 => 64
  | 1 => 32
  | 2 => 16
  | _ => 64

/-- Drain row width W. -/
def shWidth (f : Nat) : Nat :=
  match f with
  | 0 => 64
  | 1 => 32
  | _ => 16

/-- The bank entry of an A row and a B column, where the shape has one. -/
def shEntry (f r c : Nat) : Option Nat :=
  match f with
  | 3 => if r / 16 = c / 16 then some (16 * r + c % 16) else none
  | _ => some (shWidth f * r + c)

/-- The B column of column x of drain row r. -/
def shCol (f r x : Nat) : Nat := if f = 3 then 16 * (r / 16) + x else x

/-! ### The token (R219) -/

/-- Trap 0x12 unless the crew holds the token. -/
def needToken (s : State) : Res Unit := need ((coreAt s (coreOf s)).token == some s.crew.key) (.trap 0x12 0)

/-- mat.token.take. -/
def execMatTokenTake (s : State) : Host.Outcome State Fault Refusal :=
  runSelf (fun t => do
    let core := coreOf t
    let x := coreAt t core
    let ahead := (coreCrews t core).any (fun c => wantsToken c && keyLt c.key t.crew.key)
    if x.token = some t.crew.key then .ok (finish (t.crew.sc.pc + 4) t)
    else if x.token = none ∧ x.passer = none ∧ !ahead ∧ !isDet t then
      .ok (finish (t.crew.sc.pc + 4) (modCore core (fun y => { y with token := some t.crew.key }) t))
    else .error (.wait (.token (intervalOf t)))) s

/-- The first crew of the passer's team that waits for the token, from the passer's index + 1 round (R219). -/
def nextInTeam (passer : CrewKey) (l : List Crew) : Option Crew :=
  let same := l.filter (fun c => c.key.job == passer.job && c.key.team == passer.team)
  match same.find? (fun c => decide (passer.crew < c.key.crew)) with
  | some c => some c
  | none => same.head?

/-- mat.token.pass. Who waits for a deterministic crew's pass is settled at its flush, and nobody takes the token before
(R232, R318). (DEDUCED, unsafe: notes/assumptions/27.md) -/
def execMatTokenPass (s : State) : Host.Outcome State Fault Refusal :=
  run (fun t => do
    needToken t
    let core := coreOf t
    if isDet t then
      .ok (modCore core (fun x => { x with token := none, freedAt := intervalOf t, passer := some t.crew.key }) t)
    else match nextInTeam t.crew.key ((coreCrews t core).filter wantsToken) with
      | some c => .ok (grantToken core none c.key t)
      | none => .ok (freeToken core t)) s

/-- mat.token.query. -/
def execMatTokenQuery (c : BitVec 4) (s : State) : Host.Outcome State Fault Refusal :=
  run (fun t => .ok (wrC c.toNat ((coreAt t (coreOf t)).token == some t.crew.key) t)) s

/-! ### Banks (R216 to R218) -/

/-- The bank of a name of the crew in focus. -/
def bankOf (s : State) (b : Nat) : Option Bank := smGet none s.crew.banks b

/-- Change a bank. -/
def modBank (b : Nat) (f : Bank → Bank) (s : State) : State :=
  onC (fun c => { c with banks := smMod none c.banks b (·.map f) }) s

/-- A bound bank; otherwise trap 0x11 naming it. One that is spilled is refilled first (R218, R300). -/
def needBank (s : State) (b : Nat) : Res Bank :=
  match bankOf s b with
  | some x => if s.crew.spilled.contains b then .error (.wait .other) else .ok x
  | none => .error (.trap 0x11 (BitVec.ofNat 64 b))

/-- The first name of a range whose being bound is as given. -/
def firstBank (s : State) (first n : Nat) (bound : Bool) : Option Nat :=
  ((List.range n).map (· + first)).find? (fun b => (bankOf s b).isSome == bound)

/-- acc.alloc (R217). -/
def execAccAlloc (d : BitVec 4) (n : BitVec 5) (s : State) : Host.Outcome State Fault Refusal :=
  runSelf (fun t => do
    notInRegion t
    match firstBank t d.toNat n.toNat true with
    | some b => .error (.trap 0x11 (BitVec.ofNat 64 b))
    | none => .ok (grantBanks (coreOf t) 16 (onC (fun c => { c with wait := .acc d.toNat n.toNat (intervalOf t) }) t))) s

/-- The bank a matrix operation names. -/
def opBank (o : Op) : Option Nat :=
  match o.kind with
  | .mloop m => some m.bank
  | .mzero b _ => some b
  | .mdrain d => some d.bank
  | .tmul t => some t.bank
  | _ => none

/-- acc.free (R217). -/
def execAccFree (d : BitVec 4) (n : BitVec 5) (s : State) : Host.Outcome State Fault Refusal :=
  run (fun t => do
    notInRegion t
    match firstBank t d.toNat n.toNat false with
    | some b => .error (.trap 0x11 (BitVec.ofNat 64 b))
    | none =>
      let names := (List.range n.toNat).map (· + d.toNat)
      need (!t.crew.ops.any (fun o => (opBank o).any names.contains)) (.wait .other)
      let held := (names.filter (fun b => !t.crew.spilled.contains b)).length
      let t1 := noteFrees (coreOf t) held (onC (fun c => { c with
        banks := names.foldl smDel c.banks, spilled := c.spilled.filter (fun b => !names.contains b)
        carried := c.carried.filter (fun b => !names.contains b) }) t)
      .ok (grantBanks (coreOf t) 16 t1)) s

/-! ### The weight space (R222, R223) -/

/-- Read the team's weight space. -/
def wtRd (s : State) (off n : Nat) : List Byte := smGetMany 0 s.team.weights off n

/-- Write the team's weight space. -/
def wtWr (off : Nat) (bytes : List Byte) (s : State) : State :=
  onT (fun t => { t with
    weights := smSetMany 0 t.weights off bytes
    weightBad := clearBad t.weightBad off bytes.length }) s

/-- An image header (R223). -/
structure Image where
  format : Nat
  efmt : Nat
  kblk : Nat
  ncol : Nat
  resv : Nat
  deriving DecidableEq, Repr

/-- Parse 32 header bytes. -/
def imageOf (b : List Byte) : Image where
  format := fieldAt b 0 2
  efmt := fieldAt b 2 1
  kblk := fieldAt b 4 2
  ncol := fieldAt b 6 2
  resv := fieldAt b 3 1 + fieldAt b 8 24

/-- The header matches R223. -/
def imageOk (h : Image) : Bool :=
  h.format == 1 && decide (h.efmt ≤ 6) && h.resv == 0 && decide (1 ≤ h.kblk) && decide (h.kblk ≤ 4096) &&
  decide (16 ≤ h.ncol) && decide (h.ncol ≤ 4096) && h.ncol % 16 == 0

/-- Round up to a multiple of 16. -/
def up16 (n : Nat) : Nat := (n + 15) / 16 * 16

/-- Bytes of the bitmap with its padding. -/
def bitmapBytes (h : Image) : Nat := up16 (ceilDiv (h.kblk * h.ncol) 8)

/-- Set bits of a byte list. -/
def popBytes (l : List Byte) : Nat := (l.map (fun b => popN 8 b.toNat)).foldl (· + ·) 0

/-- The blocks present before bit i of a bitmap. -/
def rankBits (l : List Byte) (i : Nat) : Nat :=
  popBytes (l.take (i / 8)) + popN 8 ((nth 0 l (i / 8)).toNat % 2 ^ (i % 8))

/-- Length of an image: header, bitmap, padded blocks. -/
def imageLen (h : Image) (bitmap : List Byte) : Nat :=
  let n := h.kblk * h.ncol
  let present := rankBits bitmap n
  32 + bitmapBytes h + up16 (present * mBlock h.efmt)

/-- The range an mloop reads of the weight space: its image. -/
def mloopReads (s : State) (m : MloopOp) : Nat × Nat :=
  let h := imageOf (wtRd s m.woff 32)
  (m.woff, imageLen h (wtRd s (m.woff + 32) (bitmapBytes h)))

/-- Where block b of column c of an image lies in the weight space; none when it is absent. -/
def imageBlock (s : State) (woff : Nat) (h : Image) (c b : Nat) : Option Nat :=
  let i := c * h.kblk + b
  let bitmap := wtRd s (woff + 32) (bitmapBytes h)
  if (nth 0 bitmap (i / 8)).getLsbD (i % 8) then some (woff + 32 + bitmapBytes h + rankBits bitmap i * mBlock h.efmt) else none

/-- The 16 elements of block b of column c of an image in the weight space; none when it is absent. -/
def blockOf (s : State) (woff : Nat) (h : Image) (c b : Nat) : Option (List Ex × Bool) :=
  (imageBlock s woff h c b).map (fun a => mElems h.efmt (wtRd s a (mBlock h.efmt)))

/-- Elements B[row][c] of k rows from a row on. -/
def bColumn (s : State) (woff : Nat) (h : Image) (c row k : Nat) : List Ex × Bool :=
  let bs := (List.range (ceilDiv (row % 16 + k) 16)).map (fun i => (blockOf s woff h c (row / 16 + i)).getD (List.replicate 16 exZero, false))
  (((bs.flatMap (·.1)).drop (row % 16)).take k, bs.any (·.2))

/-- No granule that n bytes of the weight space lie in has a parity error (R362, R363).
(DESIGN CHOICE, unsafe: notes/assumptions/43.md) -/
def weightSound (s : State) (off n : Nat) : Bool :=
  s.team.weightBad.isEmpty || (wtGranules off n).all (fun g => !badAt s.team.weightBad (4096 * g) 4096)

/-! ### Issue (R220, R221, R224 to R230) -/

/-- Hand an operation to the core's engine. -/
def engineIssue (k : OpKind) (s : State) : State :=
  modCore (coreOf s) (fun x => { x with engine := x.engine ++ [s.crew.key] }) (addOp (newOp s .matrix k []) s)

/-- Trap 0x14 with a reason. -/
def fmtErr (reason : Nat) : Stop := .trap 0x14 (BitVec.ofNat 64 reason)

/-- Ranges of the weight space that operations in flight of the team still use. -/
def weightUsers (s : State) : List (Nat × Nat) :=
  (teamCrews s).flatMap (fun c => c.ops.filterMap (fun o => match o.kind with
    | .mloop m => some (mloopReads s m)
    | .wload _ woff _ len => some (woff, len)
    | _ => none))

/-- The granules that a weight load goes to are in the core's buffer, or there is room for those not yet in use (R222,
R301). -/
def granulesReady (s : State) (woff len : Nat) : Bool :=
  let gs := wtGranules woff len
  let used := usedGranules s s.team
  !gs.any s.team.absent.contains && decide (granulesOn s (coreOf s) + (gs.filter (fun g => !used.contains g)).length ≤ 128)

/-- mat.wload (R224). (DEDUCED, safe: notes/assumptions/48.md) -/
def execMatWload (a b : BitVec 6) (s : State) : Host.Outcome State Fault Refusal :=
  run (fun t => do
    needRole t .matrix
    needToken t
    let p := rdS t a.toNat
    let w := rdS t b.toNat
    let woff := w.toNat
    need (isGlobal p || isSpad p) (.trap 0x06 p)
    need (!apBad t 32 p 32) (.trap 0x06 p)
    need (p.toNat % 16 == 0) (.trap 0x07 p)
    let (hb, t1) ← memRead 32 p 32 t
    let h := imageOf hb
    need (imageOk h) (fmtErr 4)
    let (bm, t2) ← memRead 32 (p + 32) (bitmapBytes h) t1
    let len := imageLen h bm
    let (lo, hi) := apRange t p
    need (decide (lo ≤ p.toNat) && decide ((p.toNat : Int) + len ≤ hi)) (.trap 0x06 p)
    need (decide (woff < 2 ^ 19) && woff % 16 == 0) (fmtErr 3)
    need (decide (woff + len ≤ 0x80000)) (fmtErr 6)
    need (!(weightUsers t).any (fun q => overlaps q.1 q.2 woff len)) (.wait .other)
    need (granulesReady t woff len) (.wait .other)
    need (!opFull t .matrix) (.wait .other)
    .ok (engineIssue (.wload p woff (32 + bitmapBytes h) len) (wtWr woff (hb ++ bm) t2))) s

/-- KIND, G and SHAPE of a bank once the operations issued on it so far are done: what a later instruction's checks
see (R220). -/
def bankView (c : Crew) (b : Nat) (x : Bank) : Bank :=
  c.ops.foldl (fun y o => match o.kind with
    | .mzero k g => if k = b then { y with kind := if g.isSome then .fx else .fp, g := g.getD 0, shape := none } else y
    | .mloop m => if m.bank = b ∧ y.shape = none then { y with shape := some m.f } else y
    | .tmul t => if t.bank = b ∧ y.shape = none then { y with shape := some 2 } else y
    | _ => y) x

/-- An RM code that may name the crew default (101). -/
def rmAt (s : State) (code : Nat) : Nat := if code = 5 then s.crew.sc.rmdef else code

/-- The A operand of an mloop: scratchpad offset, and the bytes it must stay in, [lo, hi). -/
structure ASide where
  off : Nat
  lo : Nat
  hi : Nat
  deriving DecidableEq, Repr

/-- Where the A bytes of an mloop may lie; with AH the handle's buffer (R225). -/
def aSide (s : State) (ptr : W64) (ah : Bool) (hnd : Nat) : ASide :=
  if ah then
    match handleOf s hnd with
    | some h => ⟨h.base + fld ptr 19 0, h.base, h.base + h.size⟩
    | none => ⟨fld ptr 19 0, 0, spadBytes s⟩
  else ⟨fld ptr 19 0, 0, spadBytes s⟩

/-- Every A byte of every step lies in the side's bytes. -/
def aInside (x : ASide) (ainc : Int) (astride rows chunk n : Nat) : Bool :=
  let last := ainc * ((n : Int) - 1)
  decide ((x.lo : Int) ≤ x.off + min 0 last) &&
  decide ((x.off : Int) + max 0 last + (rows - 1) * astride + chunk ≤ x.hi)

/-- mloop at issue (R225, R226, R230); actl.FMTE is read here. (DESIGN CHOICE, unsafe: notes/assumptions/10.md) -/
def mloopBody (d : Nat) (a rm fmt f : Nat) (n : Nat) (s : State) : Res State := do
  needRole s .matrix
  notInRegion s
  needToken s
  let x ← needBank s d
  let ptr := rdS s a
  let c1 := rdS s (a + 1)
  let c2 := rdS s (a + 2)
  let ah := c1.getLsbD 25
  let hnd := fld c1 31 26
  let ainc := sVal 32 (fld c2 63 32)
  let astride := fld c2 31 0
  let unit := if fmt = 6 then 2 else mChunk fmt
  let woff := fld c1 18 0
  let jb := fld c1 63 48
  let kb := fld c1 47 32
  let side := aSide s ptr ah hnd
  let inside := aInside side ainc astride (shRows f) (mChunk fmt) n
  need (ah || (isSpad ptr && !mbzBad ptr && inside)) (.trap 0x06 ptr)
  need (ptr.toNat % unit == 0 && ainc % unit == 0 && astride % unit == 0) (.trap 0x07 ptr)
  need (!ah || (match handleOf s hnd with
    | some h => (h.st == .full || h.st == .draining) && inside
    | none => false)) (badHandle hnd)
  let h := imageOf (wtRd s woff 32)
  need (weightSound s woff 32) (.trap 0x15 (BitVec.allOnes 64))
  need (imageOk h && woff % 16 == 0) (fmtErr 4)
  need (weightSound s (woff + 32) (bitmapBytes h)) (.trap 0x15 (BitVec.allOnes 64))
  need (decide (woff + imageLen h (wtRd s (woff + 32) (bitmapBytes h)) ≤ 0x80000)) (fmtErr 6)
  need (h.efmt == fmt) (fmtErr 8)
  need (decide (kb + n * mDepth fmt ≤ 16 * h.kblk) && decide (jb + shCols f ≤ h.ncol)) (fmtErr 5)
  let v := bankView s.crew d x
  need (decide (v.kind = if fmt ≤ 1 then .fp else .fx)) (fmtErr 1)
  need (v.shape == none || v.shape == some f) (fmtErr 2)
  need (fld c1 24 19 == 0 && (ah || hnd == 0) && (!ah || fld ptr 63 20 == 0) && jb % 16 == 0 &&
    kb % mDepth fmt == 0) (fmtErr 3)
  need (!opFull s .matrix) (.wait .other)
  .ok (engineIssue (.mloop ⟨d, fmt, f, rmAt s rm, side.off, ainc, astride, jb, kb, woff, if ah then some hnd else none, n, 0,
    fNone, s.crew.sc.fmte⟩) s)

/-- mloop (R226). -/
def execMloop (d : BitVec 4) (a : BitVec 6) (rm fmt : BitVec 3) (f : BitVec 2) (i : BitVec 32) (s : State) :
    Host.Outcome State Fault Refusal :=
  runLong (mloopBody d.toNat a.toNat rm.toNat fmt.toNat f.toNat i.toNat) s

/-- mat.zero at issue: none for FP, the exponent for FX (R228). -/
def zeroBody (d : Nat) (g : Option Int) (s : State) : Res State := do
  needRole s .matrix
  notInRegion s
  needToken s
  let _ ← needBank s d
  match g with
  | some e => need (decide (-512 ≤ e) && decide (e ≤ 511)) (fmtErr 3)
  | none => .ok ()
  need (!opFull s .matrix) (.wait .other)
  .ok (engineIssue (.mzero d g) s)

/-- mat.zero.fx (R228). -/
def execMatZeroFx (d : BitVec 4) (a : BitVec 6) (s : State) : Host.Outcome State Fault Refusal :=
  run (fun t => zeroBody d.toNat (some (rdS t a.toNat).toInt) t) s
/-- mat.zero.fp (R228). -/
def execMatZeroFp (d : BitVec 4) (s : State) : Host.Outcome State Fault Refusal := run (zeroBody d.toNat none) s

/-- mat.drain (R229, R230). -/
def execMatDrain (d : BitVec 4) (a b : BitVec 6) (s : State) : Host.Outcome State Fault Refusal :=
  run (fun t => do
    needRole t .matrix
    notInRegion t
    needToken t
    let x ← needBank t d.toNat
    let p := rdS t a.toNat
    let w := rdS t b.toNat
    let ofmt := fld w 47 45
    let rm := fld w 44 42
    let stride := fld w 31 0
    let shape := (bankView t.crew d.toNat x).shape
    let width := shWidth (shape.getD 0) * mSize ofmt
    let ok := fld w 63 48 == 0 && fld w 40 32 == 0 && decide (ofmt ≤ 5) && decide (rm ≤ 5)
    let wide := shape.isNone || decide (width ≤ stride)
    let rows := 1024 / shWidth (shape.getD 0)
    let range := !(ok && wide && shape.isSome) || decide (fld p 19 0 + (rows - 1) * stride + width ≤ spadBytes t)
    need (isSpad p && !mbzBad p && range) (.trap 0x06 p)
    need (p.toNat % 16 == 0 && stride % 16 == 0) (.trap 0x07 p)
    need (ok && wide) (fmtErr 7)
    need shape.isSome (fmtErr 2)
    need (!opFull t .matrix) (.wait .other)
    .ok (engineIssue (.mdrain ⟨d.toNat, fld p 19 0, stride, ofmt, rmAt t rm, w.getLsbD 41⟩) t)) s

/-! ### Arithmetic of a step (R92, R94, R227) -/

/-- A NaN or infinite factor. -/
def exSpecial : Ex → Bool
  | .fin _ _ _ => false
  | _ => true

/-- A factor as the array uses it. -/
def exPlain (x : Ex) : Ex := if exSpecial x then exZero else x

/-- The product of two finite factors on the accumulator grid of weight 2^(g - 96), and whether it was rounded. -/
def onGrid (g : Int) (x : Ex) : Int × Bool :=
  match x with
  | .fin neg m e =>
    let (n, nx) := roundAt .rne neg m e (g - 96)
    (if neg then -(n : Int) else n, nx)
  | _ => (0, false)

/-- The signed value of a 128-bit entry. -/
def entryInt (v : W128) : Int := v.toInt

/-- Accumulate of R92, steps 3 to 5. -/
def accumulate (n sum : Int) : Int × Flags :=
  if n = sMin 128 ∨ n = sMax 128 then (n, fNone)
  else
    let (r, f) := clampI (sMin 128) (sMax 128) (n + sum)
    (r, if f = fNone then fNone else fASAT)

/-- The exact sum of finite products; an exact zero is +0. -/
def exSum (l : List Ex) : Ex :=
  match l.foldl (fun acc x => (exAdd .rne acc x).1) exZero with
  | .fin _ 0 _ => exZero
  | x => x

/-- Add a step's products to entry e of a bank (R227). -/
def addProducts (rm : Rm) (b : Bank) (e : Nat) (ps : List Ex) : Bank × Flags :=
  match b.kind with
  | .fx =>
    let gs := ps.map (onGrid b.g)
    let (n, f) := accumulate (entryInt (smGet 0 b.entries e)) ((gs.map (·.1)).foldl (· + ·) 0)
    ({ b with entries := smSet 0 b.entries e (BitVec.ofInt 128 n) }, f ||| flagIf (gs.any (·.2)) fNX)
  | .fp =>
    let acc := exOf fmtF64 (smGet 0 b.entries e).toNat
    let (r, f) := roundTo fmtF64 rm (exAdd rm acc (exSum ps)).1
    ({ b with entries := smSet 0 b.entries e (BitVec.ofNat 128 r) }, f)

/-- Set bits of a flag mask. -/
def setBits (m : Nat) (l : List Nat) : Nat := l.foldl (fun a i => setBitN a i true) m

/-- One step on a bank: A rows and B columns as element lists (R227). -/
def stepBank (f : Nat) (rm : Rm) (rows cols : List (List Ex)) (b : Bank) : Bank × Flags :=
  let special := fun (l : List (List Ex)) => (List.range l.length).filter (fun i => (nth [] l i).any exSpecial)
  let b1 := { b with rflag := setBits b.rflag (special rows), cflag := setBits b.cflag (special cols), shape := some (b.shape.getD f) }
  (List.range rows.length).foldl (fun (acc : Bank × Flags) (r : Nat) =>
    (List.range cols.length).foldl (fun (acc : Bank × Flags) (c : Nat) => match shEntry f r c with
      | none => acc
      | some e =>
        let ps := ((nth [] rows r).zip (nth [] cols c)).map (fun (p : Ex × Ex) => (exMul (exPlain p.1) (exPlain p.2)).1)
        let (b2, fl) := addProducts rm acc.1 e ps
        (b2, acc.2 ||| fl)) acc) (b1, fNone)

/-! ### Engine order (R220) -/

/-- A mat.wload. -/
def isWload (o : Op) : Bool := match o.kind with
  | .wload _ _ _ _ => true
  | _ => false

/-- The engine's operations, oldest first: issuer, its place among the issuer's operations, the operation. -/
def engineOps (s : State) (core : Nat) : List (CrewKey × Nat × Op) :=
  let step := fun (acc : List (CrewKey × Nat × Op) × List CrewKey) (k : CrewKey) =>
    let n := (acc.2.filter (· == k)).length
    let mine := match findCrew s k with
      | some c => (c.ops.zipIdx.filter (fun (p : Op × Nat) => isEngine p.1)).map (fun (p : Op × Nat) => (k, p.2, p.1))
      | none => []
    (acc.1 ++ (mine.drop n).take 1, k :: acc.2)
  ((coreAt s core).engine.foldl step ([], [])).1

/-- A tload of a crew is pending before place i of its operations (R220, R268). -/
def tloadBefore (s : State) (k : CrewKey) (i : Nat) : Bool :=
  match findCrew s k with
  | some c => (c.ops.take i).any (fun o => match o.kind with
    | .tload _ _ => true
    | _ => false)
  | none => false

/-- Bytes of the scratchpad that a drain writes lie in this range: offset and length. -/
def drainRange (c : Crew) (d : DrainOp) : Nat × Nat :=
  let w := shWidth (((smGet none c.banks d.bank).bind (fun b => (bankView c d.bank b).shape)).getD 0)
  (d.dst, (1024 / w - 1) * d.dstride + w * mSize d.ofmt)

/-- The scratchpad bytes that a weight load reads; none for an image in memory. -/
def loadSource (src : W64) (hdr len : Nat) : Option (Nat × Nat) :=
  if isSpad src then some (fld src 19 0 + hdr, len - hdr) else none

/-- What an operation of a crew needs is not on the core: its bank is spilled, or a granule that it reads is absent (R218,
R222, R300). -/
def needsRefill (s : State) (k : CrewKey) (o : Op) : Bool :=
  match focus k s with
  | none => false
  | some t => (opBank o).any t.crew.spilled.contains || (!t.team.absent.isEmpty && match o.kind with
      | .mloop m => (wtGranules (mloopReads t m).1 (mloopReads t m).2).any t.team.absent.contains
      | _ => false)

/-- Finish the first engine operation of the crew in focus that is not a weight load: flags go to astat (R221). -/
def engineFinish (p : Op → Bool) (f : Flags) (s : State) : State := opEnd p (engineDone p (addFlags f s))

/-- An mloop. -/
def isMloop (o : Op) : Bool := match o.kind with
  | .mloop _ => true
  | _ => false
/-- A mat.zero. -/
def isMzero (o : Op) : Bool := match o.kind with
  | .mzero _ _ => true
  | _ => false
/-- A mat.drain. -/
def isMdrain (o : Op) : Bool := match o.kind with
  | .mdrain _ => true
  | _ => false
/-- The granules of the weight space that a step reads: those of the header, the bitmap and its blocks. -/
def stepGranules (m : MloopOp) (h : Image) (s : State) : List Nat :=
  let row := m.kb + m.done * mDepth m.fmt
  let blocks := List.range (ceilDiv (row % 16 + mDepth m.fmt) 16)
  (wtGranules m.woff (32 + bitmapBytes h) ++
    (List.range (shCols m.f)).flatMap (fun c => blocks.flatMap (fun i =>
      match imageBlock s m.woff h (m.jb + c) (row / 16 + i) with
      | some a => wtGranules a (mBlock h.efmt)
      | none => []))).eraseDups

/-- The first scratchpad word or weight granule that a step reads and that is uncorrectable, as trap.info (R363). -/
def stepBad (m : MloopOp) (h : Image) (s : State) : Option W64 :=
  let row := fun (r : Nat) => ((m.aptr : Int) + m.done * m.ainc + r * m.astride).toNat
  match (List.range (shRows m.f)).find? (fun r => badAt s.team.spadBad (row r) (mChunk m.fmt)) with
  | some r => some (BitVec.ofNat 64 (row r))
  | none =>
    if !s.team.weightBad.isEmpty && (stepGranules m h s).any (fun g => badAt s.team.weightBad (4096 * g) 4096) then
      some (BitVec.allOnes 64)
    else none

/-- One step of an mloop of the crew in focus (R227). -/
def mloopStep (m : MloopOp) (s : State) : State :=
  let h := imageOf (wtRd s m.woff 32)
  match stepBad m h s with
  | some info => abandonOp isMloop 0x15 info .matrix (shapeBank m.bank m.f (engineDone isMloop s))
  | none =>
    let k := mDepth m.fmt
    let rows := (List.range (shRows m.f)).map (fun (r : Nat) =>
      mElems m.fmt (spadRd s ((m.aptr : Int) + m.done * m.ainc + r * m.astride).toNat (mChunk m.fmt)))
    let cols := (List.range (shCols m.f)).map (fun c => bColumn s m.woff h (m.jb + c) (m.kb + m.done * k) k)
    let rm := (rmOf m.rm).getD .rne
    let (b, fl) := match bankOf s m.bank with
      | some x => stepBank m.f rm (rows.map (·.1)) (cols.map (·.1)) x
      | none => (freshBank, fNone)
    let q := flagIf (rows.any (·.2) || cols.any (·.2)) fFMT
    let flags := m.flags ||| fl ||| q
    let s1 := modBank m.bank (fun _ => b) s
    if m.done + 1 < m.count then
      modOp isMloop (fun o => { o with kind := .mloop { m with done := m.done + 1, flags := flags } }) s1
    else
      let s2 := engineFinish isMloop flags s1
      if m.fmte && flags &&& fFMT != 0 then pendTrap 0x14 9 .matrix s2 else s2

/-- Zero a bank (R228). -/
def zeroBank (g : Option Int) : Bank :=
  { freshBank with kind := if g.isSome then .fx else .fp, g := g.getD 0 }

/-- The value a drain writes for an entry (R229). -/
def drainValue (b : Bank) (e : Nat) : Ex :=
  let v := smGet 0 b.entries e
  match b.kind with
  | .fp => exOf fmtF64 v.toNat
  | .fx =>
    let n := entryInt v
    if n = sMin 128 then .inf true else if n = sMax 128 then .inf false
    else .fin (decide (n < 0)) n.natAbs (b.g - 96)

/-- The bytes of a drained element and its flags. -/
def drainElem (b : Bank) (f ofmt : Nat) (rm : Rm) (r x : Nat) : List Byte × Flags :=
  let fmt := (mFmt ofmt).getD fmtF64
  let n := mSize ofmt
  let flagged := b.rflag.testBit r || b.cflag.testBit (shCol f r x)
  let v := drainValue b (shWidth f * r + x)
  let (c, fl) := if flagged then
      let (c, fl) := roundTo fmt rm .nan
      (c, fl ||| fMSV)
    else match v with
      | .fin _ 0 _ => (0, fNone)
      | y => roundTo fmt rm y
  (natToBytes n c, fl)

/-- A drain of the crew in focus (R229). -/
def drainDo (d : DrainOp) (s : State) : State :=
  match bankOf s d.bank with
  | none => engineFinish isMdrain fNone s
  | some b =>
    let f := b.shape.getD 0
    let rm := (rmOf d.rm).getD .rne
    let w := shWidth f
    let out := (List.range (1024 / w)).map (fun r => (List.range w).map (fun x => drainElem b f d.ofmt rm r x))
    let fl := (out.flatMap id).foldl (fun (a : Flags) (p : List Byte × Flags) => a ||| p.2) fNone
    let s1 := (out.zipIdx).foldl (fun t p => spadWr (d.dst + p.2 * d.dstride) (p.1.flatMap (·.1)) t) s
    let s2 := if d.rezero then modBank d.bank (fun x => { x with entries := [], rflag := 0, cflag := 0 }) s1 else s1
    engineFinish isMdrain fl s2

/-- The blocks of a weight load of the crew in focus arrive, or the load is held or abandoned (R224). -/
def wloadDo (src : W64) (woff hdr len : Nat) (s : State) : State :=
  let off := woff + hdr
  let n := len - hdr
  let giveUp := fun (cause : Nat) (t : State) =>
    abandonOp isWload cause (BitVec.ofNat 64 woff) .matrix (zeroWeights off n (engineDone isWload t))
  if isSpad src then
    let o := fld src 19 0 + hdr
    if badAt s.team.spadBad o n then giveUp 0x15 s else endOp isWload (engineDone isWload (wtWr off (spadRd s o n) s))
  else
    let va := fld src 55 0 + hdr
    match readVa (engineAsker .matrix s) va n s with
    | .ok (b, bad, t) => if bad then giveUp 0x15 s else endOp isWload (engineDone isWload (wtWr off b t))
    | .error (x, .fault k lv pa) => engineFault isWload 3 (ptrAt src x) k lv pa 0 s
    | .error (_, .world) => giveUp 0x09 s
    | .error _ => giveUp 0x15 s

end Sys2Proof.Machine
end

