-- ==== Sys2Proof/Machine/Sparse.lean ====
section
/-! DEFINITION. Sparse tiles and Espalier, the partition unit, idempotent regions, and tab.load (R139, R140, R262 to
R273). -/

namespace Sys2Proof.Machine

/-! ### Tile records (R263, R264) -/

/-- A tile header. -/
structure TileHdr where
  format : Nat
  kind : Nat
  efmt : Nat
  gen : Nat
  nnz : Nat
  resv : Nat
  sptr : W64
  vptr : W64
  deriving DecidableEq, Repr

/-- Parse 64 header bytes. -/
def tileHdr (b : List Byte) : TileHdr where
  format := fieldAt b 0 2
  kind := fieldAt b 2 1
  efmt := fieldAt b 3 1
  gen := fieldAt b 4 4
  nnz := fieldAt b 8 4
  resv := fieldAt b 12 4 + fieldAt b 32 32
  sptr := BitVec.ofNat 64 (fieldAt b 16 8)
  vptr := BitVec.ofNat 64 (fieldAt b 24 8)

/-- Alignment of a tile's values. -/
def tileAlign (efmt : Nat) : Nat := if efmt = 6 then 2 else mSize efmt

/-- The header meets R263. -/
def tileHdrOk (h : TileHdr) : Bool :=
  h.format == 1 && decide (h.kind ≤ 1) && decide (h.efmt ≤ 6) && decide (h.nnz ≤ 4096) && h.resv == 0 &&
  isGlobal h.sptr && h.sptr.toNat % 16 == 0 && (isGlobal h.vptr || isSpad h.vptr) &&
  h.vptr.toNat % tileAlign h.efmt == 0

/-- Bytes of the structure. -/
def structBytes (h : TileHdr) : Nat := if h.kind = 0 then 512 else 130 + h.nnz

/-- Strictly increasing. -/
def increasing : List Nat → Bool
  | a :: b :: r => decide (a < b) && increasing (b :: r)
  | _ => true

/-- The columns present in each row, when the structure is valid (R264). -/
def tileRows (h : TileHdr) (b : List Byte) : Option (List (List Nat)) :=
  if h.kind = 0 then
    if popBytes b = h.nnz then
      some ((List.range 64).map (fun r => (List.range 64).filter (fun t => (nth 0 b ((64 * r + t) / 8)).getLsbD ((64 * r + t) % 8))))
    else none
  else
    let off := (List.range 65).map (fun i => fieldAt b (2 * i) 2)
    let rows := (List.range 64).map (fun r =>
      let lo := nth 0 off r
      ((b.drop (130 + lo)).take (nth 0 off (r + 1) - lo)).map (·.toNat))
    let ok := nth 1 off 0 == 0 && nth 0 off 64 == h.nnz &&
      (List.range 64).all (fun r => decide (nth 0 off r ≤ nth 0 off (r + 1))) &&
      rows.all (fun l => increasing l && l.all (fun t => decide (t < 64)))
    if ok then some rows else none

/-- G of R266: the groups of a structure. -/
def tileGroups (efmt : Nat) (rows : List (List Nat)) : Nat :=
  (rows.map (fun l => ((l.map (· / mDepth efmt)).eraseDups).length)).foldl (· + ·) 0

/-- U and PATH of R266. -/
def tilePath (nnz : Nat) (efmt : Nat) (rows : List (List Nat)) : Nat × Nat :=
  let u := nnz + 2 * tileGroups efmt rows
  (u, if 2048 < nnz ∨ 4096 < u then 1 else if nnz ≤ 16 then 2 else 0)

/-- Physical lines of a range, in the frames that stores to it reach. -/
def physLines (s : State) (a : Asker) (va n : Nat) : List Nat :=
  (pageCuts (n / 4096 + 2) va n).flatMap (fun q => match walk s a.root q.1 with
    | .ok l => linesOf (entryPA l.e + q.1 % 2 ^ l.bits) q.2
    | .error _ => [])

/-- The lines of a range's page-table entries. -/
def tableLines (s : State) (a : Asker) (va n : Nat) : List Nat :=
  (pageCuts (n / 4096 + 2) va n).flatMap (fun q => match walk s a.root q.1 with
    | .ok l => l.lines
    | .error _ => [])

/-- The lines that a micro-program built from a range is a holder of (R270, R280). -/
def heldLines (s : State) (va n : Nat) : List Nat := physLines s (crewAsker s) va n ++ tableLines s (crewAsker s) va n

/-- The bytes of a range as they stand at home. -/
def homeBytes (s : State) (va n : Nat) : List Byte :=
  (pageCuts (n / 4096 + 2) va n).flatMap (fun q => match walk s s.job.root q.1 with
    | .ok l => memRd s (entryPA l.e + q.1 % 2 ^ l.bits) q.2
    | .error _ => [])

/-- The crew's core holds stores to some of the lines that are not yet at home (R172). -/
def storedAhead (s : State) (lines : List Nat) : Bool :=
  s.l1.any (fun l => l.core == coreOf s && l.dirty != 0 && lines.contains l.line)

/-- The entry of an identity in the crew's cluster that is valid and current for the crew: its core has stored nothing to
the entry's lines that it still holds (R265, R268, R270). -/
def espFind (s : State) (addr : W64) (gen : W32) : Option EspEntry :=
  s.espalier.find? (fun e => e.cluster == clusterOf (coreOf s) && e.secure == s.job.secure &&
    e.asid == asidOf s.job.root && e.addr == addr && e.gen == gen && e.valid && !storedAhead s e.lines)

/-- A tload of the crew in focus waits for a compile of its identity, valid or not. -/
def espPending (s : State) (addr : W64) (gen : W32) : Bool :=
  s.espalier.any (fun e => e.cluster == clusterOf (coreOf s) && e.secure == s.job.secure &&
    e.asid == asidOf s.job.root && e.addr == addr && e.gen == gen && !e.compiled)

/-- A tload in flight. -/
def isTload (o : Op) : Bool :=
  match o.kind with
  | .tload _ _ => true
  | _ => false

/-- Bind a tile register and count the load until its lookup or compile is done, in issue order (R182, R268): one that finds
its program at once has only to wait for its turn. -/
def bindTile (n : Nat) (t : Tile) (pending : Bool) (s : State) : State :=
  let s1 := onC (fun c => { c with tiles := smSet none c.tiles n (some t) }) s
  if pending || s.crew.ops.any isTload then addOp (newOp s .matrix (.tload t.addr t.gen) []) s1
  else if s.crew.ops.any (fun o => o.cls == .matrix && opLive o) then addOp (newOp s .matrix .ended []) s1
  else s1

/-- A header and a structure that a crew loaded are those at home; an entry built from others serves no later lookup, since
they are the core's own stores or what its L1 kept of an earlier time (R172, R270). -/
def builtAtHome (s : State) (p : W64) (hb : List Byte) (sptr : W64) (sb : List Byte) : Bool :=
  homeBytes s (fld p 55 0) hb.length == hb && homeBytes s (fld sptr 55 0) sb.length == sb

/-- sp.tload (R268). -/
def execSpTload (t : BitVec 3) (a : BitVec 6) (s : State) : Host.Outcome State Fault Refusal :=
  run (fun s0 => do
    needRole s0 .spt
    let p := rdS s0 a.toNat
    need (isGlobal p && !mbzBad p) (.trap 0x06 p)
    need (p.toNat % 64 == 0) (.trap 0x07 p)
    let (hb, s1) ← memRead 32 p 64 s0
    let h := tileHdr hb
    need (tileHdrOk h) (fmtErr 10)
    need (!opFull s0 .matrix) (.wait .other)
    let gen := BitVec.ofNat 32 h.gen
    match espFind s1 p gen with
    | some e => .ok (bindTile t.toNat ⟨p, gen, e.efmt, e.path, e.nnz, e.u, e.compiled⟩ (!e.compiled) s1)
    | none =>
      let (sb, s2) ← memRead 32 h.sptr (structBytes h) s1
      match tileRows h sb with
      | none => .error (fmtErr 11)
      | some rows =>
        let (u, path) := tilePath h.nnz h.efmt rows
        let lines := heldLines s2 (fld p 55 0) 64 ++ heldLines s2 (fld h.sptr 55 0) (structBytes h)
        let e : EspEntry := ⟨clusterOf (coreOf s2), s2.job.secure, asidOf s2.job.root, p, gen, h.efmt, path, h.nnz, u, rows,
          h.vptr, lines, builtAtHome s2 p hb h.sptr sb, false, false⟩
        .ok (bindTile t.toNat ⟨p, gen, h.efmt, path, h.nnz, u, false⟩ true { s2 with espalier := s2.espalier ++ [e] })) s

/-- sp.tstat (R271). -/
def execSpTstat (d : BitVec 6) (t : BitVec 3) (s : State) : Host.Outcome State Fault Refusal :=
  run (fun u => do
    needRole u .spt
    match smGet none u.crew.tiles t.toNat with
    | none => putS d.toNat 3 u
    | some x =>
      let pend := espPending u x.addr x.gen
      need (!(isDet u && pend)) (.wait .other)
      let hit := x.hit && !isDet u
      putS d.toNat (BitVec.ofNat 64 (x.u * 2 ^ 24 + x.nnz * 2 ^ 8 + x.efmt * 16 + (if hit then 8 else 0) +
        (if pend then 4 else 0) + x.path)) u) s

/-! ### sp.tmul (R267, R269, R270) -/

/-- Bytes of a row of the dense operand. -/
def denseRow (efmt : Nat) : Nat := if efmt = 6 then 10 else 16 * mSize efmt

/-- sp.tmul at issue; actl.FMTE is read here. (DESIGN CHOICE, unsafe: notes/assumptions/10.md) With an unbound tile register
the pointer and stride are to be multiples of 2 (R230). (DESIGN CHOICE, unsafe: notes/assumptions/60.md) -/
def tmulBody (d a t rm : Nat) (s : State) : Res State := do
  needRole s .spt
  notInRegion s
  needToken s
  let x ← needBank s d
  let p := rdS s a
  let w := rdS s (a + 1)
  let stride := fld w 31 0
  let tile := smGet none s.crew.tiles t
  let unit := match tile with
    | some y => if y.efmt = 6 then 2 else 16
    | none => 2
  let inside := match tile with
    | some y => decide (fld p 19 0 + 63 * stride + denseRow y.efmt ≤ spadBytes s)
    | none => true
  need (isSpad p && !mbzBad p && inside) (.trap 0x06 p)
  need (p.toNat % unit == 0 && stride % unit == 0) (.trap 0x07 p)
  match tile with
  | none => .error (fmtErr 12)
  | some y =>
    let v := bankView s.crew d x
    need (decide (v.kind = if y.efmt ≤ 1 then .fp else .fx)) (fmtErr 1)
    need (v.shape == none || v.shape == some 2) (fmtErr 2)
    need ((decide (y.efmt ≤ 1) || rm == 0) && fld w 63 32 == 0) (fmtErr 3)
    need (!opFull s .matrix) (.wait .other)
    .ok (engineIssue (.tmul ⟨d, t, y, fld p 19 0, stride, rmAt s rm, s.crew.sc.fmte⟩) s)

/-- sp.tmul (R269). -/
def execSpTmul (d : BitVec 4) (a : BitVec 6) (t r : BitVec 3) (s : State) : Host.Outcome State Fault Refusal :=
  run (tmulBody d.toNat a.toNat t.toNat r.toNat) s

/-- Why a tile product cannot go on: a translation fault of a source of R285, or an error with its cause and
reason. -/
inductive TmulStop where
  | fault (source va kind level entryPa : Nat)
  | err (cause reason : Nat)
  deriving DecidableEq, Repr

/-- Read bytes at home for a tile product, if there are any. -/
def tmulRead (source : Nat) (p : W64) (n : Nat) (s : State) : Except TmulStop (List Byte × State) :=
  if n = 0 then .ok ([], s)
  else if isSpad p then
    if spadBytes s < fld p 19 0 + n then .error (.err 0x09 0)
    else if badAt s.team.spadBad (fld p 19 0) n then .error (.err 0x15 0)
    else .ok (spadRd s (fld p 19 0) n, s)
  else
    match readVa (if source = 4 then spillAsker s else engineAsker .matrix s) (fld p 55 0) n s with
    | .ok (b, bad, t) => if bad then .error (.err 0x15 0) else .ok (b, t)
    | .error (va, .fault k lv pa) => .error (.fault source (ptrAt p va).toNat k lv pa)
    | .error (_, .world) => .error (.err 0x09 0)
    | .error _ => .error (.err 0x15 0)

/-- Rows, values pointer and element count a tile product uses: its entry's, or read afresh (R270); the element format is
compared first. (DESIGN CHOICE, unsafe: notes/assumptions/60.md) -/
def tmulTile (b : Tile) (s : State) : Except TmulStop (List (List Nat) × W64 × Nat × State) :=
  match espFind s b.addr b.gen with
  | some e => if e.efmt ≠ b.efmt then .error (.err 0x14 13) else .ok (e.rows, e.vptr, e.nnz, s)
  | none => do
    let (hb, s1) ← tmulRead 4 b.addr 64 s
    let h := tileHdr hb
    if h.efmt ≠ b.efmt then .error (.err 0x14 13)
    else if !tileHdrOk h then .error (.err 0x14 11)
    else do
      let (sb, s2) ← tmulRead 4 h.sptr (structBytes h) s1
      match tileRows h sb with
      | some rows => .ok (rows, h.vptr, h.nnz, s2)
      | none => .error (.err 0x14 11)

/-- The bytes of n elements of values. -/
def valueBytes (efmt n : Nat) : Nat := if efmt = 6 then 10 * ceilDiv n 16 else n * mSize efmt

/-- The product of R267 on a bank: rows of the tile with their values, rows of D. -/
def tmulBank (efmt : Nat) (rm : Rm) (rows : List (List (Nat × Ex))) (dense : List (List Ex)) (b : Bank) : Bank × Flags :=
  let k := mDepth efmt
  let special := fun (l : List (List Ex)) => (List.range l.length).filter (fun i => (nth [] l i).any exSpecial)
  let cols := (List.range 16).map (fun c => dense.map (fun r => nth exZero r c))
  let b1 := { b with
    rflag := setBits b.rflag (special (rows.map (·.map (·.2))))
    cflag := setBits b.cflag (special cols)
    shape := some (b.shape.getD 2) }
  (List.range (64 / k)).foldl (fun (acc : Bank × Flags) (st : Nat) =>
    (List.range 64).foldl (fun (acc : Bank × Flags) (r : Nat) =>
      let ts := (nth [] rows r).filter (fun (p : Nat × Ex) => decide (p.1 / k = st))
      if ts.isEmpty then acc
      else (List.range 16).foldl (fun (acc : Bank × Flags) (c : Nat) =>
        let ps := ts.map (fun (p : Nat × Ex) => (exMul (exPlain p.2) (exPlain (nth exZero (nth [] cols c) p.1))).1)
        let (b2, fl) := addProducts rm acc.1 (16 * r + c) ps
        (b2, acc.2 ||| fl)) acc) acc) (b1, fNone)

/-- Pair the columns of each row with the values in row-major order. -/
def pairRows : List (List Nat) → List Ex → List (List (Nat × Ex))
  | [], _ => []
  | r :: rest, vs => r.zip vs :: pairRows rest (vs.drop r.length)

/-- A sp.tmul in the engine. -/
def isTmul (o : Op) : Bool := match o.kind with
  | .tmul _ => true
  | _ => false

/-- Execute a tile product of the crew in focus (R267, R269). -/
def tmulDo (t : TmulOp) (s : State) : State :=
  let e := t.bind.efmt
  let fail := fun (cause reason : Nat) =>
    let info := if cause = 0x14 then reason + 256 * t.tile else t.tile
    abandonOp isTmul cause (BitVec.ofNat 64 info) .matrix (shapeBank t.bank 2 (engineDone isTmul s))
  let go : Except TmulStop State := do
    let (rows, vptr, nnz, s1) ← tmulTile t.bind s
    let (vb, s2) ← tmulRead 3 vptr (valueBytes e nnz) s1
    let vals := mElems e vb
    let at' := fun (r : Nat) => t.dptr + r * t.dstride
    if (List.range 64).any (fun r => badAt s2.team.spadBad (at' r) (denseRow e)) then .error (.err 0x15 0)
    else
      let dense := (List.range 64).map (fun r => mElems e (spadRd s2 (at' r) (denseRow e)))
      let (b, fl) := match bankOf s2 t.bank with
        | some x => tmulBank e ((rmOf t.rm).getD .rne) (pairRows rows (vals.1.take nnz)) (dense.map (·.1)) x
        | none => (freshBank, fNone)
      let bad := vals.2 || dense.any (·.2)
      let s3 := engineFinish isTmul (fl ||| flagIf bad fFMT) (modBank t.bank (fun _ => b) s2)
      .ok (if t.fmte && bad then pendTrap 0x14 (BitVec.ofNat 64 (9 + 256 * t.tile)) .matrix s3 else s3)
  match go with
  | .ok u => u
  | .error (.fault src va k lv pa) => engineFault isTmul src (BitVec.ofNat 64 va) k lv pa 0 s
  | .error (.err c r) => fail c r

/-! ### Espalier (R268) -/

/-- Take up the first queued compile of a cluster, if none is under way. -/
def espTake (cluster : Nat) (s : State) : State :=
  if s.espalier.any (fun e => e.cluster == cluster && e.started && !e.compiled) then s
  else
    let next := fun (e : EspEntry) => e.cluster == cluster && !e.started && !e.compiled
    { s with espalier := updFirst next (fun e => { e with started := true }) s.espalier }

/-- Drop the loads at the front of a crew's loads whose compile is done. -/
def settleTloads (s : State) : State :=
  s.crew.ops.foldl (fun (acc : State × Bool) o => match o.kind with
    | .tload a g => if acc.2 || espPending acc.1 a g then (acc.1, true) else (opEnd isTload acc.1, false)
    | _ => acc) (s, false) |>.1

/-- The compile under way in a cluster finishes, and the loads that waited for it complete. -/
def espDone (cluster : Nat) (s : State) : State :=
  let busy := fun (e : EspEntry) => e.cluster == cluster && e.started && !e.compiled
  if s.espalier.any busy then
    let s1 := { s with espalier := updFirst busy (fun e => { e with compiled := true }) s.espalier }
    ((allCrews s1).filter (fun c => c.ops.any isTload)).foldl (fun t c => onCrew c.key settleTloads t) s1
  else s

/-! ### The partition unit (R262) -/

/-- The address of rp[i]. -/
def rpAt (ptr : W64) (i : Nat) : W64 := ptr + BitVec.ofNat 64 (4 * i)

/-- Read rp[i] as a load of the crew: its value and whether it is uncorrectable. -/
def rpRead (ptr : W64) (i : Nat) (s : State) : Res (Nat × Bool × State) := do
  let l ← locate s 32 (rpAt ptr i) 4 0
  let (b, bad, t) := rdLoc l.loc 4 false (notePlace l s)
  .ok (bytesToNat b, bad, t)

/-- First(x): a binary search over rp, at most fuel halvings. -/
def rpFirst (ptr : W64) (x : Nat) : Nat → Nat → Nat → Bool → State → Res (Nat × Bool × State)
  | 0, lo, _, bad, s => .ok (lo, bad, s)
  | f + 1, lo, hi, bad, s =>
    if lo < hi then do
      let mid := (lo + hi) / 2
      let (v, b, t) ← rpRead ptr mid s
      if x ≤ v then rpFirst ptr x f lo mid (bad || b) t else rpFirst ptr x f (mid + 1) hi (bad || b) t
    else .ok (lo, bad, s)

/-- sp.part at issue: operands latched, first reads checked and translated. -/
def execSpPart (d : BitVec 4) (a b : BitVec 6) (s : State) : Host.Outcome State Fault Refusal :=
  run (fun t => do
    needRole t .spt
    let dest := 4 * d.toNat
    need (!(List.range 4).any (fun i => liveIn t (dest + i))) (.trap 0x02 0)
    let ptr := rdS t a.toNat
    let w := rdS t b.toNat
    let m := fld w 31 0
    need (fld w 47 32 != 0 && decide (fld w 63 48 < fld w 47 32)) (fmtErr 14)
    need (isGlobal ptr || isSpad ptr) (.trap 0x06 ptr)
    let l0 ← locate t 32 ptr 4 0
    need (isGlobal (rpAt ptr m) == isGlobal ptr && isSpad (rpAt ptr m) == isSpad ptr) (.trap 0x06 (rpAt ptr m))
    let l1 ← locate t 32 (rpAt ptr m) 4 0
    need (!opFull t .load) (.wait .other)
    .ok (addOp (newOp t .load (.part dest ptr m (fld w 47 32) (fld w 63 48) false) [l0.page, l1.page]) t)) s

/-- A partition in flight. -/
def isPartOp (o : Op) : Bool :=
  match o.kind with
  | .part _ _ _ _ _ _ => true
  | _ => false

/-- The results of a partition: the four registers and whether a word read was uncorrectable. -/
def partResults (ptr : W64) (m p share : Nat) (s : State) : Res (List Nat × Bool × State) := do
  let (base, b0, s0) ← rpRead ptr 0 s
  let (top, b1, s1) ← rpRead ptr m s0
  let nnz := (top + 2 ^ 32 - base) % 2 ^ 32
  let start := fun (q : Nat) => if q < p then base + q * nnz / p else base + nnz
  let (lo, b2, s2) ← rpFirst ptr (start share) 33 0 m (b0 || b1) s1
  let (hi, b3, s3) ← if share + 1 = p then .ok (m, b2, s2) else rpFirst ptr (start (share + 1)) 33 0 m b2 s2
  .ok ([lo, hi, start share, start (share + 1)], b3, s3)

/-- The partition unit finishes for the crew in focus: results written, a deferred 0x15 for uncorrectable data, or
the crew parks on a fault of a search (R262). -/
def partDo (s : State) : State :=
  match findOp s isPartOp with
  | some o => match o.kind with
    | .part dest ptr m p share _ =>
      let regs := (List.range 4).map (· + dest)
      match partResults ptr m p share s with
      | .ok (l, bad, t) =>
        let t1 := endOp isPartOp t
        if bad then pendTrap 0x15 (BitVec.ofNat 64 (vaOf s 32 ptr)) (.touch regs) t1
        else (regs.zip l).foldl (fun u q => wrS q.1 (BitVec.ofNat 64 q.2) u) t1
      | .error (.park q va k lv pa acc) =>
        parkFault false false 0 0 q va k lv pa acc
          (modOp isPartOp (fun x => { x with kind := .part dest ptr m p share true }) s)
      | .error (.trap c i) => pendTrap c i (.touch regs) (endOp isPartOp s)
      | .error _ => s
    | _ => s
  | none => s

/-! ### Idempotent regions (R272) -/

/-- ir.begin. -/
def execIrBegin (a b : BitVec 6) (s : State) : Host.Outcome State Fault Refusal :=
  run (fun t => do
    notInRegion t
    let w := rdS t b.toNat
    let lo := fld w 9 0
    let n := fld w 20 10
    need (fld w 63 21 == 0 && decide (n ≤ 1024) && decide (lo + n ≤ 1024)) (fmtErr 3)
    .ok (onC (fun c => { c with region := some ⟨rdS t a.toNat, lo, n, c.sc.pc, c.clock, 0, c.ln.nextSeq⟩ }) t)) s

/-- A run enqueued in the region is not complete. -/
def regionRuns (c : Crew) : Bool :=
  (c.ln.queue ++ c.ln.hqueue ++ (c.ln.cur.toList ++ c.ln.hcur.toList).map (·.run)).any (·.region)

/-- ir.end; scatter-adds issued before the region that the Sieve still holds are waited for as ewait does (R320).
(DEDUCED, unsafe: notes/assumptions/27.md) -/
def execIrEnd (s : State) : Host.Outcome State Fault Refusal :=
  run (fun t => do
    need (inRegion t) (.trap 0x02 0)
    need (!regionRuns t.crew) (.wait .lanes)
    need (decide (opCount t.crew .gather = 0)) (.wait .other)
    need (!t.crew.ops.any (fun o => o.cls == .scatter && opLive o && !behindSieve t.crew o)) (.wait .other)
    let held := sieveOf .scatter t.crew
    need held.isEmpty (.wait (.detSync (newestFlush held)))
    need (decide (opCount t.crew .scatter = 0)) (.wait .other)
    .ok (onC (fun c => { c with region := none }) t)) s

/-! ### tab.load (R139, R140) -/

/-- A table record that meets R139. -/
def tabRec (b : List Byte) : Option TabRec :=
  let shift := sVal 8 (fieldAt b 2 1)
  let lo := fieldAt b 4 4
  let knots := (List.range 257).map (fun j => fieldAt b (12 + 4 * j) 4)
  let finite := fun (x : Nat) => !exSpecial (exOf fmtF32 x)
  if fieldAt b 0 2 = 1 ∧ -32 ≤ shift ∧ shift ≤ 31 ∧ fieldAt b 3 1 = 0 ∧ fieldAt b 8 4 = 0 ∧ finite lo ∧ knots.all finite then
    some ⟨shift, lo, knots⟩
  else none

/-- tab.load. -/
def execTabLoad (c : BitVec 4) (a : BitVec 6) (b : BitVec 1) (s : State) : Host.Outcome State Fault Refusal :=
  run (fun t => do
    notInRegion t
    let p := rdS t a.toNat
    need (isGlobal p || isSpad p) (.trap 0x06 p)
    need (!apBad t 32 p 1040) (.trap 0x06 p)
    need (p.toNat % 16 == 0) (.trap 0x07 p)
    need (decide (runsOut t.crew = 0)) (.wait .lanes)
    let (bytes, t1) ← memRead 32 p 1040 t
    let r := tabRec bytes
    .ok (wrC c.toNat r.isSome (onT (fun x => if b = 1 then { x with tab1 := r } else { x with tab0 := r }) t1))) s

end Sys2Proof.Machine
end

