-- ==== Sys2Proof/Machine/Slice.lean ====
section
/-! DEFINITION. The slc and det instructions (R325 to R329). -/

namespace Sys2Proof.Machine

/-! ### slc (R327, R328) -/

/-- The word of slc.extend, for trap.info. -/
def extendWord (c : BitVec 4) (a : BitVec 6) : W64 := BitVec.ofNat 64 (0x84000000 + c.toNat * 2 ^ 20 + a.toNat * 2 ^ 14)

/-- slc.extend (R328). (DEDUCED, unsafe: notes/assumptions/38.md) -/
def execSlcExtend (c : BitVec 4) (a : BitVec 6) (s : State) : Host.Outcome State Fault Refusal :=
  run (fun t => do
    need t.crew.handler.isSome (.trap 0x01 (extendWord c a))
    match findJob t t.job.budgetOwner with
    | none => .ok (wrC c.toNat true t)
    | some o =>
      if o.rcd.budget = 0 then .ok (wrC c.toNat true t)
      else
        let want := (rdS t a.toNat).toNat
        let g := min want ((sliceQ t t.job.queue).xcap.toNat - o.extended)
        .ok (wrC c.toNat (decide (g = want)) (modJob o.take (fun j =>
          { j with
            extended := j.extended + g
            exhausted := j.exhausted && decide (j.rcd.budget.toNat + j.extended + g ≤ j.charged) }) t))) s

/-- slc.abort (R312, R327). -/
def execSlcAbort (s : State) : Host.Outcome State Fault Refusal := .next (abortJob s.crew.key.job 3 0 s)

/-- A non-secure crew that names a secure slice queue traps 0x09. -/
def needQueueWorld (q : Nat) (s : State) : Res Unit := need (!qSecure (sliceQ s q).qctl || s.job.secure) (.trapOpen 0x09)

/-- slc.qfree (R327). -/
def execSlcQfree (d a : BitVec 6) (s : State) : Host.Outcome State Fault Refusal :=
  run (fun t => do
    let q := fld (rdS t a.toNat) 5 0
    needQueueWorld q t
    let cap := qCap (sliceQ t q).qctl
    putS d.toNat (BitVec.ofNat 64 (if isDet t then cap else cap - (sliceQ t q).recs.length)) t) s

/-! ### det (R325 to R329) -/

/-- det.digest (R329): an acquire fence at device scope, then Hq. -/
def execDetDigest (d : BitVec 4) (a : BitVec 6) (s : State) : Host.Outcome State Fault Refusal :=
  run (fun t => do
    let q := fld (rdS t a.toNat) 5 0
    needQueueWorld q t
    let dest := 4 * d.toNat
    need (!(List.range 4).any (fun i => liveIn t (dest + i))) (.trap 0x02 0)
    fenceWait 5 false true true t
    let h := (sliceQ t q).digest
    .ok ((List.range 4).foldl (fun u i => wrS (dest + i) (BitVec.ofNat 64 (fieldAt h (8 * i) 8)) u)
      (fenceLines 5 false true t))) s

/-- det.out (R325, R327). -/
def execDetOut (a b : BitVec 6) (s : State) : Host.Outcome State Fault Refusal :=
  run (fun t => do
    let p := rdS t a.toNat
    let n := (rdS t b.toNat).toNat
    need (isGlobal p && !mbzBad p) (.trap 0x06 p)
    if n = 0 then .ok t
    else
      need (decide (n ≤ 2 ^ 40) && decide (t.job.regionCount < 64)) (fmtErr 15)
      .ok (onJ (fun j => { j with
        regionCount := j.regionCount + 1
        regions := if isDet t then j.regions ++ [(fld p 55 0, n)] else j.regions }) t)) s

/-- det.flush (R327). -/
def execDetFlush (d : BitVec 6) (s : State) : Host.Outcome State Fault Refusal :=
  setReg d (fun t => BitVec.ofNat 64 (if isDet t then intervalOf t else 0)) s

/-- det.sync: completed by the flush of the current interval (R319, R327). -/
def execDetSync (s : State) : Host.Outcome State Fault Refusal :=
  run (fun t => if isDet t then .error (.wait (.released (intervalOf t))) else .ok t) s

end Sys2Proof.Machine
end

