-- ==== Sys2Proof/Machine/Fabric.lean ====
section
/-! DEFINITION. The fabric instructions: transfers, signals, waits and reductions (R342 to R352). -/

namespace Sys2Proof.Machine

/-! ### Transfers and signals at issue (R344 to R347) -/

/-- A remote pointer, 8-byte aligned. -/
def remoteOk (p : W64) : Bool := apOf p == 3 && p.toNat % 8 == 0

/-- A local pointer of a transfer, 8-byte aligned. -/
def localOk (p : W64) : Bool := (isGlobal p || isSpad p) && p.toNat % 8 == 0

/-- The command registers of a transfer meet R345; sig says that SIG names a signal word. -/
def transferOk (s : State) (a : Nat) (sig : Bool) : Bool :=
  let rem := rdS s (a + 1)
  let c := rdS s (a + 2)
  let w := rdS s (a + 3)
  localOk (rdS s a) && remoteOk rem && fld c 63 32 == 0 && fld c 31 0 != 0 && fld c 31 0 % 8 == 0 &&
  (if sig then remoteOk w && fld w 59 48 == fld rem 59 48 else w == 0)

/-- Bytes that leave a local pointer's aperture or allocation, or a peer's address space. -/
def transferOut (s : State) (p rem : W64) (n : Nat) : Option W64 :=
  let (lo, hi) := apRange s p
  if (p.toNat : Int) < lo ∨ hi < (p.toNat : Int) + n then some p
  else if 2 ^ 48 < fld rem 47 0 + n then some rem
  else none

/-- The number of the next run of the stream in use: the handler's while a trap is handled (R293). -/
def nextRun (c : Crew) : Nat := if c.handler.isSome then c.ln.nextHSeq else c.ln.nextSeq

/-- A transfer or signal as it is issued: a signal's release covers what precedes it here (R175, R347). -/
def fabOpOf (isGet : Bool) (p rem : W64) (n : Nat) (signal : Option (W64 × W64 × Bool)) (s : State) : FabOp :=
  ⟨isGet, p, rem, n, signal, nextRun s.crew, s.crew.handler.isSome, s.crew.sieveOrder⟩

/-- Put a fabric operation in flight. -/
def fabIssue (isGet : Bool) (a : Nat) (signal : Option (W64 × W64 × Bool)) (s : State) : Res State := do
  notInRegion s
  let p := rdS s a
  let rem := rdS s (a + 1)
  let n := fld (rdS s (a + 2)) 31 0
  need (transferOk s a signal.isSome) (fmtErr 18)
  match transferOut s p rem n with
  | some q => .error (.trap 0x06 q)
  | none =>
    need (!opFull s .fabric) (.wait .other)
    .ok (addOp (newOp s .fabric (.fabric (fabOpOf isGet p rem n signal s)) []) s)

/-- fx.put (R346). -/
def execFxPut (a : BitVec 4) (s : State) : Host.Outcome State Fault Refusal := run (fabIssue false (4 * a.toNat) none) s
/-- fx.put.set (R347). -/
def execFxPutSet (a : BitVec 4) (b : BitVec 6) (s : State) : Host.Outcome State Fault Refusal :=
  run (fun t => fabIssue false (4 * a.toNat) (some (rdS t (4 * a.toNat + 3), rdS t b.toNat, false)) t) s
/-- fx.put.add (R347). -/
def execFxPutAdd (a : BitVec 4) (b : BitVec 6) (s : State) : Host.Outcome State Fault Refusal :=
  run (fun t => fabIssue false (4 * a.toNat) (some (rdS t (4 * a.toNat + 3), rdS t b.toNat, true)) t) s
/-- fx.get (R346). -/
def execFxGet (a : BitVec 4) (s : State) : Host.Outcome State Fault Refusal := run (fabIssue true (4 * a.toNat) none) s

/-- fx.signal at issue (R345, R347). -/
def signalBody (add : Bool) (a b : BitVec 6) (s : State) : Res State := do
  notInRegion s
  let w := rdS s a.toNat
  need (remoteOk w) (fmtErr 18)
  need (decide (fld w 47 0 + 8 ≤ 2 ^ 48)) (.trap 0x06 w)
  need (!opFull s .fabric) (.wait .other)
  .ok (addOp (newOp s .fabric (.fabric (fabOpOf false 0 w 0 (some (w, rdS s b.toNat, add)) s)) []) s)

/-- fx.signal.set (R347). -/
def execFxSignalSet (a b : BitVec 6) (s : State) : Host.Outcome State Fault Refusal := run (signalBody false a b) s
/-- fx.signal.add (R347). -/
def execFxSignalAdd (a b : BitVec 6) (s : State) : Host.Outcome State Fault Refusal := run (signalBody true a b) s

/-! ### fx.wait (R348) -/

/-- Read the word of an fx.wait; the acquire of its end waits for the crew's own loads first (R180). -/
def waitWord (a : BitVec 6) (s : State) : Res (W64 × State) := do
  notInRegion s
  let p := rdS s a.toNat
  need (isGlobal p || isSpad p) (.trap 0x06 p)
  let (b, t) ← memRead 32 p 8 s
  .ok (BitVec.ofNat 64 (bytesToNat b), t)

/-- fx.wait. -/
def execFxWait (a b : BitVec 6) (s : State) : Host.Outcome State Fault Refusal :=
  run (fun t => do
    let (v, u) ← waitWord a t
    need (decide ((rdS t b.toNat).toNat ≤ v.toNat)) (.wait .other)
    fenceWait 6 false true true t
    .ok (fenceLines 6 false true u)) s

/-- fx.wait.try. -/
def execFxWaitTry (c : BitVec 4) (a b : BitVec 6) (s : State) : Host.Outcome State Fault Refusal :=
  run (fun t => do
    let (v, u) ← waitWord a t
    if (rdS t b.toNat).toNat ≤ v.toNat then
      fenceWait 6 false true true t
      .ok (wrC c.toNat true (fenceLines 6 false true u))
    else .ok (wrC c.toNat false u)) s

/-! ### fx.reduce (R349 to R351) -/

/-- A reduction plan. -/
structure Plan where
  format : Nat
  ty : Nat
  op : Nat
  p : Nat
  resv : Nat
  count : Nat
  id : W64
  deriving DecidableEq, Repr

/-- Parse 64 plan bytes. -/
def planOf (b : List Byte) : Plan where
  format := fieldAt b 0 2
  ty := fieldAt b 2 1
  op := fieldAt b 3 1
  p := fieldAt b 4 2
  resv := fieldAt b 6 2 + fieldAt b 12 4 + fieldAt b 24 40
  count := fieldAt b 8 4
  id := BitVec.ofNat 64 (fieldAt b 16 8)

/-- The plan meets R349. -/
def planOk (x : Plan) : Bool :=
  x.format == 1 && (decide (x.ty ≤ 3) || x.ty == 8 || x.ty == 9) && (x.op == 0 || x.op == 2 || x.op == 3) &&
  decide (1 ≤ x.p) && decide (x.p ≤ 4096) && decide (1 ≤ x.count) && decide (x.count ≤ 2 ^ 24) && x.resv == 0

/-- The peers of a plan, when each entry is well formed. -/
def planPeers (b : List Byte) (p : Nat) : Option (List Nat) :=
  let l := (List.range p).map (fun r => fieldAt b (2 * r) 2)
  if l.all (fun x => decide (x < 4096)) then some l else none

/-- Record a contribution; a second one of a rank is ignored, and one that disagrees spoils the reduction.
(DESIGN CHOICE, unsafe: notes/assumptions/37.md) -/
def putContribution (c : Contribution) (s : State) : State :=
  match s.reduces.find? (fun r => r.planid == c.planid && r.epoch == c.epoch) with
  | none => { s with reduces := s.reduces ++ [⟨c.planid, c.epoch, [c], false⟩] }
  | some _ =>
    let f := fun (r : ReduceSt) =>
      if r.planid = c.planid ∧ r.epoch = c.epoch ∧ !r.got.any (fun x => x.rank == c.rank) then
        { r with got := r.got ++ [c], bad := r.bad || r.got.any (fun x => x.p ≠ c.p ∨ x.ty ≠ c.ty ∨ x.op ≠ c.op ∨ x.count ≠ c.count) }
      else r
    { s with reduces := s.reduces.map f }

/-- fx.reduce at issue (R350): the plan and this device's inputs are read, its contribution is on its way. -/
def reduceBody (a : Nat) (s : State) : Res State := do
  notInRegion s
  let plan := rdS s a
  let inp := rdS s (a + 1)
  let out := rdS s (a + 2)
  let epoch := rdS s (a + 3)
  need (isGlobal plan && !mbzBad plan && plan.toNat % 64 == 0) (fmtErr 19)
  let (b, s1) ← memRead 32 plan 64 s
  let x := planOf b
  need (planOk x) (fmtErr 19)
  let (pb, s2) ← memRead 32 (plan + 64) (2 * x.p) s1
  let t := tyOf x.ty
  let n := tyWidth t / 8
  let ok := fun (p : W64) => (isGlobal p || isSpad p) && !mbzBad p && p.toNat % n == 0
  match planPeers pb x.p with
  | none => .error (fmtErr 19)
  | some peers =>
    match peers.findIdx? (· == fxSelf s) with
    | none => .error (fmtErr 19)
    | some rank =>
      need (ok inp && ok out) (fmtErr 19)
      need (!apBad s 32 inp (n * x.count)) (.trap 0x06 inp)
      need (!apBad s 32 out (n * x.count)) (.trap 0x06 out)
      need (!opFull s .fabric) (.wait .other)
      let (eb, s3) ← (List.range x.count).foldlM (fun (acc : List W64 × State) i => do
        let (v, u) ← memRead 32 (inp + BitVec.ofNat 64 (n * i)) n acc.2
        .ok (acc.1 ++ [BitVec.ofNat 64 (bytesToNat v)], u)) ([], s2)
      .ok (addOp (newOp s .fabric (.reduce ⟨x.id, epoch, x.p, x.ty, x.op, x.count, rank, peers, out⟩) [])
        (putContribution ⟨x.id, epoch, rank, x.p, x.ty, x.op, x.count, eb⟩ s3))

/-- fx.reduce. -/
def execFxReduce (a : BitVec 4) (s : State) : Host.Outcome State Fault Refusal := run (reduceBody (4 * a.toNat)) s

/-- The result of one element (R350): the tree over 4,096 places, absent ranks being the identity. -/
def reduceElem (ty op p : Nat) (vals : List (Option Nat)) : Nat :=
  let t := tyOf ty
  let leaves := (List.range 4096).map (fun i => if i < p then (nth none vals i).getD (identityOf t op) else identityOf t op)
  (treeReduce (combine t .rne false op) 12 leaves fNone).1

/-- The OUT elements once every rank's contribution is in. -/
def reduceResult (r : ReduceOp) (st : ReduceSt) : Option (List Nat) :=
  let of := fun (k : Nat) => st.got.find? (fun c => c.rank == k)
  if (List.range r.p).all (fun k => (of k).isSome) then
    some ((List.range r.count).map (fun e => reduceElem r.ty r.op r.p
      ((List.range r.p).map (fun k => (of k).map (fun c => (nth 0 c.elems e).toNat)))))
  else none

/-! ### Completion of a crew's fabric operations (R342, R346, R347, R352) -/

/-- The peers reached only through a port: FXROUTE names one port for each. -/
def viaPort (s : State) (port : Nat) (peer : Nat) : Bool :=
  let r := smGet 0 s.dev.fxroute peer
  r.getLsbD 7 && r.toNat % 16 == port

/-- A peer that is reached only through a port that is down (R343). -/
def unreachable (s : State) (peer : Nat) : Bool := peer != fxSelf s && s.dev.portsDown.any (fun p => viaPort s p peer)

end Sys2Proof.Machine
end

