-- ==== Sys2Proof/Machine/Solve.lean ====
section
/-! DEFINITION. The solve unit: the arithmetic of R331, factorisation, solution and refinement of one record, and
the sv instructions (R330 to R341). -/

namespace Sys2Proof.Machine

/-! ### Arithmetic (R331) -/

/-- What the arithmetic of a record depends on: ARITH, FRAC and BND. -/
structure SvArith where
  arith : Nat
  frac : Nat
  bnd : Nat
  deriving DecidableEq, Repr

/-- The working format of a floating ARITH. -/
def svFmt (p : SvArith) : Fmt := if p.arith = 1 then fmtF32 else fmtF64

/-- num / den to the nearest integer, ties to even. -/
def rneDiv (num den : Int) : Int :=
  let n := num.natAbs
  let d := den.natAbs
  let q := n / d
  let r := n % d
  let m := if d < 2 * r ∨ (2 * r = d ∧ q % 2 = 1) then q + 1 else q
  if (num < 0) = (den < 0) then m else -(m : Int)

/-- The range check of ARITH 2: the code, and whether the result was replaced. -/
def svRange (p : SvArith) (x : Int) : Nat × Bool :=
  if x.natAbs < p.bnd then (wrapN 32 x, false)
  else (wrapN 32 (if x < 0 then -((p.bnd : Int) - 1) else (p.bnd : Int) - 1), true)

/-- Div of R331; a fixed-point division by zero has an open quotient. (DESIGN CHOICE, safe: notes/assumptions/16.md) -/
def svDiv (p : SvArith) (x y : Nat) : Nat × Bool :=
  if p.arith = 2 then
    svRange p (if y = 0 then (Config.fixDivZero (BitVec.ofNat 32 x)).toInt
      else rneDiv (sVal 32 x * (2 ^ p.frac : Nat)) (sVal 32 y))
  else ((fDiv (svFmt p) .rne x y).1, false)

/-- Fnma of R331. -/
def svFnma (p : SvArith) (a b c : Nat) : Nat × Bool :=
  if p.arith = 2 then
    svRange p (rneDiv (sVal 32 c * (2 ^ p.frac : Nat) - sVal 32 a * sVal 32 b) ((2 ^ p.frac : Nat) : Int))
  else ((fFma (svFmt p) .rne (fFlip (svFmt p) a) b c).1, false)

/-- Sqrt of R331 of a positive value. -/
def svSqrt (p : SvArith) (x : Nat) : Nat × Bool :=
  if p.arith = 2 then
    let v := (sVal 32 x).toNat <<< p.frac
    let r := isqrt v
    svRange p (if r < v - r * r then r + 1 else r : Nat)
  else ((fSqrt (svFmt p) .rne x).1, false)

/-- A zero of either sign. -/
def svZero (p : SvArith) (x : Nat) : Bool :=
  if p.arith = 2 then x == 0 else fClearSign (svFmt p) x == 0

/-- Above zero. -/
def svPos (p : SvArith) (x : Nat) : Bool :=
  if p.arith = 2 then decide (0 < sVal 32 x) else decide (exCmp exZero (exOf (svFmt p) x) = some .lt)

/-- The magnitude of an element for the pivot search; NaN is above all. -/
def svMag (p : SvArith) (x : Nat) : Nat :=
  if p.arith = 2 then (sVal 32 x).natAbs
  else if isNanC (svFmt p) x then 2 ^ 64 else fClearSign (svFmt p) x

/-- An infinity or a NaN. -/
def svBad (f : Fmt) (x : Nat) : Bool := decide (fmtInf f ≤ fClearSign f x)

/-! ### Factorisation (R334, R336) -/

/-- A factorisation under way: the matrix, row by row, the elements written, the pivots, the step of the first range
violation, and the step of a pivot that ends it. -/
structure SvFact where
  a : SMap Nat
  wr : SMap Bool
  piv : List Nat
  rv : Option Nat
  zp : Option Nat
  deriving DecidableEq, Repr

/-- Element i, j. -/
def svAt (n : Nat) (st : SvFact) (i j : Nat) : Nat := smGet 0 st.a (n * i + j)

/-- Write element i, j at a step. -/
def svPut (n step i j : Nat) (r : Nat × Bool) (st : SvFact) : SvFact :=
  { st with
    a := smSet 0 st.a (n * i + j) r.1
    wr := smSet false st.wr (n * i + j) true
    rv := if r.2 && st.rv.isNone then some step else st.rv }

/-- Exchange rows k and p. -/
def svSwap (n k p : Nat) (st : SvFact) : SvFact :=
  if k = p then st
  else (List.range n).foldl (fun t j =>
    let x := svAt n t k j
    svPut n k p j (x, false) (svPut n k k j (svAt n t p j, false) t)) st

/-- The lowest row at or below k with the largest magnitude in column k. -/
def svPivot (p : SvArith) (n k : Nat) (st : SvFact) : Nat :=
  (List.range n).foldl (fun best i =>
    if k < i ∧ svMag p (svAt n st best k) < svMag p (svAt n st i k) then i else best) k

/-- Step k of an LU factorisation. -/
def svLuStep (p : SvArith) (n : Nat) (warm : Option (List Nat)) (st : SvFact) (k : Nat) : SvFact :=
  if st.zp.isSome then st
  else
    let q := match warm with
      | some perm => nth 0 perm k
      | none => svPivot p n k st
    let s1 := svSwap n k q { st with piv := st.piv ++ [q] }
    if svZero p (svAt n s1 k k) then { s1 with zp := some k }
    else
      let below := (List.range n).filter (fun i => k < i)
      let s2 := below.foldl (fun t i => svPut n k i k (svDiv p (svAt n t i k) (svAt n t k k)) t) s1
      below.foldl (fun t i => below.foldl (fun u j =>
        svPut n k i j (svFnma p (svAt n u i k) (svAt n u k j) (svAt n u i j)) u) t) s2

/-- A chain of Fnma over columns below j: t − Σ a[i][k] · a[j][k], with the range check of every step. -/
def svDot (p : SvArith) (n i j : Nat) (t : Nat) (st : SvFact) : Nat × Bool :=
  (List.range j).foldl (fun (acc : Nat × Bool) k =>
    let r := svFnma p (svAt n st i k) (svAt n st j k) acc.1
    (r.1, acc.2 || r.2)) (t, false)

/-- Column j of a Cholesky factorisation. -/
def svCholStep (p : SvArith) (n : Nat) (st : SvFact) (j : Nat) : SvFact :=
  if st.zp.isSome then st
  else
    let x := svDot p n j j (svAt n st j j) st
    let s1 := if x.2 && st.rv.isNone then { st with rv := some j } else st
    if svPos p x.1 then
      let s2 := svPut n j j j (svSqrt p x.1) s1
      ((List.range n).filter (fun i => j < i)).foldl (fun t i =>
        let y := svDot p n i j (svAt n t i j) t
        let z := svDiv p y.1 (svAt n t j j)
        svPut n j i j (z.1, y.2 || z.2) t) s2
    else { s1 with zp := some j }

/-- Digest of R334. -/
def svDigest (perm : List Nat) : Nat :=
  perm.foldl (fun d x => (((rolN 32 d 5) ^^^ x) + 0x9E3779B9) % 2 ^ 32) 0

/-! ### Solution (R337) -/

/-- A column under way: its elements, and the step of the first range violation. -/
structure SvCol where
  y : SMap Nat
  rv : Option Nat
  deriving DecidableEq, Repr

/-- Write an element of a column. -/
def colPut (i : Nat) (r : Nat × Bool) (c : SvCol) : SvCol :=
  ⟨smSet 0 c.y i r.1, if r.2 && c.rv.isNone then some i else c.rv⟩

/-- Exchange y[k] and y[q]; a row past the end yields an open element.
(DESIGN CHOICE, safe: notes/assumptions/16.md) -/
def colSwap (p : SvArith) (n k q : Nat) (c : SvCol) : SvCol :=
  let x := smGet 0 c.y k
  if q < n then { c with y := smSet 0 (smSet 0 c.y k (smGet 0 c.y q)) q x }
  else { c with y := smSet 0 c.y k ((Config.rowOutside k q).toNat % 2 ^ (if p.arith = 0 then 64 else 32)) }

/-- Solve one column with a factor. -/
def svSolve (p : SvArith) (n : Nat) (chol : Bool) (perm : List Nat) (a : Nat → Nat → Nat) (c : SvCol) : SvCol :=
  let up := List.range n
  let c1 := if chol then c else up.foldl (fun t k => colSwap p n k (nth 0 perm k) t) c
  let c2 := up.foldl (fun t i =>
    let u := (List.range i).foldl (fun v k =>
      colPut i (svFnma p (a i k) (smGet 0 v.y k) (smGet 0 v.y i)) v) t
    if chol then colPut i (svDiv p (smGet 0 u.y i) (a i i)) u else u) c1
  up.reverse.foldl (fun t i =>
    let u := (up.filter (fun k => i < k)).foldl (fun v k =>
      colPut i (svFnma p (if chol then a k i else a i k) (smGet 0 v.y k) (smGet 0 v.y i)) v) t
    colPut i (svDiv p (smGet 0 u.y i) (a i i)) u) c2

/-! ### Records in the scratchpad (R330) -/

/-- x rounded up to a multiple of 16. -/
def round16 (x : Nat) : Nat := (x + 15) / 16 * 16

/-- Bytes of an element of A, B and X. -/
def svEs (arith : Nat) : Nat := if arith = 2 then 4 else 8
/-- Offset of F. -/
def svFoff (n arith : Nat) : Nat := 64 + round16 (n * n * svEs arith)
/-- Offset of B. -/
def svBoff (n arith : Nat) : Nat := if arith = 1 then svFoff n arith + round16 (4 * (n * n)) else svFoff n arith
/-- Offset of X. -/
def svXoff (n nrhs arith : Nat) : Nat := svBoff n arith + round16 (n * nrhs * svEs arith)
/-- Size of a record. -/
def svSize (n nrhs arith : Nat) : Nat := svXoff n nrhs arith + round16 (n * nrhs * svEs arith)

/-- A little-endian number in the scratchpad. -/
def spadNat (s : State) (off n : Nat) : Nat := bytesToNat (spadRd s off n)

/-- count elements of w bytes from an offset, keyed from 0. -/
def spadArr (s : State) (off w count : Nat) : SMap Nat :=
  (List.range count).foldl (fun m i => smSet 0 m i (spadNat s (off + w * i) w)) []

/-- Write the elements of a map that wr lists. -/
def spadArrWr (off w : Nat) (wr : SMap Bool) (a : SMap Nat) (s : State) : State :=
  wr.foldl (fun t x => spadWr (off + w * x.1) (natToBytes w (smGet 0 a x.1)) t) s

/-- TAG of R330. -/
def svTag (n arith : Nat) (chol : Bool) (perm : List Nat) : Nat :=
  n + 2 ^ 8 * arith + (if chol then 2 ^ 10 else 0) + 2 ^ 32 * svDigest perm

/-- The fields of a record's TAG and PERM that the commands use. -/
structure SvHead where
  n : Nat
  arith : Nat
  chol : Bool
  pdig : Nat
  perm : List Nat
  status : Nat
  deriving DecidableEq, Repr

/-- Read a record's head at an offset. -/
def svHead (s : State) (off n : Nat) : SvHead :=
  let t := spadNat s (off + 8) 8
  ⟨t % 256, fieldN t 9 8, t.testBit 10, t / 2 ^ 32, (spadRd s (off + 16) n).map (·.toNat), spadNat s off 8⟩

/-- The arithmetic of a command on a record. -/
def svArith (c : SolveCmd) (s : State) (off : Nat) : SvArith :=
  let e := sVal 8 (spadNat s (off + 48) 1)
  ⟨c.arith, c.frac, 2 ^ (min (e + c.frac) 31).toNat⟩

/-- The start of a factorisation: A in place, or F made from A (R334). -/
def svStart (c : SolveCmd) (s : State) (off : Nat) : SvFact :=
  let a := spadArr s (off + 64) (svEs c.arith) (c.n * c.n)
  if c.arith = 1 then
    (List.range (c.n * c.n)).foldl (fun t i =>
      { t with a := smSet 0 t.a i (fCvt fmtF64 fmtF32 .rne (smGet 0 a i)).1, wr := smSet false t.wr i true })
      ⟨[], [], [], none, none⟩
  else ⟨a, [], [], none, none⟩

/-- STATUS of R335 from its parts. -/
def svStatus (zp ov rv nc wr : Bool) (col : Nat) : Nat :=
  (if zp then 1 else 0) + (if ov then 2 else 0) + (if rv then 4 else 0) + (if nc then 8 else 0) +
  (if wr then 16 else 0) + 2 ^ 8 * (col % 256)

/-- Write the result of a factorisation: the elements, PERM and TAG, and STATUS. -/
def svFinish (c : SolveCmd) (off : Nat) (chol wr : Bool) (f : SvFact) (s : State) : Nat × State :=
  let p : SvArith := ⟨c.arith, c.frac, 1⟩
  let ov := c.arith != 2 && f.wr.any (fun x => svBad (svFmt p) (smGet 0 f.a x.1))
  let w := if c.arith = 0 then 8 else 4
  let base := if c.arith = 1 then off + svFoff c.n c.arith else off + 64
  let s1 := spadArrWr base w f.wr f.a s
  let col := match f.rv, f.zp with
    | some x, _ => x
    | none, some x => x
    | none, none => 0
  let st := svStatus f.zp.isSome ov f.rv.isSome false wr col
  let s2 := match f.zp with
    | some _ => spadWr (off + 8) (natToBytes 8 0) s1
    | none => spadWr (off + 8) (natToBytes 8 (svTag c.n c.arith chol f.piv))
        (spadWr (off + 16) (f.piv.map (BitVec.ofNat 8)) s1)
  (st, spadWr off (natToBytes 8 st) s2)

/-- sv.lu of one record (R334). -/
def svLuRec (c : SolveCmd) (off : Nat) (s : State) : Nat × State :=
  let h := svHead s off c.n
  let use := c.warm && h.n == c.n && h.arith == c.arith && !h.chol && h.pdig == svDigest h.perm &&
    (List.range c.n).all (fun k => decide (k ≤ nth 0 h.perm k) && decide (nth 0 h.perm k < c.n))
  let f := (List.range c.n).foldl (svLuStep (svArith c s off) c.n (if use then some h.perm else none)) (svStart c s off)
  svFinish c off false (c.warm && !use) f s

/-- sv.chol of one record (R336). -/
def svCholRec (c : SolveCmd) (off : Nat) (s : State) : Nat × State :=
  let f := (List.range c.n).foldl (svCholStep (svArith c s off) c.n) (svStart c s off)
  svFinish c off true false { f with piv := List.range c.n } s

/-- The element of a right-hand side or a solution. -/
def svRhs (c : SolveCmd) (s : State) (base i col : Nat) : Nat :=
  spadNat s (base + (c.nrhs * i + col) * svEs c.arith) (svEs c.arith)

/-- Write a column of X. -/
def svXwr (c : SolveCmd) (off col : Nat) (x : SMap Nat) (s : State) : State :=
  (List.range c.n).foldl (fun t i =>
    spadWr (off + svXoff c.n c.nrhs c.arith + (c.nrhs * i + col) * svEs c.arith)
      (natToBytes (svEs c.arith) (smGet 0 x i)) t) s

/-- binary32 to binary64, exactly. -/
def svWiden (x : Nat) : Nat := (fCvt fmtF32 fmtF64 .rne x).1
/-- binary64 rounded to binary32. -/
def svNarrow (x : Nat) : Nat := (fCvt fmtF64 fmtF32 .rne x).1

/-- A map of the first n values of a function. -/
def mapOf (n : Nat) (f : Nat → Nat) : SMap Nat := (List.range n).foldl (fun m i => smSet 0 m i (f i)) []

/-- The factor of a record as a function of row and column. -/
def svFactor (c : SolveCmd) (s : State) (off i j : Nat) : Nat :=
  if c.arith = 1 then spadNat s (off + svFoff c.n c.arith + 4 * (c.n * i + j)) 4
  else spadNat s (off + 64 + svEs c.arith * (c.n * i + j)) (svEs c.arith)

/-- sv.trs of one column: X, and the step of a range violation. -/
def svTrsCol (c : SolveCmd) (h : SvHead) (off col : Nat) (s : State) : SMap Nat × Option Nat :=
  let b := mapOf c.n (fun i =>
    let x := svRhs c s (off + svBoff c.n c.arith) i col
    if c.arith = 1 then svNarrow x else x)
  let r := svSolve (svArith c s off) c.n h.chol h.perm (svFactor c s off) ⟨b, none⟩
  (if c.arith = 1 then mapOf c.n (fun i => svWiden (smGet 0 r.y i)) else r.y, r.rv)

/-- The largest magnitude of n codes as an exact value; NaN if any is NaN. -/
def svMax (f : Fmt) (n : Nat) (x : SMap Nat) : Ex :=
  if (List.range n).any (fun i => isNanC f (smGet 0 x i)) then .nan
  else exOf f ((List.range n).foldl (fun m i => max m (fClearSign f (smGet 0 x i))) 0)

/-- sv.ref of one column: the new X, and whether it has not converged (R338). -/
def svRefCol (c : SolveCmd) (h : SvHead) (off col : Nat) (s : State) : SMap Nat × Bool :=
  let x := fun i => svRhs c s (off + svXoff c.n c.nrhs c.arith) i col
  let a := fun i k => spadNat s (off + 64 + 8 * (c.n * i + k)) 8
  let r := mapOf c.n (fun i => svNarrow ((List.range c.n).foldl (fun acc k =>
    (fFma fmtF64 .rne (fFlip fmtF64 (a i k)) (x k) acc).1) (svRhs c s (off + svBoff c.n c.arith) i col)))
  let d := (svSolve (svArith c s off) c.n h.chol h.perm (svFactor c s off) ⟨r, none⟩).y
  let x' := mapOf c.n (fun i => (fAdd fmtF64 .rne (x i) (svWiden (smGet 0 d i))).1)
  let nc := match exCmp (svMax fmtF32 c.n d) (exScale (-(c.tol : Int)) (svMax fmtF64 c.n x')) with
    | some .gt => true
    | none => true
    | _ => false
  (x', nc)

/-- sv.trs and sv.ref of one record (R337, R338). -/
def svSolveRec (ref : Bool) (c : SolveCmd) (off : Nat) (s : State) : Nat × State :=
  let h := svHead s off c.n
  if h.n ≠ c.n ∨ h.arith ≠ c.arith then (32, spadWr off (natToBytes 8 32) s)
  else
    let cols := (List.range c.nrhs).map (fun col =>
      if ref then
        let r := svRefCol c h off col s
        (r.1, (none : Option Nat), r.2)
      else
        let r := svTrsCol c h off col s
        (r.1, r.2, false))
    let s1 := (cols.zipIdx).foldl (fun t x => svXwr c off x.2 x.1.1 t) s
    let ov := c.arith != 2 && cols.any (fun x => (List.range c.n).any (fun i => svBad fmtF64 (smGet 0 x.1 i)))
    let rv := (cols.filterMap (fun x => x.2.1)).head?
    let colOld := fieldN h.status 15 8
    let set := colOld != 0 || h.status.testBit 0 || h.status.testBit 2
    let col := match rv with
      | some k => if set then colOld else k
      | none => colOld
    let st := svStatus (h.status.testBit 0) ov rv.isSome (cols.any (fun x => x.2.2)) (h.status.testBit 4) col
    (st, spadWr off (natToBytes 8 st) s1)

/-- One record: its STATUS[7:0] and more, and what it leaves. (DESIGN CHOICE, safe: notes/assumptions/16.md) -/
def svRecord (c : SolveCmd) (off : Nat) (s : State) : Nat × State :=
  match c.ins with
  | 0 => svLuRec c off s
  | 1 => svCholRec c off s
  | 2 => svSolveRec false c off s
  | _ => svSolveRec true c off s

/-- The rows of the lower triangle of a matrix at an offset (offset, bytes). -/
def svLower (at0 es n : Nat) : List (Nat × Nat) := (List.range n).map (fun i => (at0 + es * n * i, es * (i + 1)))

/-- The parts of a record that a command reads (offset, bytes), its TAG being h: the lower triangle alone in sv.chol in place
and of a Cholesky factor (R336, R337), and nothing beyond a TAG that does not match (R337, R338). -/
def svReads (c : SolveCmd) (h : SvHead) : List (Nat × Nat) :=
  let es := svEs c.arith
  let a := (64, c.n * c.n * es)
  let at0 := if c.arith = 1 then svFoff c.n c.arith else 64
  let fes := if c.arith = 1 then 4 else es
  let e := if c.arith = 2 then [(48, 1)] else []
  let solve := (0, 8) :: (svBoff c.n c.arith, c.n * c.nrhs * es) :: e ++
    if h.chol then svLower at0 fes c.n else [(16, c.n), (at0, c.n * c.n * fes)]
  let ok := h.n == c.n && h.arith == c.arith
  match c.ins with
  | 0 => (if c.warm then [(8, 8), (16, c.n), a] else [a]) ++ e
  | 1 => (if c.arith = 1 then [a] else svLower 64 es c.n) ++ e
  | 2 => (8, 8) :: if ok then solve else []
  | _ => (8, 8) :: if ok then a :: (svXoff c.n c.nrhs c.arith, c.n * c.nrhs * 8) :: solve else []

/-- A part that the command reads is uncorrectable. -/
def svPoison (c : SolveCmd) (off : Nat) (s : State) : Bool :=
  (svReads c (svHead s off c.n)).any (fun r => badAt s.team.spadBad (off + r.1) r.2)

/-! ### The descriptor (R332) and the instructions (R333) -/

/-- The command in sA to sA + 2. -/
def svCmd (s : State) (ins a : Nat) : SolveCmd where
  ins := ins
  mptr := rdS s a
  mstride := fld (rdS s (a + 1)) 63 32
  count := fld (rdS s (a + 1)) 15 0
  tol := fld (rdS s (a + 2)) 26 21
  frac := fld (rdS s (a + 2)) 20 16
  warm := (rdS s (a + 2)).getLsbD 14
  arith := fld (rdS s (a + 2)) 13 12
  nrhs := fld (rdS s (a + 2)) 11 6 + 1
  n := fld (rdS s (a + 2)) 5 0
  next := 0
  sumOr := 0
  sumFirst := 0
  sumBad := 0
  unfinished := 0
  firstUn := 0

/-- The conditions of R332 on a descriptor. -/
def svOk (s : State) (a : Nat) (c : SolveCmd) : Bool :=
  fld (rdS s (a + 1)) 31 16 == 0 && fld (rdS s (a + 2)) 63 27 == 0 && fld (rdS s (a + 2)) 15 15 == 0 &&
  c.count != 0 && decide (1 ≤ c.n ∧ c.n ≤ 32) && decide (c.nrhs ≤ 32) && c.arith != 3 && decide (c.frac ≤ 30) &&
  (c.frac == 0 || c.arith == 2) && (!c.warm || c.ins == 0) && c.mstride % 16 == 0 &&
  decide (svSize c.n c.nrhs c.arith ≤ c.mstride)

/-- The batch leaves aperture 0x4 or the team's allocation. -/
def svOutside (s : State) (c : SolveCmd) : Bool :=
  !isSpad c.mptr || mbzBad c.mptr ||
  decide (spadBytes s < fld c.mptr 19 0 + (c.count - 1) * c.mstride + svSize c.n c.nrhs c.arith)

/-- A command instruction: checks, then the stream is blocked until the unit has finished (R332, R333). -/
def svBody (ins a : Nat) (s : State) : Res State := do
  needRole s .solve
  let c := svCmd s ins a
  need (svOk s a c) (fmtErr 16)
  need (ins != 3 || c.arith == 1) (fmtErr 17)
  need (!svOutside s c) (.trap 0x06 c.mptr)
  need (c.mptr.toNat % 16 == 0) (.trap 0x07 c.mptr)
  match s.crew.solve with
  | some _ => .error (.wait .solve)
  | none => .ok (onC (fun x => { x with solve := some c, wait := .solve }) s)

/-- sv.lu (R334). -/
def execSvLu (a : BitVec 6) (s : State) : Host.Outcome State Fault Refusal := runSelf (svBody 0 a.toNat) s
/-- sv.chol (R336). -/
def execSvChol (a : BitVec 6) (s : State) : Host.Outcome State Fault Refusal := runSelf (svBody 1 a.toNat) s
/-- sv.trs (R337). -/
def execSvTrs (a : BitVec 6) (s : State) : Host.Outcome State Fault Refusal := runSelf (svBody 2 a.toNat) s
/-- sv.ref (R338). -/
def execSvRef (a : BitVec 6) (s : State) : Host.Outcome State Fault Refusal := runSelf (svBody 3 a.toNat) s
/-- sv.stat (R27, R339). -/
def execSvStat (d : BitVec 6) (s : State) : Host.Outcome State Fault Refusal :=
  run (fun t => do
    needRole t .solve
    putS d.toNat t.crew.svStat t) s

/-! ### One record finished (R333, R339, R340) -/

/-- Count a STATUS into the summary of R339. -/
def svCount (st : Nat) (c : SolveCmd) : SolveCmd :=
  let low := st % 256
  { c with
    next := c.next + 1
    sumOr := c.sumOr ||| low
    sumFirst := if low ≠ 0 ∧ c.sumBad = 0 then c.next else c.sumFirst
    sumBad := if low ≠ 0 then c.sumBad + 1 else c.sumBad }

/-- STATUS := UN for every remaining record (R340). -/
def svAbandon (base : Nat) : Nat → SolveCmd → State → SolveCmd × State
  | 0, c, s => (c, s)
  | k + 1, c, s =>
    let c1 := { svCount 64 c with
      unfinished := c.unfinished + 1
      firstUn := if c.unfinished = 0 then c.next else c.firstUn }
    svAbandon base k c1 (spadWr (base + c.next * c.mstride) (natToBytes 8 64) s)

/-- Pend 0x16 before any 0x0B (R340). -/
def pendUnfinished (c : SolveCmd) (l : List PTrap) : List PTrap :=
  let t : PTrap := ⟨0x16, BitVec.ofNat 64 (c.firstUn + 2 ^ 16 * c.unfinished), .now⟩
  l.takeWhile (fun p => p.cause != 0x0B) ++ t :: l.dropWhile (fun p => p.cause != 0x0B)

/-- The command is over: the summary, the deferred trap if records were left, and the instruction completes. -/
def svComplete (c : SolveCmd) (s : State) : State :=
  let s1 := onC (fun x => { x with
    solve := none
    svStat := BitVec.ofNat 64 (c.sumBad + 2 ^ 16 * c.sumFirst + 2 ^ 32 * c.sumOr)
    ptraps := if c.unfinished = 0 then x.ptraps else pendUnfinished c x.ptraps }) s
  finish (s.crew.sc.pc + 4) s1

/-- The job slice in focus has passed its effective deadline (R311, R340); 0 stands for none. -/
def deadlinePassed (s : State) (j : Job) : Bool := j.deadline != 0 && decide (j.deadline < devTime s)

/-- The solve unit's next record for the crew in focus. A trap of it goes before one that waits at its entry, whose
instruction issues again. -/
def solveNext (s : State) : State :=
  match s.crew.solve with
  | none => s
  | some c =>
    let base := fld c.mptr 19 0
    if deadlinePassed s s.job then
      let (c1, s1) := svAbandon base (c.count - c.next) c s
      svComplete c1 s1
    else
      let off := base + c.next * c.mstride
      if svPoison c off s then
        trapScalar 0x15 (BitVec.ofNat 64 (fld c.mptr 55 0 + c.next * c.mstride)) s.crew.sc.pc
          (onC (fun x => { x with solve := none, ptraps := x.ptraps.filter (fun p => !atEntry p) }) (useSlot s))
      else
        let (st, s1) := svRecord c off s
        let c1 := svCount st c
        if c1.next = c1.count then svComplete c1 s1 else onC (fun x => { x with solve := some c1 }) s1

end Sys2Proof.Machine
end

