-- ==== Sys2Proof/Machine/Flags.lean ====
section
/-! DEFINITION. The flags and rounding of lane instructions: where they are gathered, what RM 101 means, and the format
trap (R54, R85, R125, R136). -/

namespace Sys2Proof.Machine

/-- OR flags into those of the run in execution; they reach astat when a wait covers the run (R85, R113). -/
def addRunFlags (f : Flags) (s : State) : State :=
  setRun ((curRun s.crew).map (fun r => { r with flags := r.flags ||| f })) s

/-- The rounding mode of an RM field: 101 is the crew default as the run recorded it (R54, R110, R125). -/
def rmField (s : State) (rm : Nat) : Rm :=
  let dflt := match curRun s.crew with
    | some r => r.run.rm
    | none => s.crew.sc.rmdef
  (rmOf (if rm = 5 then dflt else rm)).getD .rne

/-- FMTE as the run recorded it. -/
def runFmte (s : State) : Bool :=
  match curRun s.crew with
  | some r => r.run.fmte
  | none => s.crew.sc.fmte

/-- The flags of a list of lane results. -/
def flagsOf (l : List (Nat × Nat × Flags)) : Flags := l.foldl (fun a x => a ||| x.2.2) fNone

end Sys2Proof.Machine
end

