-- ==== Sys2Proof/Machine/Operands.lean ====
section
/-! DEFINITION. The operands of lane instructions: registers, predicates, latches, snapshot slots, lane constants,
neighbours and immediates, and the writing of results (R49 to R53, R56, R62, R63, R77, R125, R147, R234). -/

namespace Sys2Proof.Machine

/-! ### Registers and predicates -/

/-- Register v of lane l. -/
def rdV (s : State) (v l : Nat) : Nat := (smGet 0 s.crew.ln.regs.vregs (32 * v + l)).toNat

/-- n consecutive registers of lane l, the lowest least significant. -/
def rdVs (s : State) (l : Nat) : Nat → Nat → Nat
  | 0, _ => 0
  | n + 1, v => rdV s v l + 2 ^ 32 * rdVs s l n (v + 1)

/-- The H tag of the quad that holds register v in lane l (R234). -/
def hTag (s : State) (v l : Nat) : Bool := smGet false s.crew.ln.regs.htags (32 * (v / 4 * 4 + 3) + l)

/-- Set or clear the H tag of a quad. -/
def setTag (v l : Nat) (b : Bool) (s : State) : State :=
  onRegs (fun r => { r with htags := smSet false r.htags (32 * (v / 4 * 4 + 3) + l) b }) s

/-- The node that a tagged quad names. -/
def tagNode (s : State) (v l : Nat) : Nat := rdV s (v / 4 * 4 + 3) l % 2 ^ 30

/-- Clear a set H tag and release its node (R234). -/
def untag (v l : Nat) (s : State) : State :=
  if hTag s v l then decNode (tagNode s v l) (setTag v l false s) else s

/-- Write one register of one lane without looking at the H tag. -/
def putV (v l x : Nat) (s : State) : State :=
  onRegs (fun r => { r with
    vregs := smSet 0 r.vregs (32 * v + l) (BitVec.ofNat 32 x)
    parity := r.parity.filter (· != 32 * v + l) }) s

/-- Write one register of one lane as an ordinary instruction does. -/
def wrV (v l x : Nat) (s : State) : State := putV v l x (untag v l s)

/-- Write n consecutive registers of lane l. -/
def wrVs (l : Nat) : Nat → Nat → Nat → State → State
  | 0, _, _, s => s
  | n + 1, v, x, s => wrVs l n (v + 1) (x / 2 ^ 32) (wrV v l (x % 2 ^ 32) s)

/-- Lane predicate p of lane l; p0 reads true. -/
def rdP (s : State) (p l : Nat) : Bool := p == 0 || (smGet 0 s.crew.ln.regs.preds p).getLsbD l

/-- Write lane predicate p of lane l. -/
def wrP (p l : Nat) (b : Bool) (s : State) : State :=
  onRegs (fun r => { r with preds := smMod 0 r.preds p (fun m =>
    if b then m ||| (1#32 <<< l) else m &&& ~~~(1#32 <<< l)) }) s

/-! ### Latches (R62, R63) -/

/-- Latch b of lane l, if valid. -/
def latch (s : State) (l b : Nat) : Option W64 := smGet none s.crew.ln.regs.latches (4 * l + b)

/-- A result enters b0 of lane l. -/
def pushLatch (l x : Nat) (s : State) : State :=
  onRegs (fun r =>
    let g := fun (b : Nat) => smGet none r.latches (4 * l + b)
    let m := smSet none (smSet none (smSet none r.latches (4 * l + 3) (g 2)) (4 * l + 2) (g 1)) (4 * l + 1) (g 0)
    { r with latches := smSet none m (4 * l) (some (BitVec.ofNat 64 x)) }) s

/-- The latches of a slice's lanes become invalid. -/
def dropSlice (i : Nat) (s : State) : State :=
  onRegs (fun r => { r with latches := (List.range 16).foldl (fun m b => smDel m (16 * i + b)) r.latches }) s

/-! ### Sources (R49 to R51, R56, R147) -/

/-- Lane constants (R50). -/
def laneConst (s : State) (sel l : Nat) : Nat :=
  let r := s.job.rcd
  let t := s.crew.key.team
  match sel with
  | 0 => l
  | 1 => l / 4
  | 2 => l % 4
  | 3 => s.crew.key.crew
  | 4 => t
  | 5 => t % r.gx
  | 6 => t / r.gx % r.gy
  | 7 => t / (r.gx * r.gy)
  | 8 => 4 * r.slices
  | _ => r.crews

/-- A snapshot slot as the run recorded it. -/
def snapVal (s : State) (k : Nat) : Nat :=
  match curRun s.crew with
  | some r => (smGet 0 r.run.snaps k).toNat
  | none => 0

/-- A source read as n registers by lane l. A latch that is not valid, which only the lane of another gang or an
inactive lane can show, reads as a free value. (DESIGN CHOICE, safe: notes/assumptions/2.md) -/
def srcVal (s : State) (n : Nat) (f : BitVec 12) (l : Nat) : Nat :=
  match srcOf f with
  | .reg v => rdVs s l n v
  | .latch i => ((latch s l i).getD (Config.freeWord s.free)).toNat % 2 ^ (32 * n)
  | .snap k => snapVal s k % 2 ^ (32 * n)
  | .lc sel => laneConst s sel l % 2 ^ 32
  | .nl v => if l = 0 then s.crew.ln.regs.ew.toNat % 2 ^ (32 * n) else rdVs s (l - 1) n v
  | .nr v => if l + 1 = lanesOf s then s.crew.ln.regs.ee.toNat % 2 ^ (32 * n) else rdVs s (l + 1) n v
  | .bad => 0

/-- A source read as a value of a type (R77). -/
def srcTy (s : State) (t : Ty) (f : BitVec 12) (l : Nat) : Nat := srcVal s (tyRegs t) f l % 2 ^ tyWidth t

/-- IMM32 of the immediate form. -/
def imm32 (w : LaneWord) : Nat := w.b.toNat * 2 ^ 20 + w.c.toNat * 2 ^ 8 + w.x.toNat / 64

/-- The immediate as an operand of a type (R56). -/
def immVal (w : LaneWord) (t : Ty) : Nat :=
  match t with
  | .s64 => (sext (imm32 w) 32).toNat
  | .z64 => imm32 w
  | .f64 => (fCvt fmtF32 fmtF64 .rne (imm32 w)).1
  | _ => imm32 w % 2 ^ tyWidth t

/-- The flags of widening the immediate of a binary64 operand: NV for a signalling NaN (R56, R86).
(DEDUCED, unsafe: notes/assumptions/18.md) -/
def immFlags (w : LaneWord) : Flags :=
  if w.imm && w.t == .f64 then (fCvt fmtF32 fmtF64 .rne (imm32 w)).2 else fNone

/-- Op(A, l) at the type of the instruction. -/
def opA (s : State) (w : LaneWord) (l : Nat) : Nat := srcTy s w.t w.a l
/-- Op(B, l). -/
def opB (s : State) (w : LaneWord) (l : Nat) : Nat := if w.imm then immVal w w.t else srcTy s w.t w.b l
/-- Op(C, l). -/
def opC (s : State) (w : LaneWord) (l : Nat) : Nat := srcTy s w.t w.c l

/-- A latch that a source field names. -/
def latchOf (n : Nat) (f : BitVec 12) : Option Nat :=
  if n = 0 then none
  else match srcOf f with
    | .latch i => some i
    | _ => none

/-- The latches an instruction reads, in the order A, B, C. -/
def latchesOf (f : LaneFmt) (w : LaneWord) : List Nat :=
  (if f.apred then [] else (latchOf f.an w.a).toList) ++
  (if w.imm then [] else (if f.bpred then [] else (latchOf f.bn w.b).toList) ++ (latchOf f.cn w.c).toList)

/-- The first latch that is invalid in an active lane (R65). -/
def lostLatch (s : State) (act : List Nat) (ls : List Nat) : Option Nat :=
  ls.find? (fun b => act.any (fun l => (latch s l b).isNone))

/-- Registers that a source field names, for any lane. -/
def srcRegs (n : Nat) (f : BitVec 12) : List Nat :=
  if n = 0 then []
  else match srcOf f with
    | .reg v => (List.range n).map (· + v)
    | .nl v => (List.range n).map (· + v)
    | .nr v => (List.range n).map (· + v)
    | _ => []

/-- Lane registers that an instruction reads or writes. -/
def laneTouches (f : LaneFmt) (w : LaneWord) : List Nat :=
  (List.range f.dn).map (· + w.d.toNat) ++ (if f.apred then [] else srcRegs f.an w.a) ++
  (if w.imm then [] else (if f.bpred then [] else srcRegs f.bn w.b) ++ srcRegs f.cn w.c)

/-- Lane registers that a pair half reads or writes. -/
def halfTouches (h : PairHalf) : List Nat :=
  let r := tyRegs (ty3Of h.ty3.toNat)
  match halfSrcs h.hopc.toNat (ty3Of h.ty3.toNat) with
  | some (n, dpred) => (if dpred || n == 0 then [] else (List.range r).map (· + h.d.toNat)) ++
      (if n = 0 then [] else srcRegs r h.a) ++ (if n < 2 then [] else srcRegs r h.b)
  | none => []

/-! ### Active lanes and results (R53, R62, R125) -/

/-- Lanes of some slices in a run's current masks, in lane order. -/
def maskLanes (r : ARun) (slices : List Nat) : List Nat :=
  (List.range 32).filter (fun l => slices.contains (l / 4) && match nth none (r.slices.map some) (l / 4) with
    | some t => t.mask.testBit (l % 4)
    | none => false)

/-- Lanes as a mask. -/
def lanesMask (l : List Nat) : Nat := l.foldl (fun m i => m ||| 2 ^ i) 0

/-- The active lanes of a gang for an instruction (R53). -/
def activeLanes (s : State) (r : ARun) (g : Gang) (w : LaneWord) : List Nat :=
  (maskLanes r g.members).filter (fun l => rdP s w.pred.toNat l != (w.pn == 1))

/-- Write(l, r): n registers from D on unless NW, and b0 outside the certified range (R62, R125). -/
def writeLane (f : LaneFmt) (w : LaneWord) (l x : Nat) (s : State) : State :=
  let s1 := if f.cert then s else pushLatch l (x % 2 ^ 64) s
  if w.nw = 1 then s1 else wrVs l f.dn w.d.toNat x s1

/-- Write lane results (lane, value, flags) in lane order; an immediate is widened in each of the lanes. -/
def writeLanes (f : LaneFmt) (w : LaneWord) (l : List (Nat × Nat × Flags)) (s : State) : State :=
  addRunFlags (flagsOf l ||| if l.isEmpty then fNone else immFlags w) (l.foldl (fun t x => writeLane f w x.1 x.2.1 t) s)

/-- A list of lane bits as results of a predicate destination. -/
def writePreds (w : LaneWord) (l : List (Nat × Bool × Flags)) (s : State) : State :=
  addRunFlags (l.foldl (fun a x => a ||| x.2.2) (if l.isEmpty then fNone else immFlags w)) (l.foldl (fun t x => wrP w.d.toNat x.1 x.2.1 t) s)

/-- A destination register is a declared live-in of the region the run belongs to (R273).
(DEDUCED, unsafe: notes/assumptions/19.md) -/
def liveInV (s : State) (r : ARun) (d n : Nat) : Bool :=
  r.run.region && match s.crew.region with
    | some g => decide (d < g.lo + g.n) && decide (g.lo < d + n)
    | none => false

end Sys2Proof.Machine
end

