-- ==== Sys2Proof/Machine/Lane.lean ====
section
/-! DEFINITION. Issuing a lane instruction: the gang that issues, its checks, its retirement, parting of gangs,
gatherings at regang and vedge, and what a stop does (R22 to R26, R52, R65, R111, R126, R149, R150, R157, R273). -/

namespace Sys2Proof.Machine

/-! ### Gangs (R22, R23) -/

/-- The lowest slice of a gang. -/
def lowSlice (g : Gang) : Nat := g.members.foldl min 64

/-- Gangs in the order of their lowest slices. (DEDUCED, unsafe: notes/assumptions/17.md) -/
def sortGangs (l : List Gang) : List Gang := sortBy (fun a b => decide (lowSlice a ≤ lowSlice b)) l

/-- The gangs that slices with new addresses form, one per address, ready to issue. -/
def gangsOf : Nat → List (Nat × W64) → List Gang
  | 0, _ => []
  | _, [] => []
  | n + 1, (i, pc) :: r =>
    let same := fun (x : Nat × W64) => x.2 == pc
    ⟨pc, i :: (r.filter same).map (·.1), .ready⟩ :: gangsOf n (r.filter (fun x => !same x))

/-- The head gang has issued and its slices continue at new addresses; slices not listed have stopped. Issue passes
on in rotation, and starts again at the lowest slice when gangs part (R23).
(DEDUCED, unsafe: notes/assumptions/17.md) -/
def moveGang (next : List (Nat × W64)) (r : ARun) : ARun :=
  match r.gangs with
  | [] => r
  | _ :: rest =>
    match gangsOf 9 next with
    | [] => { r with gangs := rest }
    | [g] => { r with gangs := rest ++ [g] }
    | gs => { r with gangs := sortGangs (gs ++ rest) }

/-- Change the head gang. -/
def modHead (f : Gang → Gang) (r : ARun) : ARun :=
  match r.gangs with
  | [] => r
  | g :: rest => { r with gangs := f g :: rest }

/-- Put the head gang last. (DEDUCED, unsafe: notes/assumptions/17.md) -/
def rotate (r : ARun) : ARun :=
  match r.gangs with
  | [] => r
  | g :: rest => { r with gangs := rest ++ [g] }

/-- Change the run in execution. -/
def modRun (f : ARun → ARun) (s : State) : State := setRun ((curRun s.crew).map f) s

/-- Change a slice of a run. -/
def modSlice (i : Nat) (f : SliceSt → SliceSt) (r : ARun) : ARun :=
  { r with slices := r.slices.mapIdx (fun j t => if j = i then f t else t) }

/-- A slice of a run. -/
def sliceAt (r : ARun) (i : Nat) : SliceSt := nth ⟨0, [], false⟩ r.slices i

/-- A gang waits at a regang or vedge for other slices. -/
def gathers (g : Gang) : Bool := g.wait == .regang || g.wait == .vedge

/-! ### The vedge exchange (R148 to R150) -/

/-- The number of teams of the grid in focus. -/
def teamCount (s : State) : Nat := s.job.rcd.gx * s.job.rcd.gy * s.job.rcd.gz

/-- A crew's place in the chain of a scope, and the chain's length. -/
def chainPos (s : State) (k : CrewKey) (grid : Bool) : Nat × Nat :=
  let n := s.job.rcd.crews
  if grid then (k.team * n + k.crew, teamCount s * n) else (k.crew, n)

/-- The crew at a place of a chain. -/
def chainAt (s : State) (k : CrewKey) (grid : Bool) (i : Nat) : CrewKey :=
  let n := s.job.rcd.crews
  if grid then ⟨k.job, i / n, i % n⟩ else ⟨k.job, k.team, i⟩

/-- The partner of a crew on a side (R148, R149); none at an open end. -/
def partner (s : State) (k : CrewKey) (e : EdgeSt) (east : Bool) : Option CrewKey :=
  let (i, n) := chainPos s k e.grid
  if east then
    if i + 1 < n then some (chainAt s k e.grid (i + 1)) else if e.bound = 2 then some (chainAt s k e.grid 0) else none
  else if 0 < i then some (chainAt s k e.grid (i - 1))
  else if e.bound = 2 then some (chainAt s k e.grid (n - 1)) else none

/-- Change the exchange of the crew in focus. -/
def onEdge (f : EdgeSt → EdgeSt) (s : State) : State := onLn (fun l => { l with edge := f l.edge }) s

/-- What an open end, or a side whose partner will never send, receives: zero, or the side's own value under clamp. -/
def edgeEnd (e : EdgeSt) (own : W64) : W64 := if e.bound = 1 then own else 0

/-- The operand of the exchange as a lane shows it, 32 bits zero-extended. -/
def edgeVal (s : State) (e : EdgeSt) (l : Nat) : W64 :=
  BitVec.ofNat 64 (srcVal s (if e.wide then 2 else 1) (BitVec.ofNat 12 e.src) l)

/-- Every live slice has arrived: this exchange's own values go out, once (R149). A slice that is not live gives its
value as it stands. -/
def edgeSend (r : ARun) (s : State) : State :=
  let e := s.crew.ln.edge
  if e.sent then s
  else
    let i := intervalOf s
    let last := lanesOf s - 1
    let ownW := if (sliceAt r 0).live then e.ownW else edgeVal s e 0
    let ownE := if (sliceAt r (last / 4)).live then e.ownE else edgeVal s e last
    let pw := partner s s.crew.key e false
    let pe := partner s s.crew.key e true
    onEdge (fun x => { x with
      sent := true, ownW := ownW, ownE := ownE
      outW := x.outW ++ (pw.map (fun k => ⟨k, ownW, i⟩)).toList
      outE := x.outE ++ (pe.map (fun k => ⟨k, ownE, i⟩)).toList
      stageW := if pw.isNone then some (edgeEnd e ownW, i) else x.stageW
      stageE := if pe.isNone then some (edgeEnd e ownE, i) else x.stageE }) s

/-- Both staging slots hold the exchange, their values sent in intervals up to a bound: the edge registers are
written, the slots freed, and the slices go on as one gang (R149). -/
def edgeComplete (flush : Option Nat) (s : State) : State :=
  let e := s.crew.ln.edge
  match curRun s.crew, e.stageW, e.stageE with
  | some r, some (w, i), some (x, j) =>
    let all := !r.gangs.isEmpty && r.gangs.all (fun g => g.wait == .vedge)
    let upTo := match flush with
      | some k => decide (i ≤ k) && decide (j ≤ k)
      | none => !isDet s
    if e.sent && all && upTo then
      let n := r.gangs.length
      let pc := match r.gangs with
        | g :: _ => g.pc + 12
        | [] => 0
      let members := (List.range 8).filter (fun k => r.gangs.any (fun g => g.members.contains k))
      let s1 := onRegs (fun q => { q with ew := w, ee := x })
        (onEdge (fun q => { q with n := q.n + 1, stageW := none, stageE := none, sent := false }) s)
      let s2 := modRun (fun q => { q with gangs := [⟨pc, members, .ready⟩] }) s1
      raiseClock flush ((List.range n).foldl (fun t _ => retire t) s2)
    else s
  | _, _, _ => s

/-- Take the oldest value that a crew still has to deliver to another on one of its sides. -/
def takeOut (toEast : Bool) (k : CrewKey) (c : Crew) : Crew :=
  let e := c.ln.edge
  { c with ln := { c.ln with edge :=
      if toEast then { e with outE := dropFirst (fun x => x.dest == k) e.outE }
      else { e with outW := dropFirst (fun x => x.dest == k) e.outW } } }

/-- A crew of the job slice with a value on its way to a crew, the oldest it sends there: to the east neighbour when it is
to fill the west slot. -/
def edgeSender (s : State) (k : CrewKey) (fillEast : Bool) : Option (Crew × W64 × Nat) :=
  ((allCrews s).filterMap (fun c =>
    ((if fillEast then c.ln.edge.outW else c.ln.edge.outE).find? (fun x => x.dest == k)).map
      (fun x => (c, x.val, x.interval)))).head?

/-- The interval in which a crew retired its last instruction. -/
def lastInterval (s : State) (c : Crew) : Nat := (c.clock - 1) / flushF s.job

/-- A staging slot of the crew in focus is filled: by the value on its way, or, while the crew waits for a partner that
has completed, as the boundary rule says (R150). Only values of intervals up to a bound count when one is given. -/
def edgeFill (east : Bool) (bound : Option Nat) (s : State) : State :=
  let e := s.crew.ln.edge
  let full := if east then e.stageE.isSome else e.stageW.isSome
  let ok := fun (i : Nat) => match bound with
    | some k => decide (i ≤ k)
    | none => true
  let put := fun (v : W64) (i : Nat) (t : State) =>
    onEdge (fun x => if east then { x with stageE := some (v, i) } else { x with stageW := some (v, i) }) t
  if full then s
  else match edgeSender s s.crew.key east with
    | some (c, v, i) => if ok i then put v i (modCrew c.key (takeOut (!east) s.crew.key) s) else s
    | none =>
      match partner s s.crew.key e east with
      | some p => match findCrew s p with
        | some c =>
          if e.sent && crewOver c && ok (lastInterval s c) then
            put (edgeEnd e (if east then e.ownE else e.ownW)) (max (intervalOf s) (lastInterval s c)) s
          else s
        | none => s
      | none => s

/-! ### Gathering at regang and vedge (R24, R149) -/

/-- Every live slice waits at one regang: they go on as one gang, and each gang's instruction retires. -/
def regangMerge (r : ARun) (pc : W64) (s : State) : State :=
  let members := (List.range 8).filter (fun k => r.gangs.any (fun g => g.members.contains k))
  (List.range r.gangs.length).foldl (fun t _ => retire t)
    (modRun (fun q => { q with gangs := [⟨pc + 12, members, .ready⟩] }) s)

/-- When every live slice waits, the slices go on together, exchange, or trap 0x03 because their addresses differ. -/
def gather (s : State) : State :=
  match curRun s.crew with
  | none => s
  | some r =>
    if r.gangs.isEmpty || !r.gangs.all gathers then s
    else match sortGangs r.gangs with
      | [] => s
      | g :: rest =>
        let other := (rest.filter (fun x => x.pc != g.pc)).flatMap (·.members)
        if other = [] then
          if g.wait = .regang then regangMerge r g.pc s else edgeComplete none (edgeSend r s)
        else
          trapLane 0x03 (BitVec.ofNat 64 (lanesMask other)) g.pc
            (BitVec.ofNat 64 (lanesMask (maskLanes r (r.gangs.flatMap (·.members))))) g.members
            ((List.range r.gangs.length).foldl (fun t _ => useSlot t) s)

/-- After a lane instruction: slices that wait may now be all there are, and a run without slices is complete.
(DEDUCED, unsafe: notes/assumptions/17.md) -/
def laneSettle (s : State) : State :=
  if runStopped s.crew then completeRun s else gather s

/-! ### Issue -/

/-- The run in execution and its head gang. -/
def headGang (s : State) : Option (ARun × Gang) :=
  match curRun s.crew with
  | some r => match r.gangs with
    | g :: _ => some (r, g)
    | [] => none
  | none => none

/-- The head gang's instruction retires and its slices go to new addresses. -/
def laneMove (next : List (Nat × W64)) (s : State) : State := laneSettle (retire (modRun (moveGang next) s))

/-- The head gang's instruction retires and the gang advances. -/
def laneNext (g : Gang) (s : State) : State := laneMove (g.members.map (fun i => (i, g.pc + 12))) s

/-- The head gang waits for a flush, or tries again later, the other gangs going first outside deterministic mode (R23). -/
def stallLane (w : Wait) (s : State) : State :=
  match w with
  | .detSync i => modRun (modHead (fun h => { h with wait := .flush i })) s
  | _ =>
    let s1 := modRun (modHead (fun h => { h with wait := .stall })) s
    if isDet s then s1 else modRun rotate s1

/-- What a stop of a lane instruction, or of its fetch, does beside using its issue slot (R97, R126, R284); source is the
access source of R285. (DESIGN CHOICE, safe: notes/assumptions/2.md) -/
def haltLane (e : Stop) (source : Nat) (g : Gang) (mask : Nat) (s : State) : State :=
  match e with
  | .trap c i => trapLane c i g.pc (BitVec.ofNat 64 mask) g.members s
  | .trapOpen c =>
    let (v, s1) := takeFree s
    trapLane c (v &&& 0xFFFFFFFFFFFFFF) g.pc (BitVec.ofNat 64 mask) g.members s1
  | .park ptr va kind level pa acc => parkFault true (acc == 3) mask source ptr va kind level pa acc s
  | .hold va frame acc => parkHold true mask va frame acc s
  | .wait w => stallLane w s
  | .flushWait w => stallLane w (releaseLines s)
  | .remote l rel =>
    stallLane .remote (onC (fun c => { c with
      ops := c.ops ++ [⟨.fabric, .remote true l none, [], c.region.isSome, false, false, c.sieveOrder⟩] })
      (if rel then releaseLines s else s))
  | .peer i => trapLane 0x17 i g.pc (BitVec.ofNat 64 mask) g.members (dropOps (peerFailed true) s)

/-- What a stop of a lane instruction does. -/
def stopLane (e : Stop) (source : Nat) (g : Gang) (mask : Nat) (s : State) : State := haltLane e source g mask (slotOf e s)

/-- The checks every lane instruction makes, in order: the word and the register budget (R47, R52), latches (R65), and
writes of live-ins (R273). (DEDUCED, unsafe: notes/assumptions/19.md) -/
def laneChecks (f : LaneFmt) (w : LaneWord) (r : ARun) (act : List Nat) (s : State) : Res Unit := do
  need (laneOk f w && decide (laneTop f w ≤ 64 * s.job.rcd.regg)) (.trap 0x01 0)
  match lostLatch s act (latchesOf f w) with
  | some b => .error (.trap 0x04 (BitVec.ofNat 64 b))
  | none => .ok ()
  need (f.dn == 0 || f.dpred || w.nw == 1 || act.isEmpty || !liveInV s r w.d.toNat f.dn) (.trap 0x02 0)

/-- The latches of a gang's slices become invalid (R63). -/
def dropGang (g : Gang) (s : State) : State := g.members.foldl (fun t i => dropSlice i t) s

/-- Issue a lane instruction whose body gives the state it leaves; fin retires it.
(DEDUCED, unsafe: notes/assumptions/19.md) -/
def laneIssue (f : LaneFmt) (w : LaneWord) (source : Nat) (body : List Nat → State → Res State)
    (fin : Gang → State → State) (s : State) : Host.Outcome State Fault Refusal :=
  .next (match headGang s with
    | none => s
    | some (r, g) =>
      let act := activeLanes s r g w
      match (do
          laneChecks f w r act s
          body act (if f.window then dropGang g s else s) : Res State) with
      | .ok t => fin g t
      | .error e => stopLane e source g (lanesMask act) s)

/-- Issue a lane instruction that then advances. -/
def laneRun (f : LaneFmt) (w : LaneWord) (body : List Nat → State → Res State) (s : State) :
    Host.Outcome State Fault Refusal := laneIssue f w 0 body laneNext s

/-- A lane instruction whose result in each active lane is a value with flags. -/
def laneVal (f : LaneFmt) (w : LaneWord) (val : State → Nat → Nat × Flags) (s : State) : Host.Outcome State Fault Refusal :=
  laneRun f w (fun act t => .ok (writeLanes f w (act.map (fun l => (l, val t l))) t)) s

/-- A lane instruction whose result in each active lane is a predicate bit with flags. -/
def laneBit (f : LaneFmt) (w : LaneWord) (val : State → Nat → Bool × Flags) (s : State) : Host.Outcome State Fault Refusal :=
  laneRun f w (fun act t => .ok (writePreds w (act.map (fun l => (l, val t l))) t)) s

end Sys2Proof.Machine
end

