-- ==== Sys2Proof/Machine/LaneArith.lean ====
section
/-! DEFINITION. Lane integer and logic operations, floating arithmetic and special functions (R129 to R132). -/

namespace Sys2Proof.Machine

/-- The saturating modifier MOD[0]. -/
def satBit (w : LaneWord) : Bool := w.md.toNat % 2 == 1

/-- The floating format of the word's type. -/
def wFmt (w : LaneWord) : Fmt := (tyFmt w.t).getD fmtF64

/-- The rounding mode of the word. -/
def wRm (s : State) (w : LaneWord) : Rm := rmField s w.rm.toNat

/-- |a| of R129. -/
def intAbs (t : Ty) (sat : Bool) (a : Nat) : Nat × Flags := intFin t sat (intVal t a).natAbs
/-- −a of R129. -/
def intNeg (t : Ty) (sat : Bool) (a : Nat) : Nat × Flags := intFin t sat (-intVal t a)
/-- a × b + c of R129. -/
def intMad (t : Ty) (sat : Bool) (a b c : Nat) : Nat × Flags := intFin t sat (intVal t a * intVal t b + intVal t c)
/-- A value without flags, cut to the type's width. -/
def laneCut (t : Ty) (v : Nat) : Nat × Flags := (v % 2 ^ tyWidth t, fNone)

/-! ### Integer and logic (R129, R130) -/

/-- vadd. -/
def execVadd (w : LaneWord) (s : State) : Host.Outcome State Fault Refusal :=
  laneVal (fmtVadd w) w (fun t l => intOp2 w.t (satBit w) (· + ·) (opA t w l) (opB t w l)) s

/-- vsub. -/
def execVsub (w : LaneWord) (s : State) : Host.Outcome State Fault Refusal :=
  laneVal (fmtVsub w) w (fun t l => intOp2 w.t (satBit w) (· - ·) (opA t w l) (opB t w l)) s

/-- vmul.lo. -/
def execVmulLo (w : LaneWord) (s : State) : Host.Outcome State Fault Refusal :=
  laneVal (fmtVmulLo w) w (fun t l => intOp2 w.t (satBit w) (· * ·) (opA t w l) (opB t w l)) s

/-- vmul.hi. -/
def execVmulHi (w : LaneWord) (s : State) : Host.Outcome State Fault Refusal :=
  laneVal (fmtVmulHi w) w (fun t l => intMulHi w.t (opA t w l) (opB t w l)) s

/-- vmad. -/
def execVmad (w : LaneWord) (s : State) : Host.Outcome State Fault Refusal :=
  laneVal (fmtVmad w) w (fun t l => intMad w.t (satBit w) (opA t w l) (opB t w l) (opC t w l)) s

/-- vdiv (R78, R79). -/
def execVdiv (w : LaneWord) (s : State) : Host.Outcome State Fault Refusal :=
  laneVal (fmtVdiv w) w (fun t l => intDiv w.t (satBit w) (opA t w l) (opB t w l)) s

/-- vrem (R78, R79). -/
def execVrem (w : LaneWord) (s : State) : Host.Outcome State Fault Refusal :=
  laneVal (fmtVrem w) w (fun t l => intRem w.t (opA t w l) (opB t w l)) s

/-- vmin. -/
def execVmin (w : LaneWord) (s : State) : Host.Outcome State Fault Refusal :=
  laneVal (fmtVmin w) w (fun t l => intOp2 w.t false min (opA t w l) (opB t w l)) s

/-- vmax. -/
def execVmax (w : LaneWord) (s : State) : Host.Outcome State Fault Refusal :=
  laneVal (fmtVmax w) w (fun t l => intOp2 w.t false max (opA t w l) (opB t w l)) s

/-- vabs. -/
def execVabs (w : LaneWord) (s : State) : Host.Outcome State Fault Refusal :=
  laneVal (fmtVabs w) w (fun t l => intAbs w.t (satBit w) (opA t w l)) s

/-- vneg. -/
def execVneg (w : LaneWord) (s : State) : Host.Outcome State Fault Refusal :=
  laneVal (fmtVneg w) w (fun t l => intNeg w.t (satBit w) (opA t w l)) s

/-- vand. -/
def execVand (w : LaneWord) (s : State) : Host.Outcome State Fault Refusal :=
  laneVal (fmtVand w) w (fun t l => bitOp w.t (· &&& ·) (opA t w l) (opB t w l)) s

/-- vor. -/
def execVor (w : LaneWord) (s : State) : Host.Outcome State Fault Refusal :=
  laneVal (fmtVor w) w (fun t l => bitOp w.t (· ||| ·) (opA t w l) (opB t w l)) s

/-- vxor. -/
def execVxor (w : LaneWord) (s : State) : Host.Outcome State Fault Refusal :=
  laneVal (fmtVxor w) w (fun t l => bitOp w.t (· ^^^ ·) (opA t w l) (opB t w l)) s

/-- vandn. -/
def execVandn (w : LaneWord) (s : State) : Host.Outcome State Fault Refusal :=
  laneVal (fmtVandn w) w (fun t l => laneCut w.t (andnN (tyWidth w.t) (opA t w l) (opB t w l))) s

/-- vnot. -/
def execVnot (w : LaneWord) (s : State) : Host.Outcome State Fault Refusal :=
  laneVal (fmtVnot w) w (fun t l => laneCut w.t (2 ^ tyWidth w.t - 1 - (opA t w l))) s

/-- vshl. -/
def execVshl (w : LaneWord) (s : State) : Host.Outcome State Fault Refusal :=
  laneVal (fmtVshl w) w (fun t l => intShl w.t (opA t w l) (opB t w l)) s

/-- vshr. -/
def execVshr (w : LaneWord) (s : State) : Host.Outcome State Fault Refusal :=
  laneVal (fmtVshr w) w (fun t l => intShr w.t (opA t w l) (opB t w l)) s

/-- vrol. -/
def execVrol (w : LaneWord) (s : State) : Host.Outcome State Fault Refusal :=
  laneVal (fmtVrol w) w (fun t l => intRol w.t (opA t w l) (opB t w l)) s

/-- vpopc. -/
def execVpopc (w : LaneWord) (s : State) : Host.Outcome State Fault Refusal :=
  laneVal (fmtVpopc w) w (fun t l => laneCut w.t (popN (tyWidth w.t) (opA t w l))) s

/-- vclz. -/
def execVclz (w : LaneWord) (s : State) : Host.Outcome State Fault Refusal :=
  laneVal (fmtVclz w) w (fun t l => laneCut w.t (clzN (tyWidth w.t) (opA t w l))) s

/-- vctz. -/
def execVctz (w : LaneWord) (s : State) : Host.Outcome State Fault Refusal :=
  laneVal (fmtVctz w) w (fun t l => laneCut w.t (ctzN (tyWidth w.t) (opA t w l))) s

/-- vmov, bit for bit; the immediate form takes its operand from the B position.
(DEDUCED, safe: notes/assumptions/18.md) -/
def execVmov (w : LaneWord) (s : State) : Host.Outcome State Fault Refusal :=
  laneVal (fmtVmov w) w (fun t l => laneCut w.t (if w.imm then (opB t w l) else (opA t w l))) s

/-! ### Floating arithmetic (R131, R132) -/

/-- vadd of a floating type. -/
def execVaddF (w : LaneWord) (s : State) : Host.Outcome State Fault Refusal :=
  laneVal (fmtVaddF w) w (fun t l => fAdd (wFmt w) (wRm t w) (opA t w l) (opB t w l)) s

/-- vsub of a floating type. -/
def execVsubF (w : LaneWord) (s : State) : Host.Outcome State Fault Refusal :=
  laneVal (fmtVsubF w) w (fun t l => fSub (wFmt w) (wRm t w) (opA t w l) (opB t w l)) s

/-- vmul. -/
def execVmul (w : LaneWord) (s : State) : Host.Outcome State Fault Refusal :=
  laneVal (fmtVmul w) w (fun t l => fMul (wFmt w) (wRm t w) (opA t w l) (opB t w l)) s

/-- vdiv of a floating type. -/
def execVdivF (w : LaneWord) (s : State) : Host.Outcome State Fault Refusal :=
  laneVal (fmtVdivF w) w (fun t l => fDiv (wFmt w) (wRm t w) (opA t w l) (opB t w l)) s

/-- vfma. -/
def execVfma (w : LaneWord) (s : State) : Host.Outcome State Fault Refusal :=
  laneVal (fmtVfma w) w (fun t l => fFma (wFmt w) (wRm t w) (opA t w l) (opB t w l) (opC t w l)) s

/-- vfnma. -/
def execVfnma (w : LaneWord) (s : State) : Host.Outcome State Fault Refusal :=
  laneVal (fmtVfnma w) w (fun t l => fFma (wFmt w) (wRm t w) (fFlip (wFmt w) (opA t w l)) (opB t w l) (opC t w l)) s

/-- vfms. -/
def execVfms (w : LaneWord) (s : State) : Host.Outcome State Fault Refusal :=
  laneVal (fmtVfms w) w (fun t l => fFma (wFmt w) (wRm t w) (opA t w l) (opB t w l) (fFlip (wFmt w) (opC t w l))) s

/-- vmin of a floating type. -/
def execVminF (w : LaneWord) (s : State) : Host.Outcome State Fault Refusal :=
  laneVal (fmtVminF w) w (fun t l => fMinMax (wFmt w) false (opA t w l) (opB t w l)) s

/-- vmax of a floating type. -/
def execVmaxF (w : LaneWord) (s : State) : Host.Outcome State Fault Refusal :=
  laneVal (fmtVmaxF w) w (fun t l => fMinMax (wFmt w) true (opA t w l) (opB t w l)) s

/-- vabs of a floating type. -/
def execVabsF (w : LaneWord) (s : State) : Host.Outcome State Fault Refusal :=
  laneVal (fmtVabsF w) w (fun t l => laneCut w.t (fClearSign (wFmt w) (opA t w l))) s

/-- vneg of a floating type. -/
def execVnegF (w : LaneWord) (s : State) : Host.Outcome State Fault Refusal :=
  laneVal (fmtVnegF w) w (fun t l => laneCut w.t (fFlip (wFmt w) (opA t w l))) s

/-- vsqrt. -/
def execVsqrt (w : LaneWord) (s : State) : Host.Outcome State Fault Refusal :=
  laneVal (fmtVsqrt w) w (fun t l => fSqrt (wFmt w) (wRm t w) (opA t w l)) s

/-- vround. -/
def execVround (w : LaneWord) (s : State) : Host.Outcome State Fault Refusal :=
  laneVal (fmtVround w) w (fun t l => fRound (wFmt w) (wRm t w) (opA t w l)) s

/-- vrcp. -/
def execVrcp (w : LaneWord) (s : State) : Host.Outcome State Fault Refusal :=
  laneVal (fmtVrcp w) w (fun t l => fRcp (wFmt w) (wRm t w) (opA t w l)) s

/-- vrsqrt. -/
def execVrsqrt (w : LaneWord) (s : State) : Host.Outcome State Fault Refusal :=
  laneVal (fmtVrsqrt w) w (fun t l => fRsqrt (wFmt w) (wRm t w) (opA t w l)) s

/-- vexp2. -/
def execVexp2 (w : LaneWord) (s : State) : Host.Outcome State Fault Refusal :=
  laneVal (fmtVexp2 w) w (fun t l => fExp2 (wFmt w) (wRm t w) (opA t w l)) s

/-- vlog2. -/
def execVlog2 (w : LaneWord) (s : State) : Host.Outcome State Fault Refusal :=
  laneVal (fmtVlog2 w) w (fun t l => fLog2 (wFmt w) (wRm t w) (opA t w l)) s

/-- vsin. -/
def execVsin (w : LaneWord) (s : State) : Host.Outcome State Fault Refusal :=
  laneVal (fmtVsin w) w (fun t l => fSin (wFmt w) (wRm t w) (opA t w l)) s

/-- vcos. -/
def execVcos (w : LaneWord) (s : State) : Host.Outcome State Fault Refusal :=
  laneVal (fmtVcos w) w (fun t l => fCos (wFmt w) (wRm t w) (opA t w l)) s

/-- vtanh. -/
def execVtanh (w : LaneWord) (s : State) : Host.Outcome State Fault Refusal :=
  laneVal (fmtVtanh w) w (fun t l => fTanh (wFmt w) (wRm t w) (opA t w l)) s

end Sys2Proof.Machine
end

