-- ==== Sys2Proof/Machine/LaneMove.lean ====
section
/-! DEFINITION. Lane conversion, packing, Q4X blocks, vrand, vtab, compares, selection and predicates
(R133 to R146). -/

namespace Sys2Proof.Machine

/-! ### Conversion and packing (R133, R134) -/

/-- Convert of a word: its rounding and saturation. -/
def wConv (s : State) (w : LaneWord) (v : Nat) : Nat × Flags := convert (wRm s w) (satBit w) (xTs w) w.t v

/-- vcvt. -/
def execVcvt (w : LaneWord) (s : State) : Host.Outcome State Fault Refusal :=
  laneVal (fmtVcvt w) w (fun t l => wConv t w (srcTy t (xTs w) w.a l)) s

/-- Replace element e of n bits. -/
def putElem (n e v x : Nat) : Nat := x - x / 2 ^ (n * e) % 2 ^ n * 2 ^ (n * e) + v * 2 ^ (n * e)

/-- vpack: two 16-bit elements, or two of four 8-bit elements. -/
def packVal (t : State) (w : LaneWord) (l : Nat) : Nat × Flags :=
  let ts := xTs w
  let a := wConv t w (srcTy t ts w.a l)
  let b := wConv t w (srcTy t ts w.b l)
  if tyWidth w.t = 16 then (a.1 + 2 ^ 16 * b.1, a.2 ||| b.2)
  else
    let h := laneX w / 16 % 2
    (putElem 8 (2 * h + 1) b.1 (putElem 8 (2 * h) a.1 (rdV t w.d.toNat l)), a.2 ||| b.2)

/-- vpack. -/
def execVpack (w : LaneWord) (s : State) : Host.Outcome State Fault Refusal :=
  laneVal (fmtVpack w) w (fun t l => packVal t w l) s

/-- vunpk. -/
def execVunpk (w : LaneWord) (s : State) : Host.Outcome State Fault Refusal :=
  laneVal (fmtVunpk w) w (fun t l =>
    let n := tyWidth (xTs w)
    wConv t w (srcVal t 1 w.a l / 2 ^ (n * (laneX w / 16 % 4)) % 2 ^ n)) s

/-! ### Q4X blocks (R135 to R137) -/

/-- The block in a quad of a lane. -/
def blockAt (s : State) (v l : Nat) : Nat := rdVs s l 3 v % 2 ^ 80

/-- vqdec; a third escape traps 0x14 with FMTE, before anything is written. -/
def execVqdec (w : LaneWord) (s : State) : Host.Outcome State Fault Refusal :=
  laneRun (fmtVqdec w) w (fun act t => do
    let dec := act.map (fun l => (l, q4Decode (blockAt t w.a.toNat l)))
    need (!runFmte t || !dec.any (fun x => x.2.2)) (.trap 0x14 9)
    .ok (writeLanes (fmtVqdec w) w (dec.map (fun x =>
      let r := roundTo (wFmt w) (wRm t w) (nth exZero x.2.1 (laneX w % 16))
      (x.1, r.1, r.2 ||| flagIf x.2.2 fFMT))) t)) s

/-- The block of one group of 16 lanes. -/
def groupBlock (s : State) (w : LaneWord) (act : List Nat) (g : Nat) : Nat × Flags :=
  let xs := (List.range 16).map (fun i => if act.contains (16 * g + i) then srcTy s .f32 w.a (16 * g + i) else 0)
  let m := ((act.filter (fun l => l / 16 == g)).head?).getD 0
  q4Encode (wRm s w) xs (srcVal s 1 w.b m % 256)

/-- vqenc. -/
def execVqenc (w : LaneWord) (s : State) : Host.Outcome State Fault Refusal :=
  laneRun (fmtVqenc w) w (fun act t =>
    let b0 := groupBlock t w act 0
    let b1 := groupBlock t w act 1
    .ok (writeLanes (fmtVqenc w) w (act.map (fun l => (l, if l < 16 then b0 else b1))) t)) s

/-! ### Random numbers (R96, R138) -/

/-- vrand: the value, then the counter advances. -/
def execVrand (w : LaneWord) (s : State) : Host.Outcome State Fault Refusal :=
  laneRun (fmtVrand w) w (fun act t =>
    let seed := match curRun t.crew with
      | some r => r.run.rseed
      | none => t.crew.sc.rseed
    let key := fun (l : Nat) => randKey seed t.crew.key.team t.crew.key.crew l
    let ctr := fun (l : Nat) => (smGet 0 t.crew.ln.regs.vrand l).toNat
    let u := writeLanes (fmtVrand w) w (act.map (fun l => (l, randValue w.t (mix (ctr l) (key l)), fNone))) t
    .ok (onRegs (fun r => { r with vrand := act.foldl (fun m l => smMod 0 m l (· + 1)) r.vrand }) u)) s

/-! ### Activation tables (R141) -/

/-- The floor and the rest of an exact value at or above zero. -/
def exFloor (m : Nat) (e : Int) : Nat × Ex :=
  if 0 ≤ e then (m <<< e.toNat, exZero)
  else
    let k := (-e).toNat
    (m >>> k, .fin false (m % 2 ^ k) e)

/-- A table's knot as an exact value. -/
def knot (b : TabRec) (j : Nat) : Ex := exOf fmtF32 (nth 0 b.knots j)

/-- The lookup of a finite or infinite x in a valid bank. The zero difference of equal knots is +0.
(DESIGN CHOICE, unsafe: notes/assumptions/52.md) -/
def tabLook (rm : Rm) (b : TabRec) (x : Ex) : Nat × Flags :=
  match exScale b.shift (exAdd .rne x (exNeg (exOf fmtF32 b.lo))).1 with
  | .nan => (fmtNan fmtF32, fNone)
  | .inf neg => (nth 0 b.knots (if neg then 0 else 256), fNone)
  | .fin neg m e =>
    if neg || m == 0 then (nth 0 b.knots 0, fNone)
    else
      let (i, f) := exFloor m e
      if 256 ≤ i then (nth 0 b.knots 256, fNone)
      else
        let slope := (exAdd .rne (knot b (i + 1)) (exNeg (knot b i))).1
        roundTo fmtF32 rm (exAdd rm (knot b i) (exMul f slope).1).1

/-- vtab of one lane. -/
def tabVal (t : State) (w : LaneWord) (l : Nat) : Nat × Flags :=
  let x := opA t w l
  match (if laneX w % 2 = 0 then t.team.tab0 else t.team.tab1) with
  | none => (fmtNan fmtF32, fNV)
  | some b => if isNanC fmtF32 x then (fmtNan fmtF32, snanFlags fmtF32 [x]) else tabLook (wRm t w) b (exOf fmtF32 x)

/-- vtab. -/
def execVtab (w : LaneWord) (s : State) : Host.Outcome State Fault Refusal :=
  laneVal (fmtVtab w) w (fun t l => tabVal t w l) s

/-! ### Compares, selection and predicates (R143 to R146) -/

/-- The test of a compare on two values of a type. -/
def cmpVal (t : Ty) (cond a b : Nat) : Bool × Flags :=
  match tyFmt t with
  | some f => fCmp f cond a b
  | none => (intCmp t cond a b, fNone)

/-- vcmp. -/
def execVcmp (cond : BitVec 3) (w : LaneWord) (s : State) : Host.Outcome State Fault Refusal :=
  laneBit (fmtVcmp cond w) w (fun t l => cmpVal w.t cond.toNat (opA t w l) (opB t w l)) s

/-- vsel. -/
def execVsel (w : LaneWord) (s : State) : Host.Outcome State Fault Refusal :=
  laneVal (fmtVsel w) w (fun t l =>
    (if rdP t (laneX w % 64) l != (laneX w / 64 % 2 == 1) then opA t w l else opB t w l, fNone)) s

/-- The predicate that a field names, in a lane. -/
def predOf (s : State) (f : BitVec 12) (l : Nat) : Bool := rdP s (f.toNat % 64) l

/-- vpand. -/
def execVpand (w : LaneWord) (s : State) : Host.Outcome State Fault Refusal :=
  laneBit (fmtVpand w) w (fun t l => (predOf t w.a l && predOf t w.b l, fNone)) s
/-- vpor. -/
def execVpor (w : LaneWord) (s : State) : Host.Outcome State Fault Refusal :=
  laneBit (fmtVpor w) w (fun t l => (predOf t w.a l || predOf t w.b l, fNone)) s
/-- vpxor. -/
def execVpxor (w : LaneWord) (s : State) : Host.Outcome State Fault Refusal :=
  laneBit (fmtVpxor w) w (fun t l => (predOf t w.a l != predOf t w.b l, fNone)) s
/-- vpandn. -/
def execVpandn (w : LaneWord) (s : State) : Host.Outcome State Fault Refusal :=
  laneBit (fmtVpandn w) w (fun t l => (predOf t w.a l && !predOf t w.b l, fNone)) s
/-- vpnot. -/
def execVpnot (w : LaneWord) (s : State) : Host.Outcome State Fault Refusal :=
  laneBit (fmtVpnot w) w (fun t l => (!predOf t w.a l, fNone)) s
/-- vpmov. -/
def execVpmov (w : LaneWord) (s : State) : Host.Outcome State Fault Refusal :=
  laneBit (fmtVpmov w) w (fun t l => (predOf t w.a l, fNone)) s
/-- vpset. -/
def execVpset (w : LaneWord) (s : State) : Host.Outcome State Fault Refusal :=
  laneBit (fmtVpset w) w (fun _ _ => (true, fNone)) s
/-- vpclr. -/
def execVpclr (w : LaneWord) (s : State) : Host.Outcome State Fault Refusal :=
  laneBit (fmtVpclr w) w (fun _ _ => (false, fNone)) s
/-- vpnz. -/
def execVpnz (w : LaneWord) (s : State) : Host.Outcome State Fault Refusal :=
  laneBit (fmtVpnz w) w (fun t l => (opA t w l != 0, fNone)) s
/-- vpget. -/
def execVpget (w : LaneWord) (s : State) : Host.Outcome State Fault Refusal :=
  laneVal (fmtVpget w) w (fun t l => (if predOf t w.a l then 1 else 0, fNone)) s
/-- vballot. -/
def execVballot (w : LaneWord) (s : State) : Host.Outcome State Fault Refusal :=
  laneRun (fmtVballot w) w (fun act t =>
    let m := lanesMask (act.filter (fun l => predOf t w.a l))
    .ok (writeLanes (fmtVballot w) w (act.map (fun l => (l, m, fNone))) t)) s

end Sys2Proof.Machine
end

