-- ==== Sys2Proof/Machine/LaneCross.lean ====
section
/-! DEFINITION. Operations across lanes: vedge, lane exchanges, scans, reductions and vxs; lane control
(R24, R26, R147 to R160). -/

namespace Sys2Proof.Machine

/-! ### vedge (R149) -/

/-- A gang arrives at a vedge: what the instruction names is noted, with the values of end lanes in its slices. -/
def edgeArrive (w : LaneWord) (g : Gang) (vals : W64 × W64) (s : State) : State :=
  let e := s.crew.ln.edge
  if e.sent then s
  else onEdge (fun x => { x with
    bound := w.md.toNat % 4
    grid := w.md.toNat / 4 % 2 == 1
    src := w.a.toNat
    wide := tyWidth w.t == 64
    ownW := if g.members.contains 0 then vals.1 else x.ownW
    ownE := if g.members.contains ((lanesOf s - 1) / 4) then vals.2 else x.ownE }) s

/-- vedge: the gang waits; when every live slice waits, the crew exchanges. -/
def execVedge (w : LaneWord) (s : State) : Host.Outcome State Fault Refusal :=
  laneIssue (fmtVedge w) w 0
    (fun _ t => match headGang s with
      | some (_, g) =>
        .ok (edgeArrive w g (BitVec.ofNat 64 (opA s w 0), BitVec.ofNat 64 (opA s w (lanesOf s - 1))) t)
      | none => .ok t)
    (fun _ t => gather (modRun (fun r => rotate (modHead (fun h => { h with wait := .vedge }) r)) t)) s

/-! ### Exchanges, scans, reductions (R151 to R154) -/

/-- A lane exchange with partner m of lane l, which may lie outside the crew. -/
def exchange (f : LaneFmt) (w : LaneWord) (m : State → Nat → Int) (s : State) : Host.Outcome State Fault Refusal :=
  laneRun f w (fun act t =>
    let val := fun (l : Nat) =>
      let p := m t l
      if 0 ≤ p ∧ p < lanesOf t then opA t w p.toNat else if satBit w then 0 else opA t w l
    let u := writeLanes f w (act.map (fun l => (l, val l, fNone))) t
    .ok (if (latchOf f.an w.a).isSome then { u with free := u.free + 1 } else u)) s

/-- vlane.from. -/
def execVlaneFrom (w : LaneWord) (s : State) : Host.Outcome State Fault Refusal :=
  exchange (fmtVlaneFrom w) w (fun t l => (srcVal t 1 w.b l : Int)) s
/-- vlane.swap. -/
def execVlaneSwap (w : LaneWord) (s : State) : Host.Outcome State Fault Refusal :=
  exchange (fmtVlaneSwap w) w (fun _ l => ((l ^^^ (laneX w % 32) : Nat) : Int)) s
/-- vlane.lag. -/
def execVlaneLag (w : LaneWord) (s : State) : Host.Outcome State Fault Refusal :=
  exchange (fmtVlaneLag w) w (fun _ l => (l : Int) - (laneX w % 32 : Nat)) s
/-- vlane.lead. -/
def execVlaneLead (w : LaneWord) (s : State) : Host.Outcome State Fault Refusal :=
  exchange (fmtVlaneLead w) w (fun _ l => (l : Int) + (laneX w % 32 : Nat)) s

/-- The scan over the lanes in order: results so far and the accumulator (R152). -/
def scanFrom (s : State) (w : LaneWord) (act : List Nat) : List Nat → Nat → List (Nat × Nat × Flags)
  | [], _ => []
  | l :: r, acc =>
    let op := laneX w % 8
    let seg := laneX w / 16 % 2 == 1 && rdP s (laneX w / 32 % 64) l
    let a := if seg then identityOf w.t op else acc
    if act.contains l then
      let n := combine w.t (wRm s w) (satBit w) op a (opA s w l)
      (l, if laneX w / 8 % 2 = 1 then a else n.1, n.2) :: scanFrom s w act r n.1
    else scanFrom s w act r a

/-- vscan. -/
def execVscan (w : LaneWord) (s : State) : Host.Outcome State Fault Refusal :=
  laneRun (fmtVscan w) w (fun act t =>
    let start := if laneX w / 2048 % 2 = 1 then t.crew.ln.regs.ew.toNat % 2 ^ tyWidth w.t
      else identityOf w.t (laneX w % 8)
    .ok (writeLanes (fmtVscan w) w (scanFrom t w act (List.range 32) start) t)) s

/-- vred. -/
def execVred (w : LaneWord) (s : State) : Host.Outcome State Fault Refusal :=
  laneRun (fmtVred w) w (fun act t =>
    let r := crewReduce w.t (wRm t w) (laneX w % 8)
      ((List.range 32).map (fun l => if act.contains l then some (opA t w l) else none))
    .ok (writeLanes (fmtVred w) w (act.map (fun l => (l, r))) t)) s

/-- vxs: the chosen lane's operand goes to a scalar register; a live-in traps 0x02 (R273). -/
def execVxs (w : LaneWord) (s : State) : Host.Outcome State Fault Refusal :=
  laneRun (fmtVxs w) w (fun act t =>
    match (if satBit w then act.getLast? else act.head?) with
    | none => .ok t
    | some l => do
      let inRun := match curRun t.crew with
        | some r => r.run.region
        | none => false
      need (!inRun || !liveIn t w.d.toNat) (.trap 0x02 0)
      .ok (wrS w.d.toNat (if tySigned w.t then sext (opA t w l) (tyWidth w.t) else BitVec.ofNat 64 (opA t w l)) t)) s

/-! ### Lane control (R156 to R160) -/

/-- A signed count of lane instructions from an address. -/
def laneOff (pc : W64) (n : Nat) : W64 := pc + 12 * sext n 16

/-- What a branch does to one slice: its act and taken lanes as four-bit masks. -/
def braSlice (pc target j : W64) (act tk : Nat) (t : SliceSt) : SliceSt × W64 :=
  if tk = act then (t, target)
  else if tk = 0 then (t, pc + 12)
  else
    let rest := act &&& (15 - tk)
    let stack := match t.stack with
      | e :: r =>
        if e.join = j ∧ e.fall = pc + 12 ∧ e.phase = false then { e with rest := e.rest ||| rest } :: r
        else ⟨j, pc + 12, rest, t.mask, false⟩ :: e :: r
      | [] => [⟨j, pc + 12, rest, t.mask, false⟩]
    ({ t with mask := tk, stack := stack }, target)

/-- A branch pushes a new entry in this slice. -/
def braPushes (pc j : W64) (act tk : Nat) (t : SliceSt) : Bool :=
  tk != act && tk != 0 && match t.stack with
    | e :: _ => !(e.join == j && e.fall == pc + 12 && !e.phase)
    | [] => true

/-- Four bits of a lane mask for a slice. -/
def sliceBits (m i : Nat) : Nat := m / 2 ^ (4 * i) % 16

/-- bra (R156). -/
def execLaneBra (w : LaneWord) (s : State) : Host.Outcome State Fault Refusal :=
  .next (match headGang s with
    | none => s
    | some (r, g) =>
      let lanes := maskLanes r g.members
      let cond := fun (l : Nat) => rdP s (w.a.toNat % 64) l != (w.a.toNat / 64 % 2 == 1)
      let tk := lanesMask (lanes.filter cond)
      let target := laneOff g.pc (imm32 w / 2 ^ 16)
      let j := laneOff g.pc (imm32 w % 2 ^ 16)
      let act := fun (i : Nat) => (sliceAt r i).mask
      let full := g.members.find? (fun i =>
        braPushes g.pc j (act i) (sliceBits tk i) (sliceAt r i) && decide (16 ≤ (sliceAt r i).stack.length))
      match (do
          laneChecks (fmtLaneBra w) w r lanes s
          need (w.u == 0 || tk == 0 || tk == lanesMask lanes) (.trap 0x03 (BitVec.ofNat 64 tk))
          match full with
          | some i => .error (.trap 0x05 (BitVec.ofNat 64 i))
          | none => .ok () : Res Unit) with
      | .error e => stopLane e 0 g (lanesMask lanes) s
      | .ok _ =>
        let go := fun (i : Nat) => braSlice g.pc target j (act i) (sliceBits tk i) (sliceAt r i)
        let s1 := modRun (fun q => g.members.foldl (fun x i => modSlice i (fun _ => (go i).1) x) q) s
        laneMove (g.members.map (fun i => (i, (go i).2))) s1)

/-- join in one slice at address J (R157). -/
def joinStack (j : W64) : List MaskEntry → Nat → Nat × List MaskEntry × W64
  | [], m => (m, [], j + 12)
  | e :: r, m =>
    if e.join = j then
      if e.phase = false then (e.rest, { e with phase := true } :: r, e.fall)
      else joinStack j r e.restore
    else (m, e :: r, j + 12)

/-- join. -/
def execJoin (w : LaneWord) (s : State) : Host.Outcome State Fault Refusal :=
  laneIssue (fmtJoin w) w 0 (fun _ t => .ok t) (fun g t =>
    match curRun t.crew with
    | none => t
    | some r =>
      let go := fun (i : Nat) => joinStack g.pc (sliceAt r i).stack (sliceAt r i).mask
      let t1 := modRun (fun q => g.members.foldl (fun x i =>
        modSlice i (fun y => { y with mask := (go i).1, stack := (go i).2.1 }) x) q) t
      laneMove (g.members.map (fun i => (i, (go i).2.2))) t1) s

/-- regang (R24, R158). -/
def execRegang (w : LaneWord) (s : State) : Host.Outcome State Fault Refusal :=
  laneIssue (fmtRegang w) w 0 (fun _ t => .ok t)
    (fun _ t => gather (modRun (fun r => rotate (modHead (fun h => { h with wait := .regang }) r)) t)) s

/-- The gang's slices stop being live and their stacks are emptied (R159).
(DEDUCED, unsafe: notes/assumptions/17.md) -/
def stopSlices (g : Gang) (s : State) : State :=
  laneMove [] (modRun (fun q => g.members.foldl (fun x i =>
    modSlice i (fun y => { y with live := false, stack := [] }) x) q) s)

/-- lstop. -/
def execLstop (w : LaneWord) (s : State) : Host.Outcome State Fault Refusal :=
  laneIssue (fmtLstop w) w 0 (fun _ t => .ok t) stopSlices s

/-- lyield: lstop that also offers the crew when the run completes. -/
def execLyield (w : LaneWord) (s : State) : Host.Outcome State Fault Refusal :=
  laneIssue (fmtLyield w) w 0 (fun _ t => .ok (modRun (fun q => { q with yielded := true }) t)) stopSlices s

/-- What ltrap waits for before it retires while returning values are out: a flush for those in the Sieve (R97, R318). -/
def returnsWait (c : Crew) : Wait :=
  match (c.sieve.filter sieveAmo).map (·.flush) with
  | [] => .other
  | k :: r => .detSync (r.foldl max k)

/-- ltrap (R160): once returning values are in, the instruction retires, then the crew traps with the following address. -/
def execLtrap (w : LaneWord) (s : State) : Host.Outcome State Fault Refusal :=
  .next (match headGang s with
    | none => s
    | some (r, g) =>
      let act := activeLanes s r g w
      match laneChecks (fmtLtrap w) w r act s with
      | .error e => stopLane e 0 g (lanesMask act) s
      | .ok _ =>
        if act = [] then laneNext g s
        else
          let s1 := settleLoads s
          if returnsOut s1.crew then stopLane (.wait (returnsWait s1.crew)) 0 g (lanesMask act) s1
          else if firstTrap s1.crew = none then
            trapLane (laneX w % 256) 0 (g.pc + 12) (BitVec.ofNat 64 (lanesMask act)) g.members (laneNext g s1)
          else takeDeferred s1)

end Sys2Proof.Machine
end

