-- ==== Sys2Proof/Machine/LaneMem.lean ====
section
/-! DEFINITION. Lane memory instructions: loads, stores, gathers, scatters, scatter-adds, atomics, prefetches and
fences (R185, R188 to R198, R257, R316). -/

namespace Sys2Proof.Machine

/-! ### Addresses (R190) -/

/-- Sext(X[11:0], 12). -/
def memOff (w : LaneWord) : Int := sVal 12 (laneX w % 4096)

/-- The address of a lane for elements of esize bytes, with an index when MOD[0] is set. -/
def laneAddr (s : State) (w : LaneWord) (esize l : Nat) : W64 :=
  let base := BitVec.ofNat 64 (srcVal s 2 w.a l)
  let idx : Int := if w.md.toNat % 2 = 1 then sVal 32 (srcVal s 1 w.b l) else 0
  base + BitVec.ofInt 64 (idx * esize + memOff w)

/-- Bytes of one lane's access: the type, or 4 bytes for each register of CNT. -/
def memSize (w : LaneWord) : Nat := tyWidth w.t / 8 * laneCnt w

/-- One lane's checked and translated access. -/
structure LaneAcc where
  lane : Nat
  ptr : W64
  place : Place
  deriving DecidableEq, Repr

/-- Check and translate every lane's access in lane order, before any is performed (R189). -/
def lanesAt (s : State) (n kind : Nat) (addr : Nat → W64) (act : List Nat) : Res (List LaneAcc) :=
  act.mapM (fun l => do
    let p ← locate s l (addr l) n kind
    .ok ⟨l, addr l, p⟩)

/-- The core's translation cache, or that of its gather and scatter engine, holds the translations used (R280). -/
def noteAll (gather : Bool) (l : List LaneAcc) (s : State) : State :=
  l.foldl (fun t a => noteAt (if gather then .gather else .core) a.place t) s

/-- Pages of accesses. -/
def pagesOf (l : List LaneAcc) : List Nat := (l.map (·.place.page)).eraseDups

/-- Whether an access goes to a peer. -/
def isPeer (a : LaneAcc) : Bool :=
  match a.place.loc with
  | .remote _ _ => true
  | _ => false

/-- The lane access of this description, in flight or answered. -/
def isRemoteL (l : List RemAcc) (o : Op) : Bool :=
  match o.kind with
  | .remote true m _ => m == l
  | _ => false

/-- Accesses through aperture 0x3 are sent once, as a release if rel is set; the instruction goes on with their replies, in
order (R188). (DESIGN CHOICE, unsafe: notes/assumptions/56.md) -/
def withPeers (rel : Bool) (l : List RemAcc) (go : List Byte → State → Res State) (s : State) : Res State :=
  if l = [] then go [] s
  else match findOp s (isRemoteL l) with
    | some o => match o.kind with
      | .remote _ _ (some (.data b)) => go b (opEnd (isRemoteL l) s)
      | .remote _ _ (some (.failed i)) => .error (.peer i)
      | _ => .error (.wait .other)
    | none => do
      need (!opFull s .fabric) (.wait .other)
      .error (.remote l rel)

/-! ### Loads and gathers (R194) -/

/-- Read every lane's value, a peer's from its replies: (lane, address, value, uncorrectable), and the state. -/
def readLanes (n : Nat) (ro : Bool) : List LaneAcc → List Byte → State → List (Nat × W64 × Nat × Bool) × State
  | [], _, s => ([], s)
  | a :: r, rep, s =>
    if isPeer a then
      let (l, t) := readLanes n ro r (rep.drop n) s
      ((a.lane, a.ptr, bytesToNat (rep.take n), false) :: l, t)
    else
      let (b, bad, s1) := rdLoc a.place.loc n ro s
      let (l, t) := readLanes n ro r rep s1
      ((a.lane, a.ptr, bytesToNat b, bad) :: l, t)

/-- The registers that lane values are to be written to. -/
def regWrites (f : LaneFmt) (w : LaneWord) (vals : List (Nat × Nat)) : List (Nat × W32) :=
  if w.nw = 1 then []
  else vals.flatMap (fun x => (List.range f.dn).map (fun j =>
    (32 * (w.d.toNat + j) + x.1, BitVec.ofNat 32 (x.2 / 2 ^ (32 * j)))))

/-- A load or gather: checked and read at once; the values enter b0, and the registers when they return.
With lanes at a peer it is counted on fabric first and then on its own class. (DESIGN CHOICE, unsafe: notes/assumptions/7.md,
DESIGN CHOICE, unsafe: notes/assumptions/56.md) -/
def loadBody (f : LaneFmt) (w : LaneWord) (cls : OpClass) (ro : Bool) (act : List Nat) (s : State) : Res State := do
  if act = [] then .ok s
  else
    let n := memSize w
    let accs ← lanesAt s n 0 (laneAddr s w n) act
    need (!opFull s cls) (.wait .other)
    withPeers false ((accs.filter isPeer).map (fun a => ⟨a.ptr, .read n, a.lane⟩)) (fun rep t => do
      let (vals, t1) := readLanes n ro accs rep (noteAll (cls == .gather) accs t)
      match vals.find? (fun x => x.2.2.2) with
      | some x => .error (.trap 0x15 (BitVec.ofNat 64 (vaOf s x.1 x.2.1)))
      | none => .ok ()
      let res := vals.map (fun x => (x.1, x.2.2.1))
      let t2 := res.foldl (fun u x => pushLatch x.1 (x.2 % 2 ^ 64) u) t1
      let ws := regWrites f w res
      .ok (addOp (newOp t2 cls (if cls = .gather then .gather ws else .laneLoad ws) (pagesOf accs)) t2)) s

/-- vld. -/
def execVld (w : LaneWord) (s : State) : Host.Outcome State Fault Refusal :=
  laneRun (fmtVld w) w (loadBody (fmtVld w) w .load false) s
/-- vld.ro (R186). -/
def execVldRo (w : LaneWord) (s : State) : Host.Outcome State Fault Refusal :=
  laneRun (fmtVldRo w) w (loadBody (fmtVldRo w) w .load true) s
/-- vldg: its faults carry the gather engine's source (R257, R285). -/
def execVldg (w : LaneWord) (s : State) : Host.Outcome State Fault Refusal :=
  laneIssue (fmtVldg w) w 2 (loadBody (fmtVldg w) w .gather false) laneNext s

/-! ### Stores and scatters (R185, R194) -/

/-- A store or scatter: every lane's data is stored in lane order, so the highest lane of a byte remains (R185).
(DESIGN CHOICE, unsafe: notes/assumptions/7.md) -/
def storeBody (f : LaneFmt) (w : LaneWord) (cls : OpClass) (act : List Nat) (s : State) : Res State := do
  if act = [] then .ok s
  else
    let n := memSize w
    let accs ← lanesAt s n 1 (laneAddr s w n) act
    let data := fun (l : Nat) => natToBytes n (srcVal s f.cn w.c l)
    need (!opFull s cls) (.wait .other)
    withPeers false ((accs.filter isPeer).map (fun a => ⟨a.ptr, .write (data a.lane), a.lane⟩)) (fun _ t =>
      let loc := accs.filter (fun a => !isPeer a)
      let t1 := loc.foldl (fun u a => wrLoc a.place.loc (data a.lane) u) (noteAll (cls == .scatter) accs t)
      if loc = [] then .ok t1
      else .ok (addOp (newOp t1 cls (if cls = .scatter then .scatter (loc.map (·.place.loc)) else .store (loc.map (·.place.loc))) (pagesOf loc)) t1)) s

/-- vst. -/
def execVst (w : LaneWord) (s : State) : Host.Outcome State Fault Refusal :=
  laneRun (fmtVst w) w (storeBody (fmtVst w) w .store) s
/-- vsct. -/
def execVsct (w : LaneWord) (s : State) : Host.Outcome State Fault Refusal :=
  laneIssue (fmtVsct w) w 2 (storeBody (fmtVsct w) w .scatter) laneNext s

/-! ### Scatter-add (R195) -/

/-- Add one element to the contributions already combined by the Rake; flags of a floating sum. -/
def rake (x : ScatAdd) : List ScatAdd → List ScatAdd × Flags
  | [] => ([x], fNone)
  | y :: r =>
    if y.va = x.va ∧ y.loc = x.loc then
      let v := combine x.ty ((rmOf x.rm).getD .rne) false 0 y.val.toNat x.val.toNat
      ({ y with val := BitVec.ofNat 64 v.1 } :: r, v.2)
    else
      let (l, f) := rake x r
      (y :: l, f)

/-- The place j bytes on. -/
def locAdd (l : Loc) (j : Nat) : Loc :=
  match l with
  | .phys pa c => .phys (pa + j) c
  | .spad o => .spad (o + j)
  | .cspad c o => .cspad c (o + j)
  | .remote p va => .remote p (va + j)
  | .dctl o => .dctl (o + j)

/-- The elements of a vsct.add in lane order. -/
def scatElems (s : State) (f : LaneFmt) (w : LaneWord) (accs : List LaneAcc) : List ScatAdd :=
  let n := tyWidth w.t / 8
  let dflt := match curRun s.crew with
    | some r => r.run.rm
    | none => s.crew.sc.rmdef
  let rm := if w.rm.toNat = 5 then dflt else w.rm.toNat
  accs.flatMap (fun a => (List.range (laneCnt w)).map (fun j =>
    ⟨BitVec.ofNat 64 (vaOf s a.lane (a.ptr + BitVec.ofNat 64 (n * j))), locAdd a.place.loc (n * j), w.t, rm,
      BitVec.ofNat 64 (srcVal s f.cn w.c a.lane / 2 ^ (32 * j) % 2 ^ tyWidth w.t), a.lane⟩))

/-- The operation code of a contribution as an atomic (R193, R195). -/
def addOpCode (x : ScatAdd) : Nat := if tyIsInt x.ty then 0 else 10 + 16 * x.rm

/-- The pointer to a place at a peer. -/
def farPtr (l : Loc) : W64 :=
  match l with
  | .remote p va => BitVec.ofNat 64 (3 * 2 ^ 60 + p * 2 ^ 48 + va)
  | _ => 0

/-- A contribution to a peer as an access through aperture 0x3. -/
def addRemote (x : ScatAdd) : Option RemAcc :=
  if isFar x.loc then some ⟨farPtr x.loc, .amo (addOpCode x) (tyWidth x.ty / 8) x.val 0, x.lane⟩ else none

/-- Put entries of one instruction into the Sieve, all with one place in the issue order (R316). -/
def addSieves (l : List (Nat × SieveKind)) (s : State) : State :=
  onC (fun c => { c with
    sieve := c.sieve ++ l.map (fun x => ⟨c.clock / flushF s.job, x.1, c.sieveOrder, x.2⟩)
    sieveOrder := c.sieveOrder + 1 }) s

/-- vsct.add: contributions leave for their homes, or for the Sieve in deterministic mode; the checks are those of a lane's
whole access. (DESIGN CHOICE, unsafe: notes/assumptions/60.md) -/
def scatAddBody (f : LaneFmt) (w : LaneWord) (act : List Nat) (s : State) : Res State := do
  let inRun := match curRun s.crew with
    | some r => r.run.region
    | none => false
  need (!inRun) (.trap 0x02 0)
  if act = [] then .ok s
  else
    let n := memSize w
    let accs ← lanesAt s n 2 (laneAddr s w n) act
    let (sums, fl) := (scatElems s f w accs).foldl (fun (acc : List ScatAdd × Flags) x =>
      let r := rake x acc.1
      (r.1, acc.2 ||| r.2)) ([], fNone)
    let far := if isDet s then [] else sums.filterMap addRemote
    let near := sums.filter (fun x => isDet s || (addRemote x).isNone)
    need (!isDet s || sieveRoom s near.length) (.wait (.detSync (intervalOf s)))
    need (isDet s || !opFull s .scatter) (.wait .other)
    withPeers false far (fun _ t =>
      let t1 := addRunFlags fl (noteAll true accs t)
      if near = [] then .ok t1
      else if isDet t then .ok (addSieves (near.map (fun x => (x.lane, .add x))) t1)
      else .ok (addOp (newOp t1 .scatter (.scatAdd near) (pagesOf accs)) t1)) s

/-- vsct.add. -/
def execVsctAdd (w : LaneWord) (s : State) : Host.Outcome State Fault Refusal :=
  laneIssue (fmtVsctAdd w) w 2 (scatAddBody (fmtVsctAdd w) w) laneNext s

/-! ### Lane atomics (R196) -/

/-- The results of a vamo: old values into D and b0, floating flags into the run's (R193, R196). d = 1024 writes no
register back. -/
def amoResults (d n : Nat) (l : List (Nat × Nat × Flags)) (s : State) : State :=
  addRunFlags (flagsOf l) (l.foldl (fun t x =>
    let t1 := pushLatch x.1 x.2.1 t
    if d = 1024 then t1 else wrVs x.1 (if n = 8 then 2 else 1) d x.2.1 t1) s)

/-- The atomic of one lane. -/
def laneAmo (s : State) (w : LaneWord) (a : LaneAcc) : AmoOp :=
  let op := w.md.toNat / 2 % 16
  let ord := w.md.toNat / 32
  let r := tyRegs w.t
  ⟨op, tyWidth w.t / 8, BitVec.ofNat 64 (vaOf s a.lane a.ptr), a.place.loc, BitVec.ofNat 64 (srcVal s r w.b a.lane),
    if op = 9 then BitVec.ofNat 64 (rdVs s a.lane r w.d.toNat) else 0, a.lane, w.d.toNat,
    if ordAcq ord then ordScope ord else 0⟩

/-- The value that cas stores comes from C; the compare value from D (R196). -/
def laneAmoC (s : State) (w : LaneWord) (x : AmoOp) : AmoOp :=
  if x.op = 9 then { x with b := BitVec.ofNat 64 (srcVal s (tyRegs w.t) w.c x.lane) } else x

/-- An atomic as an access through aperture 0x3. -/
def amoRemote (ptr : W64) (x : AmoOp) : RemAcc := ⟨ptr, .amo x.op x.n x.b x.cmp, x.lane⟩

/-- vamo: the release part at issue, then the atomics go to their homes, to their peers, or into the Sieve. Uncorrectable
data of a lane is found before any is sent to a peer (R189). -/
def vamoBody (w : LaneWord) (act : List Nat) (s : State) : Res State := do
  let inRun := match curRun s.crew with
    | some r => r.run.region
    | none => false
  need (!inRun) (.trap 0x02 0)
  if act = [] then .ok s
  else
    let n := tyWidth w.t / 8
    let ord := w.md.toNat / 32
    let addr := fun (l : Nat) => BitVec.ofNat 64 (srcVal s 2 w.a l) + BitVec.ofInt 64 (memOff w)
    let accs ← lanesAt s n 2 addr act
    let d := if w.nw = 1 then 1024 else w.d.toNat
    let ops := accs.map (fun a => (a.ptr, laneAmoC s w (laneAmo s w a)))
    let far := if isDet s then [] else ops.filter (fun x => isFar x.2.loc)
    let near := (ops.filter (fun x => isDet s || !isFar x.2.loc)).map (·.2)
    let asks := far.map (fun x => amoRemote x.1 x.2)
    let s1 ← if asks ≠ [] ∧ (findOp s (isRemoteL asks)).isSome then .ok s else amoRelease ord false s
    need (!isDet s || sieveRoom s accs.length) (.wait (.detSync (intervalOf s)))
    need (isDet s || !opFull s .store) (.wait .other)
    match (if asks = [] then none else near.find? (fun x => amoBad x s1)) with
    | some x => .error (.trap 0x15 x.va)
    | none => .ok ()
    withPeers (ordRel ord) asks (fun rep t =>
      let farRes := (far.zipIdx).map (fun q =>
        let x := q.1.2
        let old := bytesToNat ((rep.drop (n * q.2)).take n)
        (x.lane, old, (amoApply x.op n old x.b.toNat x.cmp.toNat).2.2))
      let t2 := amoResults d n farRes (noteAll false accs t)
      if near = [] then .ok (if ordAcq ord then acquireLines t2 else t2)
      else if isDet t then .ok (addSieves (near.map (fun x => (x.lane, .vamo x d))) t2)
      else .ok (addOp (newOp t2 .store (.vamo near d) (pagesOf accs)) t2)) s1

/-- vamo; in deterministic mode the gang then waits for the flush of its interval (R318). -/
def execVamo (w : LaneWord) (s : State) : Host.Outcome State Fault Refusal :=
  laneIssue (fmtVamo w) w 0 (vamoBody w) (fun g t =>
    let i := intervalOf t
    let waits := t.crew.sieve.length != s.crew.sieve.length
    if waits then
      laneMove (g.members.map (fun k => (k, g.pc + 12)))
        t |> modRun (fun r => { r with gangs := r.gangs.map (fun h =>
          if h.members = g.members then { h with wait := .released i } else h) })
    else laneNext g t) s

/-! ### Prefetches and fences (R197, R198) -/

/-- vprefetch: nothing visible but the end of the latch window. -/
def execVprefetch (w : LaneWord) (s : State) : Host.Outcome State Fault Refusal :=
  laneRun (fmtVprefetch w) w (fun _ t => .ok t) s

/-- vfence, for each active lane of the gang. -/
def execVfence (w : LaneWord) (s : State) : Host.Outcome State Fault Refusal :=
  laneRun (fmtVfence w) w (fun act t =>
    if act = [] then .ok t else fenceBody (laneX w / 8 % 4) (laneX w % 8) false t) s

end Sys2Proof.Machine
end

