-- ==== Sys2Proof/Machine/LaneSparse.lean ====
section
/-! DEFINITION. Sparse lane instructions (R258 to R261) and the pair form (R57 to R60). -/

namespace Sys2Proof.Machine

/-! ### vpfx, vbmap, vinter -/

/-- vpfx (R259). -/
def execVpfx (w : LaneWord) (s : State) : Host.Outcome State Fault Refusal :=
  laneRun (fmtVpfx w) w (fun act t =>
    let pc := fun (l : Nat) => popN 32 (srcVal t 1 w.a l)
    let val := fun (l : Nat) =>
      ((act.filter (fun i => decide (i < l))).map pc).foldl (· + ·) 0 + if laneX w / 8 % 2 = 1 then pc l else 0
    .ok (writeLanes (fmtVpfx w) w (act.map (fun l => (l, val l % 2 ^ 32, fNone))) t)) s

/-- Low(b) of R260. -/
def lowMask (b : Nat) : Nat := if 32 ≤ b then 2 ^ 32 - 1 else 2 ^ b - 1

/-- The position of the set bit of rank b among the low n bits; 32 when there is none. -/
def selBit (a b : Nat) : Nat :=
  ((List.range 32).find? (fun i => a.testBit i && popN 32 (a &&& lowMask i) == b)).getD 32

/-- A vbmap operation on a bitmap word and an operand. -/
def bmap (f : LaneFmt) (w : LaneWord) (op : Nat → Nat → Nat) (s : State) : Host.Outcome State Fault Refusal :=
  laneVal f w (fun t l => (op (opA t w l) (opB t w l), fNone)) s

/-- vbmap.and. -/
def execVbmapAnd (w : LaneWord) (s : State) : Host.Outcome State Fault Refusal := bmap (fmtVbmapAnd w) w (· &&& ·) s
/-- vbmap.andn. -/
def execVbmapAndn (w : LaneWord) (s : State) : Host.Outcome State Fault Refusal := bmap (fmtVbmapAndn w) w (andnN 32) s
/-- vbmap.or. -/
def execVbmapOr (w : LaneWord) (s : State) : Host.Outcome State Fault Refusal := bmap (fmtVbmapOr w) w (· ||| ·) s
/-- vbmap.keep. -/
def execVbmapKeep (w : LaneWord) (s : State) : Host.Outcome State Fault Refusal :=
  bmap (fmtVbmapKeep w) w (fun a b => a &&& lowMask b) s
/-- vbmap.rank. -/
def execVbmapRank (w : LaneWord) (s : State) : Host.Outcome State Fault Refusal :=
  bmap (fmtVbmapRank w) w (fun a b => popN 32 (a &&& lowMask b)) s
/-- vbmap.sel. -/
def execVbmapSel (w : LaneWord) (s : State) : Host.Outcome State Fault Refusal := bmap (fmtVbmapSel w) w selBit s

/-- How far each list of a vinter advances. -/
def interAdv (a b : List Nat) : Nat × Nat :=
  match a.getLast?, b.getLast? with
  | some x, some y =>
    let t := min x y
    ((a.filter (fun v => decide (v ≤ t))).length, (b.filter (fun v => decide (v ≤ t))).length)
  | _, _ => (a.length, b.length)

/-- vinter (R261). -/
def execVinter (w : LaneWord) (s : State) : Host.Outcome State Fault Refusal :=
  laneRun (fmtVinter w) w (fun act t =>
    match act.head? with
    | none => .ok t
    | some m =>
      let c := srcVal t 1 w.c m
      let na := min (c % 65536) (lanesOf t)
      let nb := min (c / 65536) (lanesOf t)
      let a := (List.range na).map (srcVal t 1 w.a)
      let b := (List.range nb).map (srcVal t 1 w.b)
      let (advA, advB) := interAdv a b
      let hit := fun (l : Nat) => decide (l < na) && b.contains (nth 0 a l)
      let pos := fun (l : Nat) => if l < na then (b.filter (fun v => decide (v < nth 0 a l))).length else 0
      let hi := advA + 2 ^ 16 * advB
      let t1 := act.foldl (fun u l => wrP (laneX w) l (hit l) u) t
      .ok (writeLanes (fmtVinter w) w (act.map (fun l => (l, pos l + 2 ^ 32 * hi, fNone))) t1)) s

/-! ### Pair words (R57 to R60) -/

/-- The type of a half. -/
def halfTy (h : PairHalf) : Ty := ty3Of h.ty3.toNat

/-- The result of a half-operation in one lane: a register value with flags; compares are below. -/
def halfVal (s : State) (h : PairHalf) (l : Nat) : Nat × Flags :=
  let t := halfTy h
  let f := (tyFmt t).getD fmtF64
  let rm := rmField s 5
  let a := srcTy s t h.a l
  let b := srcTy s t h.b l
  let d := rdVs s l (tyRegs t) h.d.toNat % 2 ^ tyWidth t
  match h.hopc.toNat with
  | 0x08 => intOp2 t false (· + ·) a b
  | 0x09 => intOp2 t false (· - ·) a b
  | 0x0A => intOp2 t false min a b
  | 0x0B => intOp2 t false max a b
  | 0x0C => bitOp t (· &&& ·) a b
  | 0x0D => bitOp t (· ||| ·) a b
  | 0x0E => bitOp t (· ^^^ ·) a b
  | 0x0F => laneCut t (andnN (tyWidth t) a b)
  | 0x10 => intShl t a b
  | 0x11 => intShr t a b
  | 0x12 => intRol t a b
  | 0x13 => intAbs t false a
  | 0x14 => intNeg t false a
  | 0x15 => intOp2 t false (· * ·) a b
  | 0x16 => intMulHi t a b
  | 0x17 => laneCut t (popN (tyWidth t) a)
  | 0x18 => laneCut t (clzN (tyWidth t) a)
  | 0x19 => intOp2 t true (· + ·) a b
  | 0x1A => intOp2 t true (· - ·) a b
  | 0x20 => fAdd f rm a b
  | 0x21 => fSub f rm a b
  | 0x22 => fMinMax f false a b
  | 0x23 => fMinMax f true a b
  | 0x24 => laneCut t (fClearSign f a)
  | 0x25 => laneCut t (fFlip f a)
  | 0x30 => fMul f rm a b
  | 0x31 => fFma f rm a b d
  | 0x32 => fFma f rm (fFlip f a) b d
  | 0x60 => fRcp f rm a
  | 0x61 => fRsqrt f rm a
  | 0x62 => fSqrt f rm a
  | 0x63 => fExp2 f rm a
  | 0x64 => fLog2 f rm a
  | 0x65 => fSin f rm a
  | 0x66 => fCos f rm a
  | 0x67 => fTanh f rm a
  | _ => laneCut t a

/-- What a half does in one lane: nothing, a predicate bit, or a register value, with flags. -/
inductive HalfOut where
  | bit (p l : Nat) (b : Bool) (f : Flags)
  | reg (n d l v : Nat) (f : Flags)
  deriving DecidableEq, Repr

/-- The results of a half in its active lanes. -/
def halfOuts (s : State) (h : PairHalf) (lanes : List Nat) : List HalfOut :=
  let t := halfTy h
  if h.hopc = 0x01 then []
  else (lanes.filter (fun l => rdP s h.pred.toNat l)).map (fun l =>
    if halfCmp h then
      let r := cmpVal t (h.hopc.toNat - 0x40) (srcTy s t h.a l) (srcTy s t h.b l)
      .bit h.d.toNat l r.1 r.2
    else
      let r := halfVal s h l
      .reg (tyRegs t) h.d.toNat l r.1 r.2)

/-- Write a half's result; pair words leave the latches as they are. -/
def halfWrite (s : State) : HalfOut → State
  | .bit p l b f => addRunFlags f (wrP p l b s)
  | .reg n d l v f => addRunFlags f (wrVs l n d v s)

/-- Latches that a half reads. -/
def halfLatches (h : PairHalf) : List Nat :=
  match halfSrcs h.hopc.toNat (halfTy h) with
  | some (n, _) => (latchOf n h.a).toList ++ (if n < 2 then [] else (latchOf n h.b).toList)
  | none => []

/-- A half writes a declared live-in. -/
def halfLive (s : State) (r : ARun) (h : PairHalf) (lanes : List Nat) : Bool :=
  h.hopc != 0x01 && !halfCmp h && lanes.any (fun l => rdP s h.pred.toNat l) &&
    liveInV s r h.d.toNat (tyRegs (halfTy h))

/-- A pair word: both halves read before either writes (R58). -/
def execLanePairWord (p q : PairHalf) (s : State) : Host.Outcome State Fault Refusal :=
  .next (match headGang s with
    | none => s
    | some (r, g) =>
      let lanes := maskLanes r g.members
      let on := fun (h : PairHalf) => lanes.filter (fun l => rdP s h.pred.toNat l)
      match (do
          need (pairOk p q && decide (max (halfTop p) (halfTop q) ≤ 64 * s.job.rcd.regg)) (.trap 0x01 0)
          match lostLatch s (on p) (halfLatches p), lostLatch s (on q) (halfLatches q) with
          | some b, _ => .error (.trap 0x04 (BitVec.ofNat 64 b))
          | none, some b => .error (.trap 0x04 (BitVec.ofNat 64 b))
          | none, none => .ok ()
          need (!halfLive s r p lanes && !halfLive s r q lanes) (.trap 0x02 0) : Res Unit) with
      | .error e => stopLane e 0 g (lanesMask lanes) s
      | .ok _ => laneNext g ((halfOuts s p lanes ++ halfOuts s q lanes).foldl halfWrite s))

end Sys2Proof.Machine
end

