-- ==== Sys2Proof/Machine/Cert.lean ====
section
/-! DEFINITION. Certified values: quads, the bounds of certified arithmetic, the instructions that append to the graph
log, and certified values in memory (R233, R234, R237, R238, R240, R241, R244 to R250). -/

namespace Sys2Proof.Machine

/-! ### Rational values -/

/-- k · 2^q. -/
def ratScale (k : Int) (q : Int) : Rat := if 0 ≤ q then ((k * (2 ^ q.toNat : Nat) : Int) : Rat) else mkRat k (2 ^ (-q).toNat)

/-- The value of a finite exact value. -/
def ratOfEx : Ex → Option Rat
  | .fin neg m e => some (ratScale (if neg then -(m : Int) else m) e)
  | _ => none

/-- The value of an encoding; none when it is not finite. -/
def ratOf (f : Fmt) (code : Nat) : Option Rat := ratOfEx (exOf f code)

/-- The magnitude of a rational. -/
def ratAbs (x : Rat) : Rat := if x < 0 then -x else x

/-- The binary32 code of a bound that is not negative, rounded up (R245). -/
def ratUp32 (x : Rat) : Nat :=
  let n := x.num.natAbs
  let s := 64 + bitLen x.den - bitLen n
  let num := n <<< s
  (roundTo fmtF32 .rup (if n = 0 then exZero else jam false (num / x.den) (-(s : Int)) (decide (num % x.den ≠ 0)))).1

/-- +infinity as a radius. -/
def radInf : Nat := fmtInf fmtF32

/-- Bounds of the square root of a non-negative rational, k bits after the binary point beyond its denominator's; they
are equal when the root is rational. -/
def ratSqrt (k : Nat) (x : Rat) : Rat × Rat :=
  let n := x.num.natAbs
  let j := k + bitLen x.den
  let v := (n * x.den) <<< (2 * j)
  let r := isqrt v
  let lo := mkRat r (x.den * 2 ^ j)
  (lo, if r * r = v then lo else mkRat (r + 1) (x.den * 2 ^ j))

/-! ### Quads (R233) -/

/-- What a quad's handle says. -/
inductive QKind where
  | exact
  | graph (node : Nat)
  | loose
  deriving DecidableEq, Repr

/-- What Read returns: mid and radius as codes, and the kind. -/
structure Quad where
  mid : Nat
  rad : Nat
  kind : QKind
  deriving DecidableEq, Repr

/-- Read of R233 on the four words of a quad and its H tag. -/
def readWords (mid rad h : Nat) (tag : Bool) : Quad :=
  if isNanC fmtF32 rad || rad.testBit 31 then ⟨mid, radInf, .loose⟩
  else
    let r := if (ratOf fmtF64 mid).isSome then rad else radInf
    if h / 2 ^ 30 = 0 then
      if h = 0 ∧ r = 0 then ⟨mid, 0, .exact⟩ else ⟨mid, radInf, .loose⟩
    else if h / 2 ^ 30 = 1 ∧ tag then ⟨mid, r, .graph (h % 2 ^ 30)⟩
    else ⟨mid, r, .loose⟩

/-- The register that a quad field names. -/
def quadReg (f : BitVec 12) : Nat :=
  match srcOf f with
  | .reg v => v
  | _ => 0

/-- Read(F, l). -/
def readQuad (s : State) (f : BitVec 12) (l : Nat) : Quad :=
  let v := quadReg f
  readWords (rdVs s l 2 v) (rdV s (v + 2) l) (rdV s (v + 3) l) (hTag s v l)

/-- Write a quad with its handle; a node handle sets the H tag. The old handle's node is released after (R238). -/
def putQuad (v l mid rad h : Nat) (node : Option Nat) (s : State) : State :=
  let old := if hTag s v l then some (tagNode s v l) else none
  let s1 := putV (v + 3) l h (putV (v + 2) l rad (putV (v + 1) l (mid / 2 ^ 32) (putV v l (mid % 2 ^ 32) s)))
  let s2 := setTag v l node.isSome s1
  let s3 := match node with
    | some n => incNode n s2
    | none => s2
  match old with
  | some n => decNode n s3
  | none => s3

/-! ### Results and their nodes (R237, R240, R245) -/

/-- A child of a node to be appended: a node that exists, or a leaf of an opcode for an exact operand. -/
inductive CertKid where
  | node (n : Nat)
  | leaf (opc bits : Nat)
  deriving DecidableEq, Repr

/-- The handle a certified result gets: exact, opaque, or a node appended. -/
inductive CertPlan where
  | exact
  | cut
  | leaf (opc bits : Nat)
  | op (opc : Nat) (kids : List CertKid)
  deriving DecidableEq, Repr

/-- A certified result before its nodes are appended. -/
structure CertOut where
  mid : Nat
  rad : Nat
  plan : CertPlan
  deriving DecidableEq, Repr

/-- Nodes that a result appends. -/
def planNodes (p : CertPlan) : Nat :=
  match p with
  | .op _ kids => 1 + (kids.filter (fun k => match k with
      | .leaf _ _ => true
      | .node _ => false)).length
  | .leaf _ _ => 1
  | _ => 0

/-- Append a leaf. -/
def appendLeaf (opc bits : Nat) (s : State) : Nat × State :=
  appendNode ⟨opc, false, bits % 2 ^ 32, bits / 2 ^ 32 % 2 ^ 32, 0, []⟩ s

/-- Append the leaves among children, in order: the children's node numbers. -/
def appendKids : List CertKid → State → List Nat × State
  | [], s => ([], s)
  | .node n :: r, s =>
    let (l, t) := appendKids r s
    (n :: l, t)
  | .leaf opc bits :: r, s =>
    let (n, s1) := appendLeaf opc bits s
    let (l, t) := appendKids r s1
    (n :: l, t)

/-- The handle word of a node. -/
def handleOfNode (n : Nat) : Nat := 2 ^ 30 + n

/-- Append a result's nodes: its handle word and its node, if it has one. -/
def appendPlan (p : CertPlan) (s : State) : (Nat × Option Nat) × State :=
  match p with
  | .exact => ((0, none), s)
  | .cut => ((0xC0000000, none), s)
  | .leaf opc bits =>
    let (n, t) := appendLeaf opc bits s
    ((handleOfNode n, some n), t)
  | .op opc kids =>
    let (ks, s1) := appendKids kids s
    let h := fun (i : Nat) => match nth none (ks.map some) i with
      | some n => handleOfNode n
      | none => 0
    let (n, t) := appendNode ⟨opc, opc == 0x15 || ks.any s1.team.log.sqrts.contains, h 0, h 1, h 2, ks⟩ s1
    ((handleOfNode n, some n), t)

/-- Write one lane's certified result. -/
def writeCert (d : Nat) (x : Nat × CertOut) (s : State) : State :=
  let (h, t) := appendPlan x.2.plan s
  putQuad d x.1 x.2.mid x.2.rad h.1 h.2 t

/-- The room that the results of an instruction need, once for all its active lanes (R240). -/
def certRoom (s : State) (outs : List (Nat × CertOut)) : Room :=
  let n := (outs.map (fun x => planNodes x.2.plan)).foldl (· + ·) 0
  if n = 0 then .ready else logRoom s n

/-- A certified instruction with a quad destination: room is made sure of, then each lane's result is written. -/
def certBody (w : LaneWord) (out : State → Nat → CertOut) (act : List Nat) (s : State) : Res State :=
  let outs := act.map (fun l => (l, out s l))
  match certRoom s outs with
  | .ready => .ok (outs.foldl (fun t x => writeCert w.d.toNat x t) s)
  | .spill _ => .error (.wait .other)
  | .full r => .error (.trap 0x0D (BitVec.ofNat 64 r))

/-- A certified instruction about to wait for room asks for the copy of a segment (R237). -/
def certAsk (f : LaneFmt) (w : LaneWord) (out : State → Nat → CertOut) (s : State) : State :=
  match headGang s with
  | none => s
  | some (r, g) =>
    let act := activeLanes s r g w
    match laneChecks f w r act s, certRoom s (act.map (fun l => (l, out s l))) with
    | .ok _, .spill seg => if s.team.log.spilling.isSome then s else onLog (fun x => { x with spilling := some seg }) s
    | _, _ => s

/-- Run a certified instruction with a quad destination. -/
def certRun (f : LaneFmt) (w : LaneWord) (out : State → Nat → CertOut) (s : State) : Host.Outcome State Fault Refusal :=
  laneRun f w (certBody w out) (certAsk f w out s)

/-! ### Arithmetic (R245 to R247) -/

/-- Mid and radius of an operand; none when its radius is infinite. -/
def quadPair (q : Quad) : Option (Rat × Rat) := do
  let m ← ratOf fmtF64 q.mid
  let r ← ratOf fmtF32 q.rad
  some (m, r)

/-- The child that an operand becomes: a leaf for an exact one. -/
def quadKid (q : Quad) : CertKid :=
  match q.kind with
  | .graph n => .node n
  | _ => .leaf 1 q.mid

/-- The result of R245 from the operands, the rounded mid, the code of the bound as a radius, and whether the case is
undefined. err is asked only when the operands' radii and the result's mid are finite. -/
def certOp (opc : Nat) (qs : List Quad) (m : Nat) (err : List (Rat × Rat) → Rat → Nat) (undef : Bool) : CertOut :=
  if undef then ⟨m, radInf, .cut⟩
  else
    let r := match ratOf fmtF64 m, qs.mapM quadPair with
      | some x, some l => err l x
      | _, _ => radInf
    if qs.any (fun q => q.kind == .loose) then ⟨m, r, .cut⟩
    else if qs.all (fun q => q.kind == .exact) && r == 0 then ⟨m, r, .exact⟩
    else ⟨m, r, .op opc (qs.map quadKid)⟩

/-- The bound of a product's operands: |ma|·rb + |mb|·ra + ra·rb. -/
def mulBound (a b : Rat × Rat) : Rat := ratAbs a.1 * b.2 + ratAbs b.1 * a.2 + a.2 * b.2

/-- Whether an operand is exact zero. -/
def quadIsZero (q : Quad) : Bool := q.kind == .exact && ratOf fmtF64 q.mid == some 0

/-- Whether an operand is exact and below zero. -/
def quadIsNeg (q : Quad) : Bool :=
  q.kind == .exact && match ratOf fmtF64 q.mid with
    | some m => decide (m < 0)
    | none => false

/-- eadd of two quads. (DEDUCED, unsafe: notes/assumptions/36.md) -/
def certAdd (a b : Quad) : CertOut :=
  certOp 0x10 [a, b] (fAdd fmtF64 .rne a.mid b.mid).1 (fun l m => match l with
    | [x, y] => ratUp32 (x.2 + y.2 + ratAbs (x.1 + y.1 - m))
    | _ => radInf) false

/-- esub of two quads. -/
def certSub (a b : Quad) : CertOut :=
  certOp 0x11 [a, b] (fSub fmtF64 .rne a.mid b.mid).1 (fun l m => match l with
    | [x, y] => ratUp32 (x.2 + y.2 + ratAbs (x.1 - y.1 - m))
    | _ => radInf) false

/-- emul of two quads. (DEDUCED, unsafe: notes/assumptions/36.md) -/
def certMul (a b : Quad) : CertOut :=
  certOp 0x12 [a, b] (fMul fmtF64 .rne a.mid b.mid).1 (fun l m => match l with
    | [x, y] => ratUp32 (mulBound x y + ratAbs (x.1 * y.1 - m))
    | _ => radInf) false

/-- efma of three quads. -/
def certFma (a b c : Quad) : CertOut :=
  certOp 0x13 [a, b, c] (fFma fmtF64 .rne a.mid b.mid c.mid).1 (fun l m => match l with
    | [x, y, z] => ratUp32 (mulBound x y + z.2 + ratAbs (x.1 * y.1 + z.1 - m))
    | _ => radInf) false

/-- ediv of two quads. (DEDUCED, unsafe: notes/assumptions/36.md) -/
def certDiv (a b : Quad) : CertOut :=
  certOp 0x14 [a, b] (fDiv fmtF64 .rne a.mid b.mid).1 (fun l m => match l with
    | [x, y] =>
      let d := ratAbs y.1
      if y.2 < d then ratUp32 ((ratAbs x.1 * y.2 + d * x.2) / (d * (d - y.2)) + ratAbs (x.1 / y.1 - m)) else radInf
    | _ => radInf) (quadIsZero b)

/-- The code of a bound of esqrt, from intervals of √ma and √(ma − ra) that shrink until both ends round alike; both
ends are the bound itself where it is rational. ra / (√(ma − ra) + √ma) equals √ma − √(ma − ra). -/
def sqrtErr (ma ra m : Rat) : Nat → Nat → Nat
  | 0, _ => radInf
  | n + 1, k =>
    let (lo, hi) := ratSqrt k ma
    let (lo', hi') := ratSqrt k (ma - ra)
    let below := decide (m * m < ma)
    let a := if below then lo + lo - hi' - m else m - hi'
    let b := if below then hi + hi - lo' - m else m - lo'
    let c := ratUp32 (if a < 0 then 0 else a)
    let e := ratUp32 b
    if c = e ∨ n = 0 then e else sqrtErr ma ra m n (2 * k)

/-- esqrt of a quad. The code of a positive bound is never that of zero. (DEDUCED, unsafe: notes/assumptions/36.md) -/
def certSqrt (a : Quad) : CertOut :=
  certOp 0x15 [a] (fSqrt fmtF64 .rne a.mid).1 (fun l m => match l with
    | [x] =>
      if 0 < x.1 - x.2 then sqrtErr x.1 x.2 m 8 256
      else if x.1 = 0 ∧ x.2 = 0 then 0
      else radInf
    | _ => radInf) (quadIsNeg a)

/-- eneg of a quad. -/
def certNeg (a : Quad) : CertOut :=
  certOp 0x16 [a] (match exOf fmtF64 a.mid with
    | .nan => fmtNan fmtF64
    | _ => fFlip fmtF64 a.mid) (fun l _ => match l with
    | [x] => ratUp32 x.2
    | _ => radInf) false

/-- eadd. -/
def execEadd (w : LaneWord) (s : State) : Host.Outcome State Fault Refusal :=
  certRun (fmtEadd w) w (fun t l => certAdd (readQuad t w.a l) (readQuad t w.b l)) s
/-- esub. -/
def execEsub (w : LaneWord) (s : State) : Host.Outcome State Fault Refusal :=
  certRun (fmtEsub w) w (fun t l => certSub (readQuad t w.a l) (readQuad t w.b l)) s
/-- emul. -/
def execEmul (w : LaneWord) (s : State) : Host.Outcome State Fault Refusal :=
  certRun (fmtEmul w) w (fun t l => certMul (readQuad t w.a l) (readQuad t w.b l)) s
/-- efma. -/
def execEfma (w : LaneWord) (s : State) : Host.Outcome State Fault Refusal :=
  certRun (fmtEfma w) w (fun t l => certFma (readQuad t w.a l) (readQuad t w.b l) (readQuad t w.c l)) s
/-- ediv. -/
def execEdiv (w : LaneWord) (s : State) : Host.Outcome State Fault Refusal :=
  certRun (fmtEdiv w) w (fun t l => certDiv (readQuad t w.a l) (readQuad t w.b l)) s
/-- esqrt. -/
def execEsqrt (w : LaneWord) (s : State) : Host.Outcome State Fault Refusal :=
  certRun (fmtEsqrt w) w (fun t l => certSqrt (readQuad t w.a l)) s
/-- eneg. -/
def execEneg (w : LaneWord) (s : State) : Host.Outcome State Fault Refusal :=
  certRun (fmtEneg w) w (fun t l => certNeg (readQuad t w.a l)) s

/-! ### Conversion and taking apart (R248, R249) -/

/-- The exact value of a source of ecvt. -/
def cvtEx (t : Ty) (v : Nat) : Ex :=
  match tyFmt t with
  | some f => exOf f v
  | none => exInt (intVal t v)

/-- The result of an ecvt: rad is the radius operand, if there is one. -/
def certCvt (t : Ty) (v : Nat) (rad : Option Nat) : CertOut :=
  let x := cvtEx t v
  let m := (roundTo fmtF64 .rne x).1
  match ratOfEx x, ratOf fmtF64 m with
  | some q, some y =>
    let e := ratAbs (q - y)
    match rad with
    | none =>
      let r := ratUp32 e
      ⟨m, r, if r = 0 then .exact else .leaf (if tySigned t then 2 else 3) v⟩
    | some b =>
      let r := if b.testBit 31 then radInf else match ratOf fmtF32 b with
        | some rb => ratUp32 (e + rb)
        | none => radInf
      ⟨m, r, if r = 0 then .exact else .cut⟩
  | _, _ => ⟨m, radInf, .cut⟩

/-- ecvt. -/
def execEcvt (w : LaneWord) (s : State) : Host.Outcome State Fault Refusal :=
  certRun (fmtEcvt w) w (fun t l => certCvt w.t (opA t w l) none) s
/-- ecvt.rad. -/
def execEcvtRad (w : LaneWord) (s : State) : Host.Outcome State Fault Refusal :=
  certRun (fmtEcvtRad w) w (fun t l => certCvt w.t (opA t w l) (some (srcVal t 1 w.b l))) s

/-- esever. -/
def execEsever (w : LaneWord) (s : State) : Host.Outcome State Fault Refusal :=
  certRun (fmtEsever w) w (fun t l =>
    let q := readQuad t w.a l
    ⟨q.mid, q.rad, if q.kind = .exact then .exact else .cut⟩) s
/-- emid. -/
def execEmid (w : LaneWord) (s : State) : Host.Outcome State Fault Refusal :=
  laneVal (fmtEmid w) w (fun t l => ((readQuad t w.a l).mid, fNone)) s
/-- erad. -/
def execErad (w : LaneWord) (s : State) : Host.Outcome State Fault Refusal :=
  laneVal (fmtErad w) w (fun t l => ((readQuad t w.a l).rad, fNone)) s

/-! ### Certified values in memory (R250) -/

/-- The granule of the team scratchpad at a place. -/
def granuleAt (a : LaneAcc) : Option Nat :=
  match a.place.loc with
  | .spad off => some (off / 16)
  | _ => none

/-- The 16 bytes of a quad. -/
def quadBytes (mid rad h : Nat) : List Byte := natToBytes 8 mid ++ natToBytes 4 rad ++ natToBytes 4 h

/-- A lane's loaded quad: a pinned one keeps its node, any other is exact or opaque. -/
def eldLane (d : Nat) (a : LaneAcc) (v : Nat) (s : State) : State :=
  let mid := v % 2 ^ 64
  let rad := v / 2 ^ 64 % 2 ^ 32
  let h := v / 2 ^ 96
  let q := readWords mid rad h false
  let pinned := match granuleAt a with
    | some g => smGet false s.team.pins g
    | none => false
  if h / 2 ^ 30 == 2 && pinned then
    let n := h % 2 ^ 30
    putQuad d a.lane q.mid q.rad (handleOfNode n) (some n) s
  else putQuad d a.lane q.mid q.rad (if q.kind = .exact then 0 else 0xC0000000) none s

/-- eld's body: the quads are read and written at once; the load counter falls when they return. -/
def eldBody (w : LaneWord) (act : List Nat) (s : State) : Res State := do
  if act = [] then .ok s
  else
    let accs ← lanesAt s 16 0 (laneAddr s w 16) act
    need (!opFull s .load) (.wait .other)
    withPeers false ((accs.filter isPeer).map (fun a => ⟨a.ptr, .read 16, a.lane⟩)) (fun rep t => do
      let (vals, t1) := readLanes 16 false accs rep (noteAll false accs t)
      match vals.find? (fun x => x.2.2.2) with
      | some x => .error (.trap 0x15 (BitVec.ofNat 64 (vaOf s x.1 x.2.1)))
      | none => .ok ()
      let t2 := (accs.zip vals).foldl (fun u x => eldLane w.d.toNat x.1 x.2.2.2.1 u) t1
      .ok (addOp (newOp t2 .load (.laneLoad []) (pagesOf accs)) t2)) s

/-- eld. -/
def execEld (w : LaneWord) (s : State) : Host.Outcome State Fault Refusal := laneRun (fmtEld w) w (eldBody w) s

/-- The bytes est writes. -/
def estBytes (q : Quad) : List Byte := quadBytes q.mid q.rad (if q.kind = .exact then 0 else 0xC0000000)

/-- est's body. -/
def estBody (w : LaneWord) (act : List Nat) (s : State) : Res State := do
  if act = [] then .ok s
  else
    let accs ← lanesAt s 16 1 (laneAddr s w 16) act
    let data := fun (l : Nat) => estBytes (readQuad s w.c l)
    need (!opFull s .store) (.wait .other)
    withPeers false ((accs.filter isPeer).map (fun a => ⟨a.ptr, .write (data a.lane), a.lane⟩)) (fun _ t =>
      let near := accs.filter (fun a => !isPeer a)
      let t1 := near.foldl (fun u a => wrLoc a.place.loc (data a.lane) u) (noteAll false accs t)
      if near = [] then .ok t1 else .ok (addOp (newOp t1 .store (.store (near.map (·.place.loc))) (pagesOf near)) t1)) s

/-- est. -/
def execEst (w : LaneWord) (s : State) : Host.Outcome State Fault Refusal := laneRun (fmtEst w) w (estBody w) s

/-- The accesses of epin and eunpin: the team scratchpad alone, which is checked in every lane before any lane's alignment.
(DESIGN CHOICE, unsafe: notes/assumptions/60.md) -/
def pinAccs (s : State) (w : LaneWord) (act : List Nat) : Res (List LaneAcc) := do
  match act.find? (fun l => apOf (laneAddr s w 16 l) != 4) with
  | some l => .error (.trap 0x06 (laneAddr s w 16 l))
  | none => lanesAt s 16 1 (laneAddr s w 16) act

/-- Pin a quad in a granule. -/
def pinLane (g : Nat) (q : Quad) (s : State) : State :=
  let s1 := unpin g s
  match q.kind with
  | .graph n =>
    incNode n (onT (fun t => { t with pins := smSet false t.pins g true })
      (spadPut (16 * g) (quadBytes q.mid q.rad (2 ^ 31 + n)) s1))
  | _ => spadPut (16 * g) (estBytes q) s1

/-- Unpin the quad of a granule, if it is pinned. -/
def unpinLane (g : Nat) (s : State) : State :=
  if smGet false s.team.pins g then spadPut (16 * g + 12) (natToBytes 4 0xC0000000) (unpin g s) else s

/-- The body of epin and eunpin: each lane's granule in lane order. -/
def pinBody (w : LaneWord) (f : Nat → Nat → State → State) (act : List Nat) (s : State) : Res State := do
  if act = [] then .ok s
  else
    let accs ← pinAccs s w act
    need (!opFull s .store) (.wait .other)
    let t := accs.foldl (fun u a => match granuleAt a with
      | some g => f a.lane g u
      | none => u) s
    .ok (addOp (newOp t .store (.store (accs.map (·.place.loc))) []) t)

/-- epin. -/
def execEpin (w : LaneWord) (s : State) : Host.Outcome State Fault Refusal :=
  laneRun (fmtEpin w) w (fun act t => pinBody w (fun l g u => pinLane g (readQuad t w.c l) u) act t) s
/-- eunpin. -/
def execEunpin (w : LaneWord) (s : State) : Host.Outcome State Fault Refusal :=
  laneRun (fmtEunpin w) w (pinBody w (fun _ g u => unpinLane g u)) s

end Sys2Proof.Machine
end

