-- ==== Sys2Proof/Machine/Whetstone.lean ====
section
/-! DEFINITION. Certified comparison: level 0 in the lanes, refinement by Whetstone, and its charge (R242, R251 to R255,
R309). -/

namespace Sys2Proof.Machine

/-! ### Enclosures and the conditions of R251 -/

/-- An enclosure at some level: the procedure's UNDEF and WHOLE, or the closed interval of two rationals. -/
inductive EncV where
  | undef
  | whole
  | iv (lo hi : Rat)
  deriving DecidableEq, Repr

/-- The enclosure of a quad at level 0. -/
def quadEnc (q : Quad) : EncV :=
  match quadPair q with
  | some (m, r) => .iv (m - r) (m + r)
  | none => .whole

/-- The table of R251: what two enclosures decide of a condition. -/
def encDecide (cond : Nat) : EncV → EncV → Option Bool
  | .iv xa ya, .iv xb yb =>
    let one := decide (xa = ya) && decide (ya = xb) && decide (xb = yb)
    let apart := decide (ya < xb) || decide (yb < xa)
    match cond with
    | 0 => if one then some true else if apart then some false else none
    | 1 => if apart then some true else if one then some false else none
    | 2 => if ya < xb then some true else if yb ≤ xa then some false else none
    | 3 => if ya ≤ xb then some true else if yb < xa then some false else none
    | 4 => if yb < xa then some true else if ya ≤ xb then some false else none
    | _ => if yb ≤ xa then some true else if ya < xb then some false else none
  | _, _ => none

/-- The answer from exact values. -/
def ratCond (cond : Nat) (a b : Rat) : Bool :=
  match cond with
  | 0 => decide (a = b)
  | 1 => decide (a ≠ b)
  | 2 => decide (a < b)
  | 3 => decide (a ≤ b)
  | 4 => decide (b < a)
  | _ => decide (b ≤ a)

/-! ### Rounding to p bits (R252) -/

/-- RD_p, or RU_p when up. -/
def ratRound (up : Bool) (p : Nat) (x : Rat) : Rat :=
  let n := x.num.natAbs
  if n = 0 then 0
  else
    let neg := decide (x < 0)
    let cut := fun (q : Int) =>
      let num := if q < 0 then n <<< (-q).toNat else n
      let den := if q < 0 then x.den else x.den <<< q.toNat
      (num / den, decide (num % den ≠ 0))
    let q0 : Int := (bitLen n : Int) - bitLen x.den - p
    let q := if 2 ^ p ≤ (cut q0).1 then q0 + 1 else q0
    let (k, rest) := cut q
    let m : Nat := if rest && (up != neg) then k + 1 else k
    ratScale (if neg then -(m : Int) else m) q

/-- A value strictly between the neighbours, far below p bits, of an irrational root; the root itself when rational. -/
def ratRootAt (p : Nat) (x : Rat) : Rat :=
  let n := x.num.natAbs
  if n = 0 then 0
  else
    let e : Int := (bitLen n : Int) - bitLen x.den - 1
    let q : Int := e / 2 - p - 4
    let (num, den) := if q < 0 then (n <<< (2 * (-q).toNat), x.den) else (n, x.den <<< (2 * q.toNat))
    let r := isqrt (num / den)
    if r * r * den = num then ratScale r q else ratScale (2 * r + 1) (q - 1)

/-- The least of a list of rationals after its first. -/
def ratMin (a : Rat) (l : List Rat) : Rat := l.foldl (fun m x => if x < m then x else m) a
/-- The greatest of a list of rationals after its first. -/
def ratMax (a : Rat) (l : List Rat) : Rat := l.foldl (fun m x => if m < x then x else m) a

/-- [RD_p, RU_p] of a lower and an upper bound. -/
def encRound (p : Nat) (lo hi : Rat) : EncV := .iv (ratRound false p lo) (ratRound true p hi)

/-- The enclosure of a sum. -/
def encAdd (p : Nat) (x1 y1 x2 y2 : Rat) : EncV := encRound p (x1 + x2) (y1 + y2)

/-- The enclosure of a product. -/
def encMul (p : Nat) (x1 y1 x2 y2 : Rat) : EncV :=
  let l := [x1 * y2, y1 * x2, y1 * y2]
  encRound p (ratMin (x1 * x2) l) (ratMax (x1 * x2) l)

/-- The enclosure of a quotient. (DEDUCED, unsafe: notes/assumptions/36.md) -/
def encDiv (p : Nat) (x1 y1 x2 y2 : Rat) : EncV :=
  if x2 = 0 ∧ y2 = 0 then .undef
  else if x2 ≤ 0 ∧ 0 ≤ y2 then .whole
  else
    let l := [x1 / y2, y1 / x2, y1 / y2]
    encRound p (ratMin (x1 / x2) l) (ratMax (x1 / x2) l)

/-- The enclosure of a root. -/
def encSqrt (p : Nat) (x1 y1 : Rat) : EncV :=
  if y1 < 0 then .undef
  else .iv (ratRound false p (ratRootAt p (if x1 < 0 then 0 else x1))) (ratRound true p (ratRootAt p y1))

/-! ### Graphs -/

/-- A node as Whetstone reads it: opcode, HASSQRT, the leaf's 64 bits, and its children. -/
structure NodeDat where
  opc : Nat
  sqrt : Bool
  bits : Nat
  kids : List Nat
  deriving DecidableEq, Repr

/-- What the fetch of a node gives: the node, no way to reach it (R252), or bytes that the device did not write
(R242). -/
inductive Fetched where
  | node (d : NodeDat)
  | lost
  | altered
  deriving DecidableEq, Repr

/-- Node bytes as a node. -/
def nodeDat (b : List Byte) : NodeDat where
  opc := (nth 0 b 0).toNat
  sqrt := (nth 0 b 1).toNat % 2 == 1
  bits := bytesToNat ((b.drop 4).take 8)
  kids := nodeKids b

/-- Bytes read for a node, resident or spilled: lost when uncorrectable (DESIGN CHOICE, unsafe: notes/assumptions/64.md),
altered unless they are those the device wrote. -/
def fetchedOf (s : State) (n : Nat) (b : List Byte) (bad : Bool) : Fetched :=
  if bad then .lost
  else if b = nodeImg s.team.log n ∧ nth 0 b 0 ≠ 0 then .node (nodeDat b) else .altered

/-- Read a node wherever it lies; a spilled one through the job slice's translation. failed lists pages whose faults
were answered with fail. A fault that no answer has ended yet is returned. -/
def fetchNode (s : State) (failed : List Nat) (n : Nat) : Except (Nat × XFail) (Fetched × State) :=
  match findSeg s.team.log (n / 256) with
  | none => .ok (.altered, s)
  | some g =>
    if g.spilled then
      let va := slotAddr s g.slot + 16 * (n % 256)
      match homeRead (spillAsker s) va 16 s with
      | .ok (b, bad, t) => .ok (fetchedOf s n b bad, t)
      | .error (.fault k lv pa) =>
        if failed.contains (va / 4096) then .ok (.lost, s) else .error (va, .fault k lv pa)
      | .error _ => .ok (.lost, s)
    else
      let off := logBase s + 4096 * g.slot + 16 * (n % 256)
      .ok (fetchedOf s n (spadRd s off 16) (badAt s.team.spadBad off 16), s)

/-- The nodes below some nodes, children after their parents have been met: a list in which every node stands after
its children, given the nodes met so far. Tasks: visit a node, or put a visited node down. -/
def fetchGraph (failed : List Nat) : Nat → List (Nat ⊕ (Nat × Fetched)) → List Nat → List (Nat × Fetched) → State →
    Except (Nat × XFail) (List (Nat × Fetched) × State)
  | 0, _, _, done, s => .ok (done.reverse, s)
  | _, [], _, done, s => .ok (done.reverse, s)
  | f + 1, .inr x :: r, seen, done, s => fetchGraph failed f r seen (x :: done) s
  | f + 1, .inl n :: r, seen, done, s =>
    if seen.contains n then fetchGraph failed f r seen done s
    else do
      let (x, t) ← fetchNode s failed n
      let kids := match x with
        | .node d => d.kids
        | _ => []
      fetchGraph failed f (kids.map .inl ++ .inr (n, x) :: r) (n :: seen) done t

/-- Tasks enough for every node of the team's log. -/
def graphFuel (s : State) : Nat := 8 * 256 * s.team.log.segs.length + 256

/-! ### Evaluation -/

/-- The value of a leaf. -/
def leafVal (d : NodeDat) : Option Rat :=
  match d.opc with
  | 1 => ratOf fmtF64 d.bits
  | 2 => some (sVal 64 d.bits : Int)
  | 3 => some (d.bits : Int)
  | _ => none

/-- Enc of a node from the enclosures of its children; none for a node that no append makes. -/
def encNode (p : Nat) (d : NodeDat) (k : List EncV) : Option EncV :=
  if d.opc < 16 then (leafVal d).map (fun v => encRound p v v)
  else if k.any (· == .undef) then some .undef
  else if k.any (· == .whole) then some .whole
  else match d.opc, k with
    | 0x10, [.iv x1 y1, .iv x2 y2] => some (encAdd p x1 y1 x2 y2)
    | 0x11, [.iv x1 y1, .iv x2 y2] => some (encRound p (x1 - y2) (y1 - x2))
    | 0x12, [.iv x1 y1, .iv x2 y2] => some (encMul p x1 y1 x2 y2)
    | 0x13, [.iv x1 y1, .iv x2 y2, .iv x3 y3] =>
      match encMul p x1 y1 x2 y2 with
      | .iv lo hi => some (encAdd p lo hi x3 y3)
      | v => some v
    | 0x14, [.iv x1 y1, .iv x2 y2] => some (encDiv p x1 y1 x2 y2)
    | 0x15, [.iv x y] => some (encSqrt p x y)
    | 0x16, [.iv x y] => some (.iv (-y) (-x))
    | _, _ => none

/-- A numerator or denominator above 2^20 bits (R252). -/
def ratBig (x : Rat) : Bool := decide (2 ^ 20 < bitLen x.num.natAbs) || decide (2 ^ 20 < bitLen x.den)

/-- The exact value of a node from those of its children, or the reason that ends the lane; none as for encNode. Of an FMA node
the sum alone is held against the size limit. (DESIGN CHOICE, unsafe: notes/assumptions/60.md)
(DESIGN CHOICE, unsafe: notes/assumptions/64.md) -/
def exactNode (d : NodeDat) (k : List (Except Nat Rat)) : Option (Except Nat Rat) :=
  let fit := fun (x : Rat) => if ratBig x then (.error 3 : Except Nat Rat) else .ok x
  if d.opc < 16 then (leafVal d).map fit
  else match k.findSome? (fun v => match v with
      | .error r => some r
      | .ok _ => none) with
    | some r => some (.error r)
    | none => match d.opc, k with
      | 0x10, [.ok x, .ok y] => some (fit (x + y))
      | 0x11, [.ok x, .ok y] => some (fit (x - y))
      | 0x12, [.ok x, .ok y] => some (fit (x * y))
      | 0x13, [.ok x, .ok y, .ok z] => some (fit (x * y + z))
      | 0x14, [.ok x, .ok y] => some (if y = 0 then .error 5 else fit (x / y))
      | 0x16, [.ok x] => some (fit (-x))
      | _, _ => none

/-- Evaluate nodes in order, children first: the values of all of them; none when a node is altered or names a node
that is not below it. -/
def evalNodes {α : Type} (step : NodeDat → List α → Option α) : List (Nat × Fetched) → List (Nat × α) →
    Option (List (Nat × α))
  | [], acc => some acc
  | (n, .node d) :: r, acc => do
    let ks ← d.kids.mapM (fun k => (acc.find? (fun x => x.1 == k)).map (·.2))
    let v ← step d ks
    evalNodes step r ((n, v) :: acc)
  | _ :: _, _ => none

/-- The value of an operand: a node's among those evaluated, or its exact mid as a value. -/
def rootVal {α : Type} (lift : Rat → α) (q : Quad) (vals : List (Nat × α)) : Option α :=
  match q.kind with
  | .graph n => (vals.find? (fun x => x.1 == n)).map (·.2)
  | _ => (ratOf fmtF64 q.mid).map lift

/-- How a straddling lane ends: a decision or a reason, and the units it costs; free when the graph is one that a
program store left (R242). -/
inductive LaneEnd where
  | decided (b : Bool) (cost : Nat)
  | ended (reason cost : Nat)
  | free
  deriving DecidableEq, Repr

/-- The levels of R252 with the cumulative costs of R254. -/
def levels : List (Nat × Nat) := [(128, 64), (256, 192), (512, 448), (1024, 960), (2048, 1984), (4096, 4032)]

/-- The exact stage: both graphs in rational arithmetic (DEDUCED, unsafe: notes/assumptions/36.md); where several nodes end it,
A's reason goes before B's, and a first child's before a second's. (DESIGN CHOICE, unsafe: notes/assumptions/60.md) -/
def exactStage (cond : Nat) (a b : Quad) (g : List (Nat × Fetched)) : LaneEnd :=
  match evalNodes exactNode g [] with
  | none => .free
  | some vals => match rootVal .ok a vals, rootVal .ok b vals with
    | some (.ok x), some (.ok y) => .decided (ratCond cond x y) 20416
    | some (.error r), _ => .ended r 20416
    | some (.ok _), some (.error r) => .ended r 20416
    | _, _ => .free

/-- HASSQRT of an operand's root node. -/
def rootSqrt (q : Quad) (g : List (Nat × Fetched)) : Bool :=
  match q.kind with
  | .graph n => g.any (fun x => x.1 == n && match x.2 with
    | .node d => d.sqrt
    | _ => false)
  | _ => false

/-- Refine a straddling lane at one level after another. (DEDUCED, unsafe: notes/assumptions/36.md) -/
def refineLane (cond : Nat) (a b : Quad) (g : List (Nat × Fetched)) : List (Nat × Nat) → LaneEnd
  | [] => if rootSqrt a g || rootSqrt b g then .ended 2 4032 else exactStage cond a b g
  | (p, cost) :: r =>
    match evalNodes (encNode p) g [] with
    | none => .free
    | some vals => match rootVal (fun m => .iv m m) a vals, rootVal (fun m => .iv m m) b vals with
      | some x, some y =>
        if x = .undef ∨ y = .undef then .ended 5 cost
        else match encDecide cond x y with
          | some v => .decided v cost
          | none => refineLane cond a b g r
      | _, _ => .free

/-- The node of an operand, if it has one. -/
def quadNodes (q : Quad) : List Nat :=
  match q.kind with
  | .graph n => [n]
  | _ => []

/-- A straddling lane's whole refinement, its nodes being fetched on demand; a fault not yet answered is returned. -/
def refineOne (failed : List Nat) (cond : Nat) (a b : Quad) (s : State) : Except (Nat × XFail) (LaneEnd × State) := do
  let (g, t) ← fetchGraph failed (graphFuel s) ((quadNodes a ++ quadNodes b).map .inl) [] [] s
  if g.any (fun x => x.2 == .altered || s.team.log.tainted.contains x.1) then .ok (.free, t)
  else if g.any (fun x => x.2 == .lost) then .ok (.ended 4 64, t)
  else .ok (refineLane cond a b g levels, t)

/-! ### ecmp (R251) -/

/-- The condition of an ecmp. -/
def ecmpCond (w : LaneWord) : Nat := laneX w % 8

/-- What level 0 decides in each active lane. -/
def levelZero (s : State) (w : LaneWord) (act : List Nat) : List (Nat × Option Bool) :=
  act.map (fun l => (l, encDecide (ecmpCond w) (quadEnc (readQuad s w.a l)) (quadEnc (readQuad s w.b l))))

/-- The lanes that straddle. -/
def straddling (s : State) (w : LaneWord) (act : List Nat) : List Nat :=
  ((levelZero s w act).filter (fun x => x.2.isNone)).map (·.1)

/-- An operand is opaque in a lane. -/
def looseAt (s : State) (w : LaneWord) (l : Nat) : Bool :=
  (readQuad s w.a l).kind == .loose || (readQuad s w.b l).kind == .loose

/-- trap.info of 0x0C (R253). -/
def undecided (reason undec : Nat) : W64 := BitVec.ofNat 64 (2 ^ 32 * reason + undec)

/-- ecmp's body: an opaque straddle traps; with other straddling lanes the gang begins to wait in refinement. -/
def ecmpBody (w : LaneWord) (act : List Nat) (s : State) : Res State := do
  let z := levelZero s w act
  let loose := (straddling s w act).filter (looseAt s w)
  need (loose == []) (.trap 0x0C (undecided 1 (lanesMask loose)))
  if z.all (fun x => x.2.isSome) then .ok (z.foldl (fun t x => wrP w.d.toNat x.1 (x.2.getD false) t) s)
  else .ok (modRun (modHead (fun g => { g with wait := .refine w [] })) s)

/-- ecmp retires once it is decided; while it refines, the crew's other gangs go on outside deterministic mode. -/
def ecmpFin (g : Gang) (s : State) : State :=
  match headGang s with
  | some (_, h) => match h.wait with
    | .refine _ _ => if isDet s then s else modRun rotate s
    | _ => laneNext g s
  | none => s

/-- ecmp. -/
def execEcmp (w : LaneWord) (s : State) : Host.Outcome State Fault Refusal :=
  laneIssue (fmtEcmp w) w 0 (ecmpBody w) ecmpFin s

/-! ### WHETSTONE_DECIDE (R252 to R254) -/

/-- Change the gang that refines. -/
def modRefine (f : Gang → Gang) (s : State) : State :=
  modRun (fun r => { r with gangs := r.gangs.map (fun g => match g.wait with
    | .refine _ _ => f g
    | _ => g) }) s

/-- Refine lanes in order. -/
def refineAll (failed : List Nat) (w : LaneWord) : List Nat → State →
    Except (Nat × XFail) (List (Nat × LaneEnd) × State)
  | [], s => .ok ([], s)
  | l :: r, s => do
    let (e, t) ← refineOne failed (ecmpCond w) (readQuad s w.a l) (readQuad s w.b l) s
    let (es, u) ← refineAll failed w r t
    .ok ((l, e) :: es, u)

/-- The units a lane costs; a lane whose outcome is free costs some level's (R242). -/
def endCost (pick : Nat) : LaneEnd → Nat
  | .decided _ c => c
  | .ended _ c => c
  | .free => nth 64 [64, 192, 448, 960, 1984, 4032, 20416] (pick % 7)

/-- The units that lanes cost together, a free value chosen for each lane whose outcome is free.
(DESIGN CHOICE, safe: notes/assumptions/2.md) -/
def endCosts : List (Nat × LaneEnd) → State → Nat × State
  | [], s => (0, s)
  | (_, .free) :: r, s =>
    let (v, t) := takeFree s
    let (c, u) := endCosts r t
    (endCost v.toNat .free + c, u)
  | (_, e) :: r, s =>
    let (c, u) := endCosts r s
    (endCost 0 e + c, u)

/-- The outcome of a comparison: what pD becomes in each active lane, or trap.info of 0x0C. -/
abbrev EcmpEnd := Except W64 (List (Nat × Bool))

/-- The outcome from the lanes' ends. (DEDUCED, unsafe: notes/assumptions/36.md) -/
def ecmpEnd (s : State) (w : LaneWord) (act : List Nat) (ends : List (Nat × LaneEnd)) : EcmpEnd :=
  let out := ends.filterMap (fun x => match x.2 with
    | .ended r _ => some (x.1, r)
    | _ => none)
  match out with
  | (_, r) :: _ => .error (undecided r (lanesMask (out.map (·.1))))
  | [] => .ok ((levelZero s w act).map (fun x => (x.1, match x.2 with
    | some b => b
    | none => match ends.find? (fun e => e.1 == x.1) with
      | some (_, .decided b _) => b
      | _ => false)))

/-- The free outcome of R242: any predicate values, or the trap with any reason of 1 to 5 and any lanes.
(DESIGN CHOICE, safe: notes/assumptions/2.md) -/
def ecmpFree (act : List Nat) (v u : W64) : EcmpEnd :=
  if v.getLsbD 63 then .error (undecided (1 + fld v 39 32 % 5) (fld v 31 0))
  else .ok (act.map (fun l => (l, u.getLsbD l)))

/-- A trap of an ecmp that refines, at its issue address: it charges when it is entered. It comes once the returning values
are in; a deferred trap goes first, and the ecmp issues again (R254, R370).
(DEDUCED, unsafe: notes/assumptions/28.md) -/
def refineTrap (cause : Nat) (info : W64) (g : Gang) (mask : W64) (pay : State → State) (s : State) : State :=
  let s1 := settleLoads s
  if returnsOut s1.crew then s1
  else trapLane cause info g.pc mask g.members (if firstTrap s1.crew = none then pay s1 else s1)

/-- Whetstone has finished: charge, then write pD in every active lane and advance, or trap. -/
def refineEnd (w : LaneWord) (g : Gang) (act : List Nat) (cost : Nat) (e : EcmpEnd) (s : State) : State :=
  let owner := findJob s s.job.budgetOwner
  let spent := owner.any (fun o => o.rcd.budget != 0 && decide (o.rcd.budget.toNat + o.extended - chargedSeen s o < cost))
  let total := match owner with
    | some o => chargedSeen s o
    | none => 0
  let mask := BitVec.ofNat 64 (lanesMask act)
  if spent then refineTrap 0x0A (BitVec.ofNat 64 total) g mask id s
  else match e with
    | .error info => refineTrap 0x0C info g mask (fun t => useSlot (charge cost t)) s
    | .ok l =>
      laneSettle (retire (modRefine (fun h => { h with wait := .ready, pc := h.pc + 12 })
        (l.foldl (fun t x => wrP w.d.toNat x.1 x.2 t) (charge cost s))))

/-- The gang of the crew in focus that refines. -/
def refining (s : State) : Option (ARun × Gang × LaneWord × List Nat) :=
  (curRun s.crew).bind (fun r => r.gangs.findSome? (fun g => match g.wait with
    | .refine w l => some (r, g, w, l)
    | _ => none))

/-- A fault of a spill fetch makes a record of source 5 and the refinement waits for the answer (R285). -/
def refineFault (va : Nat) (e : XFail) (s : State) : State :=
  match e with
  | .fault k lv pa => engineFault (fun _ => false) 5 (BitVec.ofNat 64 va) k lv pa 0 s
  | _ => s

/-- Whetstone finishes the refinement of the crew in focus. (DESIGN CHOICE, safe: notes/assumptions/2.md) -/
def decideNow (s : State) : State :=
  match refining s with
  | none => s
  | some (r, g, w, failed) =>
    let act := activeLanes s r g w
    match refineAll failed w (straddling s w act) s with
    | .error (va, e) => refineFault va e s
    | .ok (ends, t) =>
      if ends.any (fun x => x.2 == .free) then
        let (v, t1) := takeFree t
        let (u, t2) := takeFree t1
        let (cost, t3) := endCosts ends t2
        refineEnd w g act cost (ecmpFree act v u) t3
      else
        refineEnd w g act ((ends.map (fun x => endCost 0 x.2)).foldl (· + ·) 0) (ecmpEnd s w act ends) t

/-- WHETSTONE_DECIDE. -/
def execWhetstoneDecide (k : CrewKey) (s : State) : Host.Outcome State Fault Refusal := .next (onCrew k decideNow s)

end Sys2Proof.Machine
end

