-- ==== Sys2Proof/Machine/Ready.lean ====
section
/-! DEFINITION. Whether a crew could issue, and yield, which asks it of the pending set (R40, R119, R314). -/

namespace Sys2Proof.Machine

/-- The scalar instruction at the program counter of the crew in focus, when it can be fetched and decoded (R42, R43). -/
def nextScalar (s : State) : Option Instr :=
  match fetchBytes false s s.crew.sc.pc 4 with
  | .error _ => none
  | .ok b =>
    let w0 := BitVec.ofNat 32 (bytesToNat b)
    if isLong w0 then
      match fetchBytes false s (s.crew.sc.pc + 4) 4 with
      | .ok b2 => decodeScalar w0 (BitVec.ofNat 32 (bytesToNat b2))
      | .error _ => none
    else decodeScalar w0 0

/-- What an instruction that can wait without a name for what it waits for would do now; the others would go on. -/
def retried (i : Instr) (s : State) : Host.Outcome State Fault Refusal :=
  match i with
  | .lrun k => execLrun k s
  | .lrunFar k => execLrunFar k s
  | .lrunFarReg a k => execLrunFarReg a k s
  | .lwait => execLwait s
  | .lwaitLe n => execLwaitLe n s
  | .exit => execExit s
  | .resume => execResume s
  | .spawnTry c a b => execSpawnTry c a b s
  | .graft a => execGraft a s
  | .ld d a w o => execLd d a w o s
  | .ldRo d a w o => execLdRo d a w o s
  | .st d a w o => execSt d a w o s
  | .amo d a b o w z => execAmo d a b o w z s
  | .fence o z => execFence o z s
  | .ewait n c => execEwait n c s
  | .cpIssue d a => execCpIssue d a s
  | .cpIssueBar d a b => execCpIssueBar d a b s
  | .cpIssueRing d a => execCpIssueRing d a s
  | .hClaim d => execHClaim d s
  | .hRelease d => execHRelease d s
  | .hTry d c => execHTry d c s
  | .hRclaim a => execHRclaim a s
  | .barMark b => execBarMark b s
  | .barMeet b => execBarMeet b s
  | .barHold p b => execBarHold p b s
  | .qPush a b z => execQPush a b z s
  | .qPushTry c a b z => execQPushTry c a b z s
  | .qPop d a z => execQPop d a z s
  | .qPopTry d a c z => execQPopTry d a c z s
  | .matWload a b => execMatWload a b s
  | .accFree d n => execAccFree d n s
  | .matZeroFx d a => execMatZeroFx d a s
  | .matZeroFp d => execMatZeroFp d s
  | .matDrain d a b => execMatDrain d a b s
  | .mloop d a rm fmt f k => execMloop d a rm fmt f k s
  | .spTload t a => execSpTload t a s
  | .spTstat d t => execSpTstat d t s
  | .spPart d a b => execSpPart d a b s
  | .spTmul d a t r => execSpTmul d a t r s
  | .irEnd => execIrEnd s
  | .tabLoad c a b => execTabLoad c a b s
  | .detDigest d a => execDetDigest d a s
  | .fxPut a => execFxPut a s
  | .fxPutSet a b => execFxPutSet a b s
  | .fxPutAdd a b => execFxPutAdd a b s
  | .fxGet a => execFxGet a s
  | .fxSignalSet a b => execFxSignalSet a b s
  | .fxSignalAdd a b => execFxSignalAdd a b s
  | .fxWait a b => execFxWait a b s
  | .fxWaitTry c a b => execFxWaitTry c a b s
  | .fxReduce a => execFxReduce a s
  | _ => .next (onC (fun c => { c with wait := .none }) s)

/-- The scalar instruction that a crew waits at would only wait again: an operation of it, a lane run or room for one is
still awaited. -/
def stillWaits (s : State) (c : Crew) : Bool :=
  match (focus c.key s).bind (fun t => (nextScalar t).map (fun i => retried i t)) with
  | some (.next u) => u.crew.wait == .other || u.crew.wait == .lanes
  | _ => false

/-- The wait of a crew is over once it issues again; the others end when what they wait for comes. -/
def waitOver (s : State) (c : Crew) : Bool :=
  match c.wait with
  | .none => true
  | .other | .lanes => !stillWaits s c
  | .handleFree h => handleAt s c.key h == some .free
  | .handleFull h _ _ => handleAt s c.key h == some .full
  | .qPush q =>
    if 2 ^ 15 ≤ q then decide ((sliceQ s (q % 64)).recs.length < qCap (sliceQ s (q % 64)).qctl)
    else decide ((dataQ s q).entries.length < qCap (dataQ s q).ctl)
  | .qPop q => !(dataQ s q).entries.isEmpty
  | .remote => !c.ops.any (fun o => match o.kind with
      | .remote false _ got => remLive got
      | _ => false)
  | _ => false

/-- A crew can issue (R40, R119): it lives, is not parked nor in cp.yield, and one of its streams is not blocked. -/
def crewReady (s : State) (c : Crew) : Bool :=
  let yielded := match c.wait with
    | .cpYield _ _ => true
    | _ => false
  c.status != .complete && c.park.isNone && !yielded &&
    (laneReady c || (c.status == .running && !heldAmo c && waitOver s c))

/-- A ready crew waits in the pending set of the core of the crew in focus (R314). -/
def pendingReady (s : State) : Bool :=
  (coreCrews s (coreOf s)).any (fun c => !c.active && crewReady s c && c.key != s.crew.key)

/-- yield (R119): offers the issue slot while a ready crew is pending; nothing in deterministic mode. -/
def execYield (s : State) : Host.Outcome State Fault Refusal :=
  run (fun t => .ok (if !isDet t && pendingReady t then onC (fun c => { c with offered := true }) t else t)) s

end Sys2Proof.Machine
end

