-- ==== Sys2Proof/Machine/EventMem.lean ====
section
/-! DEFINITION. Events of operations in flight: returning values, performed stores, atomics, gathers and scatters, copies,
cache maintenance, translation acknowledgements, the walker and spills (R97, R182, R184, R187, R195, R201, R202, R213,
R237, R239, R257, R262, R280 to R282). -/

namespace Sys2Proof.Machine

/-! ### Returning values -/

/-- A lane's values arrive in their registers: entries (32 × register + lane, value). -/
def landRegs (ws : List (Nat × W32)) (s : State) : State :=
  ws.foldl (fun t x => wrV (x.1 / 32) (x.1 % 32) x.2.toNat t) s

/-- A load of either stream. -/
def isLoadOp (o : Op) : Bool :=
  match o.kind with
  | .load _ _ _ _ | .laneLoad _ => true
  | _ => false

/-- The oldest load of the crew in focus returns, unless an older sp.part goes before it (R182). -/
def loadBack (s : State) : State :=
  match findOp s isLoadOp with
  | some o =>
    if !inOrder s.crew o then s
    else match o.kind with
      | .load d v bad va => deliverLoad d v bad va (endOp isLoadOp s)
      | .laneLoad ws => landRegs ws (endOp isLoadOp s)
      | _ => s
  | none => s

/-- LOAD_RETURN (R97). (DESIGN CHOICE, unsafe: notes/assumptions/7.md) -/
def execLoadReturn (k : CrewKey) (s : State) : Host.Outcome State Fault Refusal := .next (onCrew k loadBack s)

/-- A gather. -/
def isGather (o : Op) : Bool :=
  match o.kind with
  | .gather _ => true
  | _ => false

/-- The oldest gather of the crew in focus is complete. -/
def gatherBack (s : State) : State :=
  match findOp s isGather with
  | some o => match o.kind with
    | .gather ws => landRegs ws (endOp isGather s)
    | _ => s
  | none => s

/-- GATHER_COMPLETE (R257). (DESIGN CHOICE, unsafe: notes/assumptions/7.md) -/
def execGatherComplete (k : CrewKey) (s : State) : Host.Outcome State Fault Refusal := .next (onCrew k gatherBack s)

/-- The oldest sp.part of the crew in focus finishes: nothing while the crew is parked on one of its searches, or while an
older load is out (R182). -/
def partNext (s : State) : State :=
  match findOp s isPartOp with
  | some o => if s.crew.park.isSome || !(inOrder s.crew o || parkedPart o) then s else partDo s
  | none => s

/-- SP_PART_COMPLETE (R262). -/
def execSpPartComplete (k : CrewKey) (s : State) : Host.Outcome State Fault Refusal := .next (onCrew k partNext s)

/-! ### Stores, scatters and scatter-adds -/

/-- A plain store. -/
def isStoreOp (o : Op) : Bool :=
  match o.kind with
  | .store _ => true
  | _ => false

/-- A line of an L1 holds a place of an HWC or SWC page. -/
def holdsPlace (x : L1Line) (l : Loc) : Bool :=
  match l with
  | .phys pa 0 => x.kind == .hwc && x.line == pa / 128
  | .phys pa 1 => x.kind == .swc && x.line == pa / 128
  | _ => false

/-- The lines of a store that the core's L1 holds go home, so that the store is performed at device scope (R172, R182).
(DESIGN CHOICE, unsafe: notes/assumptions/7.md) -/
def storeHome (l : List Loc) (s : State) : State :=
  let p := fun (x : L1Line) => x.core == coreOf s && l.any (holdsPlace x)
  if s.l1.any p then wbLines p false s else s

/-- The oldest store of the crew in focus is performed at device scope, unless an older atomic goes before it (R182). -/
def storeDone (s : State) : State :=
  match findOp s isStoreOp with
  | some o => match o.kind with
    | .store l => if inOrder s.crew o then endOp isStoreOp (storeHome l s) else s
    | _ => s
  | none => s

/-- STORE_PERFORMED (R182). (DESIGN CHOICE, unsafe: notes/assumptions/7.md) -/
def execStorePerformed (k : CrewKey) (s : State) : Host.Outcome State Fault Refusal := .next (onCrew k storeDone s)

/-- A plain scatter. -/
def isScatter (o : Op) : Bool :=
  match o.kind with
  | .scatter _ => true
  | _ => false

/-- The oldest plain scatter of the crew in focus is performed at device scope, unless an older scatter-add goes before
it (R182, R257). -/
def scatterDone (s : State) : State :=
  match findOp s isScatter with
  | some o => match o.kind with
    | .scatter l => if inOrder s.crew o then endOp isScatter (storeHome l s) else s
    | _ => s
  | none => s

/-- SCATTER_PERFORMED (R257). (DESIGN CHOICE, unsafe: notes/assumptions/7.md) -/
def execScatterPerformed (k : CrewKey) (s : State) : Host.Outcome State Fault Refusal := .next (onCrew k scatterDone s)

/-- A scatter-add. -/
def isScatAdd (o : Op) : Bool :=
  match o.kind with
  | .scatAdd _ => true
  | _ => false

/-- A contribution as an atomic (R195). -/
def addAmo (x : ScatAdd) : AmoOp := ⟨addOpCode x, tyWidth x.ty / 8, x.va, x.loc, x.val, 0, x.lane, 0, 0⟩

/-- A contribution is added at its home; uncorrectable data there pends the deferred trap of R316, outside deterministic mode
too. (DESIGN CHOICE, unsafe: notes/assumptions/64.md) -/
def addApply (x : ScatAdd) (s : State) : State :=
  match amoDo (addAmo x) s with
  | (some _, _, t) => t
  | (none, _, t) => pendTrap 0x15 x.va .sieve t

/-- The next contribution of the oldest scatter-add of the crew in focus is applied. -/
def scatAddNext (s : State) : State :=
  match findOp s isScatAdd with
  | some o =>
    if !inOrder s.crew o then s
    else match o.kind with
      | .scatAdd (x :: r) =>
        let t := addApply x s
        if r = [] then endOp isScatAdd t else modOp isScatAdd (fun q => { q with kind := .scatAdd r }) t
      | .scatAdd [] => endOp isScatAdd s
      | _ => s
  | none => s

/-- SCATTER_ADD_APPLY (R195). -/
def execScatterAddApply (k : CrewKey) (s : State) : Host.Outcome State Fault Refusal := .next (onCrew k scatAddNext s)

/-! ### Atomics (R184, R193, R196) -/

/-- An atomic of either stream. -/
def isAmoOp (o : Op) : Bool :=
  match o.kind with
  | .amo _ | .vamo _ _ => true
  | _ => false

/-- The acquire part of an atomic. -/
def amoAcquire (acq : Nat) (s : State) : State := if 2 ≤ acq then acquireLines s else s

/-- A scalar atomic executes and its old value returns; uncorrectable data makes the deferred trap of R97. -/
def amoBack (a : AmoOp) (s : State) : State :=
  match amoDo a s with
  | (some old, f, t) => amoAcquire a.acq (wrS a.dest (BitVec.ofNat 64 old) (addFlags f t))
  | (none, _, t) => pendTrap 0x15 a.va (.touch [a.dest]) t

/-- Perform the lanes of a vamo in order: (lane, old value, flags). -/
def vamoLanes : List AmoOp → State → List (Nat × Nat × Flags) × State
  | [], s => ([], s)
  | a :: r, s =>
    let (old, f, t) := amoDo a s
    let (l, u) := vamoLanes r t
    ((a.lane, old.getD 0, f) :: l, u)

/-- The gang that issued the crew's last lane instruction: the last in the rotation. -/
def lastGang (s : State) : Option Gang := (curRun s.crew).bind (fun r => r.gangs.getLast?)

/-- A vamo executes: old values into its destination; or, when a lane's data is uncorrectable, the precise trap 0x15 with
no lane performed and none written (R166, R189). -/
def vamoBack (l : List AmoOp) (d : Nat) (s : State) : State :=
  let n := match l with
    | a :: _ => a.n
    | [] => 4
  let acq := match l with
    | a :: _ => a.acq
    | [] => 0
  match l.find? (fun a => amoBad a s), lastGang s with
  | some a, some g => trapLane 0x15 a.va (g.pc - 12) (BitVec.ofNat 64 (lanesMask (l.map (·.lane)))) g.members s
  | some _, none => s
  | none, _ =>
    let (res, t) := vamoLanes l s
    amoAcquire acq (amoResults d n res t)

/-- The oldest atomic of the crew in focus executes at its home, unless an older store goes before it (R182). -/
def amoNext (s : State) : State :=
  match findOp s isAmoOp with
  | some o =>
    if !inOrder s.crew o then s
    else match o.kind with
      | .amo a => amoBack a (endOp isAmoOp s)
      | .vamo l d => vamoBack l d (endOp isAmoOp s)
      | _ => s
  | none => s

/-- AMO_EXECUTE (R184). -/
def execAmoExecute (k : CrewKey) (s : State) : Host.Outcome State Fault Refusal := .next (onCrew k amoNext s)

/-! ### Engine accesses to virtual ranges -/

/-- An engine's write held under R290 waits in the cluster's merge table. -/
def engineHold (p : Op → Bool) (source : Nat) (va : W64) (frame : Nat) (s : State) : State :=
  let mk := mkMerge s.job (clusterOf (coreOf s)) true va.toNat (fld va 55 12) 0 4 frame 1 source
  match joinMerge mk [engineWaiter p source va s] s with
  | none => s
  | some (_, t) => startCollapse frame (modOp p (fun o => { o with held := true, collapse := true }) t)

/-! ### Copies (R201, R202, R281) -/

/-- Read one row of a copy. -/
def copyGet (p : W64) (n : Nat) (s : State) : Except (Nat × XFail) (List Byte × Bool × State) :=
  if isSpad p then .ok (spadRd s (fld p 19 0) n, badAt s.team.spadBad (fld p 19 0) n, s)
  else readVa (engineAsker .copy s) (fld p 55 0) n s

/-- Write one row of a copy. -/
def copyPut (p : W64) (bytes : List Byte) (s : State) : Except (Nat × XFail) State :=
  if isSpad p then .ok (spadWr (fld p 19 0) bytes s) else writeVa (engineAsker .copy s) none (fld p 55 0) bytes s

/-- Pointers of the rows of a side. (DEDUCED, unsafe: notes/assumptions/35.md) -/
def rowPtrs (p : W64) (stride : Int) (rows : Nat) : List W64 :=
  (List.range rows).map (fun r => BitVec.ofInt 64 (rowAt p stride r))

/-- Why a copy cannot go on: a fault or hold with its access code, or an error with its cause. -/
inductive CopyStop where
  | wait (va access : Nat) (e : XFail)
  | err (cause : Nat)
  deriving DecidableEq, Repr

/-- A failed translation of a copy. -/
def copyFail (access : Nat) (x : Nat × XFail) : CopyStop :=
  match x.2 with
  | .world => .err 0x09
  | .bad => .err 0x15
  | e => .wait x.1 access e

/-- Move every byte of a copy: all source bytes are read before any is written.
(DEDUCED, unsafe: notes/assumptions/35.md) -/
def copyMove (c : CopyOp) (s : State) : Except CopyStop State := do
  let (rows, bad, t) ← (rowPtrs c.src c.sstride c.rows).foldlM (fun (acc : List (List Byte) × Bool × State) p =>
    match copyGet p c.len acc.2.2 with
    | .ok (b, e, u) => .ok (acc.1 ++ [b], acc.2.1 || e, u)
    | .error x => .error (copyFail 0 x)) ([], false, s)
  if bad then .error (.err 0x15)
  else ((rowPtrs c.dst c.dstride c.rows).zip rows).foldlM (fun u x => match copyPut x.1 x.2 u with
    | .ok v => .ok v
    | .error e => .error (copyFail 1 e)) t

/-- The physical lines a copy writes. -/
def copyLines (c : CopyOp) (s : State) : List Nat :=
  if isSpad c.dst then []
  else (rowPtrs c.dst c.dstride c.rows).flatMap (fun p => physLines s (crewAsker s) (fld p 55 0) c.len)

/-- The first copy is complete: its handle becomes full, the counter falls, and its barrier is credited. -/
def copyEnd (c : CopyOp) (s : State) : State :=
  let s1 := handleFilled c.handle (endOp isCopy s)
  match c.bar with
  | some b => barUpdate b (fun x =>
      { x with pend := x.pend - c.rows * c.len, touched := true, copies := x.copies - 1 }) s1
  | none => s1

/-- The first copy goes on: its bytes move, and it is complete once no acknowledgement is outstanding.
(DEDUCED, unsafe: notes/assumptions/35.md) -/
def copyGo (c : CopyOp) (s : State) : State :=
  match c.moved with
  | some l => if awaitsAck l s then s else copyEnd c s
  | none => match copyMove c s with
    | .ok t =>
      let l := copyLines c t
      if awaitsAck l t then modOp isCopy (fun o => { o with kind := .copy { c with moved := some l } }) t else copyEnd c t
    | .error (.wait va acc (.fault k lv pa)) => engineFault isCopy 1 (ptrAt (if acc = 0 then c.src else c.dst) va) k lv pa acc s
    | .error (.wait va _ (.held f)) => engineHold isCopy 1 (ptrAt c.dst va) f s
    | .error _ => s

/-- The first copy of the crew in focus goes on unless an answer is awaited. -/
def copyNext (s : State) : State :=
  match firstCopy s with
  | some (o, c) => if o.held then s else copyGo c s
  | none => s

/-- COPY_COMPLETE (R201). -/
def execCopyComplete (k : CrewKey) (s : State) : Host.Outcome State Fault Refusal := .next (onCrew k copyNext s)

/-- The first copy of the crew in focus meets a world violation or uncorrectable data of a cause and is abandoned. -/
def copyGiveUp (cause : Nat) (s : State) : State :=
  match firstCopy s with
  | some (o, c) =>
    if o.held || c.moved.isSome then s
    else match copyMove c s with
      | .error (.err x) => if x = cause then abandonCopy cause s else s
      | _ => s
  | none => s

/-- COPY_ABANDON (R202); the fail answer to a copy's fault abandons it at FRESP_FAIL. -/
def execCopyAbandon (k : CrewKey) (cause : Nat) (s : State) : Host.Outcome State Fault Refusal :=
  .next (onCrew k (copyGiveUp cause) s)

/-! ### Cache maintenance (R213) -/

/-- The cmo of the crew in focus is complete. -/
def cmoDone (s : State) : State :=
  match s.crew.cmo with
  | some x =>
    if s.crew.wait = .cmo then finish (s.crew.sc.pc + 4) (onC (fun c => { c with cmo := none }) (cmoApply x s)) else s
  | none => s

/-- CMO_COMPLETE. -/
def execCmoComplete (k : CrewKey) (s : State) : Host.Outcome State Fault Refusal := .next (onCrew k cmoDone s)

/-! ### Acknowledgements (R187, R280, R282, R316) -/

/-- A crew's accesses are translated as a holder's entries are. -/
def sameSpace (s : State) (e : TlbEntry) (c : Crew) : Bool :=
  match findJob s c.key.job with
  | some j => asidOf j.root == e.asid && j.secure == e.secure
  | none => false

/-- A lane access of the gather and scatter engine. -/
def isGatherOp (o : Op) : Bool := o.cls == .gather || o.cls == .scatter

/-- A held scatter-add. -/
def isAddEntry (e : SieveEntry) : Bool :=
  match e.kind with
  | .add _ => true
  | _ => false

/-- A crew of the holder's core issued, under a cached translation, an access that is not performed. -/
def usesTlb (s : State) (e : TlbEntry) (c : Crew) : Bool :=
  crewOn s e.unit c && c.ops.any (fun o => isGatherOp o == (e.kind == .gather) && o.pages.contains e.page)

/-- The Sieve holds an entry, of a crew on this core or gone from it, that was translated as this entry says (R316). -/
def sieveUses (e : TlbEntry) (c : Crew) : Bool :=
  c.sieve.any (fun x => isAddEntry x == (e.kind == .gather) && sievePage x == some e.page)

/-- The holder of a translation has performed every access it began under it: the accesses of engines are performed as they
are translated, those of crews wait in flight or in the Sieve (R280, R316).
(DESIGN CHOICE, unsafe: notes/assumptions/9.md) -/
def ackReady (s : State) (e : TlbEntry) : Bool :=
  match e.kind with
  | .core | .gather => !(allCrews s).any (fun c => sameSpace s e c && (usesTlb s e c || sieveUses e c))
  | _ => true

/-- Acknowledgements arrive: the translations they answer for are gone, and host writes that waited for them alone are
complete (R281, R282). -/
def dropAcks (p : TlbEntry → Bool) (s : State) : State :=
  let l := s.tlbs.filter (fun e => !p e)
  onDev (fun d => { d with
    asidinv := d.asidinv.filter (fun a => l.any (fun x => x.stale && x.inval && x.asid == a))
    hostLines := d.hostLines.filter (fun n => l.any (fun x => x.stale && x.lines.contains n)) }) { s with tlbs := l }

/-- TRANSLATION_ACK: a holder acknowledges the invalidation of entry i of those cached.
(DESIGN CHOICE, unsafe: notes/assumptions/9.md) -/
def execTranslationAck (i : Nat) (s : State) : Host.Outcome State Fault Refusal :=
  .next (match s.tlbs[i]? with
    | some e => if e.stale && ackReady s e then dropAcks (· == e) s else s
    | none => s)

/-! ### The graph log's background work (R237, R239) -/

/-- Do something with a team in focus. -/
def onTeam (job team : Nat) (f : State → State) (s : State) : State := onCrew ⟨job, team, 0⟩ f s

/-- The spill slot that the walker's next piece of work lies in. -/
def walkerVa (s : State) : Nat :=
  let n := match s.team.log.pend with
    | (n, _) :: _ => n
    | [] => match s.team.log.zeros with
      | n :: _ => n
      | [] => 0
  match findSeg s.team.log (n / 256) with
  | some g => slotAddr s g.slot + 16 * (n % 256)
  | none => 0

/-- WALKER_RECLAIM: nothing while a reclamation waits for an answer. -/
def execWalkerReclaim (job team : Nat) (s : State) : Host.Outcome State Fault Refusal :=
  .next (onTeam job team (fun t => if waitsIo t (.walker job team) then t else match walkerStep t with
    | some (.ok u) => u
    | some (.error e) => contextFail (.walker job team) (walkerVa t) 1 e t
    | none => t) s)

/-- SEGMENT_SPILL_COMPLETE. -/
def execSegmentSpillComplete (job team : Nat) (s : State) : Host.Outcome State Fault Refusal :=
  .next (onTeam job team (fun t => match t.team.log.spilling with
    | some id => if waitsIo t (.context job team) then t else match spillSeg id t with
      | .ok u => u
      | .error e => contextFail (.context job team)
          (slotAddr t ((lowestFree (spillSlots t.team.spillsz) (slotsUsed t.team.log)).getD 0)) 1 e t
    | none => t) s)

end Sys2Proof.Machine
end

