-- ==== Sys2Proof/Machine/EventEngine.lean ====
section
/-! DEFINITION. Events of the matrix engine, Espalier, the solve unit, vedge deliveries, lane runs, and the fabric
(R111, R149, R150, R218, R220 to R232, R267, R268, R340, R342, R343, R346, R347, R350 to R352). -/

namespace Sys2Proof.Machine

/-! ### The matrix engine -/

/-- The bytes that an operation of the engine reads and writes, as offsets and lengths: of the scratchpad, read and written,
and of the weight space, read and written. An mloop's A rows and a tile product's dense rows stand as the range that they lie
in; a tile product that may read its values from the scratchpad stands for all of it.
(DEDUCED, safe: notes/assumptions/48.md) -/
def footprint (s : State) (k : CrewKey) (o : Op) : List (Nat × Nat) × List (Nat × Nat) × List (Nat × Nat) × List (Nat × Nat) :=
  match o.kind with
  | .mloop m =>
    let a := (m.aptr : Int) + m.done * m.ainc
    let z := (m.aptr : Int) + (m.count - 1 : Nat) * m.ainc
    let lo := (min a z).toNat
    ([(lo, (max a z).toNat + (shRows m.f - 1) * m.astride + mChunk m.fmt - lo)], [],
      ((focus k s).map (fun t => mloopReads t m)).toList, [])
  | .mdrain d => ([], ((findCrew s k).map (fun c => drainRange c d)).toList, [], [])
  | .wload src woff hdr len => ((loadSource src hdr len).toList, [], [], [(woff, len)])
  | .tmul t =>
    let tile := match (focus k s).bind (fun u => espFind u t.bind.addr t.bind.gen) with
      | some e => isSpad e.vptr
      | none => true
    ((t.dptr, 63 * t.dstride + denseRow t.bind.efmt) :: (if tile then [(0, 2 ^ 20)] else []), [], [], [])
  | _ => ([], [], [], [])

/-- Some range of one list overlaps one of another. -/
def meet (a b : List (Nat × Nat)) : Bool := a.any (fun x => b.any (fun y => overlaps x.1 x.2 y.1 y.2))

/-- An operation of the same team that an earlier one of the engine's order, not performed yet, holds back: the result would
not be that of the sequential order, for one of them writes what the other reads or writes (R220, R224).
(DEDUCED, safe: notes/assumptions/48.md) -/
def engineWaits (s : State) (before : CrewKey × Op) (k : CrewKey) (o : Op) : Bool :=
  before.1.job == k.job && before.1.team == k.team &&
    (let (r, w, wr, ww) := footprint s before.1 before.2
     let (r', w', wr', ww') := footprint s k o
     meet w (r' ++ w') || meet r w' || meet ww (wr' ++ ww') || meet wr ww')

/-- The operations of the engine's order that may be worked on now, oldest first. One that is blocked behind a compile of its
own issuer, by a fault, or for a refill, and a weight load that has not come in, hold back what conflicts with them; all but a
weight load that a fault delays hold back their issuer's later ones, which complete in issue order (R182, R220, R224). -/
def engineReady (s : State) : List (CrewKey × Nat × Op) → List CrewKey → List (CrewKey × Op) → List (CrewKey × Op)
  | [], _, _ => []
  | (k, i, o) :: r, stuck, seen =>
    let free := !stuck.contains k && !tloadBefore s k i && !o.held && !needsRefill s k o && !seen.any (fun x => engineWaits s x k o)
    let rest := engineReady s r (if isWload o && o.held then stuck else k :: stuck) ((k, o) :: seen)
    if free then (k, o) :: rest else rest

/-- The next operation that the engine may work on, other than a weight load. -/
def engineNext (s : State) (core : Nat) : Option (CrewKey × Op) :=
  (engineReady s (engineOps s core) [] []).find? (fun x => !isWload x.2)

/-- The next weight load that the engine can go on with. -/
def wloadNext (s : State) (core : Nat) : Option (CrewKey × Op) :=
  (engineReady s (engineOps s core) [] []).find? (fun x => isWload x.2)

/-- WEIGHT_LOAD_COMPLETE (R224). -/
def execWeightLoadComplete (core : Nat) (s : State) : Host.Outcome State Fault Refusal :=
  .next (match wloadNext s core with
    | some (k, o) => match o.kind with
      | .wload src woff hdr len => onCrew k (wloadDo src woff hdr len) s
      | _ => s
    | none => s)

/-- WEIGHT_GRANULE_REFILL (R222): a granule of a resident team's weight space is written back to its backing, or one
that is absent comes back when the core's buffer has room. Its contents do not change. A team without a context area keeps
its granules (R301). One that came over the mesh without room for it needs no access to come back (R38).
(DESIGN CHOICE, unsafe: notes/assumptions/21.md, DEDUCED, unsafe: notes/assumptions/23.md) -/
def execWeightGranuleRefill (job team granule : Nat) (s : State) : Host.Outcome State Fault Refusal :=
  .next (onTeam job team (fun t =>
    let at' := backing t.job.rcd + 4096 * granule
    match placeCore t.team.place with
    | none => t
    | some core =>
      let back := onT (fun x => { x with
        absent := x.absent.filter (· != granule), mesh := x.mesh.filter (· != granule) })
      if 128 ≤ granule then t
      else if t.team.absent.contains granule then
        if 128 ≤ granulesOn t core then t
        else if t.team.mesh.contains granule then back t
        else if t.job.rcd.ctxbase = 0 then t
        else areaGo (granuleHolders core) 0 at' 4096 back t
      else if t.job.rcd.ctxbase != 0 && (usedGranules t t.team).contains granule &&
          !(loadGranules t t.team).contains granule then
        areaGo (granuleHolders core) 1 at' 4096 (onT (fun x => { x with absent := granule :: x.absent })) t
      else t) s)

/-- Do the engine's next operation of a core when it is of a kind. -/
def engineDo (core : Nat) (f : OpKind → Option (State → State)) (s : State) : State :=
  match engineNext s core with
  | some (k, o) => match f o.kind with
    | some g => onCrew k g s
    | none => s
  | none => s

/-- MATRIX_STEP (R227). -/
def execMatrixStep (core : Nat) (s : State) : Host.Outcome State Fault Refusal :=
  .next (engineDo core (fun k => match k with
    | .mloop m => some (mloopStep m)
    | _ => none) s)

/-- MAT_ZERO_EXECUTE (R228). -/
def execMatZeroExecute (core : Nat) (s : State) : Host.Outcome State Fault Refusal :=
  .next (engineDo core (fun k => match k with
    | .mzero b g => some (fun t => engineFinish isMzero fNone (modBank b (fun _ => zeroBank g) t))
    | _ => none) s)

/-- MAT_DRAIN_EXECUTE (R229). -/
def execMatDrainExecute (core : Nat) (s : State) : Host.Outcome State Fault Refusal :=
  .next (engineDo core (fun k => match k with
    | .mdrain d => some (drainDo d)
    | _ => none) s)

/-- SP_TMUL_EXECUTE (R267). -/
def execSpTmulExecute (core : Nat) (s : State) : Host.Outcome State Fault Refusal :=
  .next (engineDo core (fun k => match k with
    | .tmul t => some (tmulDo t)
    | _ => none) s)

/-! ### The deadlock breaker (R218, R301) -/

/-- A crew that can be a victim: it waits in acc.alloc, holds a bound bank, and has a context area. -/
def canSpill (s : State) (c : Crew) : Bool :=
  inAlloc c && banksHeld c != 0 && match findJob s c.key.job with
    | some j => j.rcd.ctxbase != 0
    | none => false

/-- The banks of the crew in focus are copied to the accumulator slots (R218, R298). -/
def spillCrew (s : State) : State :=
  areaGo (areaHolders (coreOf s)) 1 (accSlots s.job.rcd) (16 * 20480)
    (onC (fun x => { x with spilled := x.banks.map (·.1), carried := [] })) s

/-- Spill the banks of victims, among the crews that a test admits, until the first waiting request can be granted or no
victim is left; a spill that cannot be written ends it. (DESIGN CHOICE, unsafe: notes/assumptions/21.md) -/
def spillBanks (core : Nat) (p : Crew → Bool) : Nat → State → State
  | 0, s => s
  | n + 1, s =>
    match (coreCrews s core).find? (fun c => accNeed c != 0 && p c) with
    | none => s
    | some c =>
      if banksUsed s core + accNeed c ≤ 16 then s
      else match ((coreCrews s core).filter (fun c => canSpill s c && p c)).getLast? with
        | none => s
        | some v =>
          let t := onCrew v.key spillCrew s
          if (findCrew t v.key).any (fun x => banksHeld x != 0) then t else spillBanks core p n t

/-- Every live crew on the core is blocked in acc.alloc, all of them among those that a test admits. -/
def accStuck (s : State) (core : Nat) (p : Crew → Bool) : Bool :=
  let l := (coreCrews s core).filter (fun c => c.status != .complete)
  !l.isEmpty && l.all (fun c => inAlloc c && p c)

/-- ACC_DEADLOCK_BREAK; for deterministic crews the breaker is part of a flush (R232, R318). Requests that can be granted
are. -/
def execAccDeadlockBreak (core : Nat) (s : State) : Host.Outcome State Fault Refusal :=
  .next (
    let det := match (coreCrews s core).find? (fun c => accNeed c != 0) with
      | some c => detCrew s c
      | none => false
    grantBanks core 16 (if accStuck s core (fun _ => true) && !det then spillBanks core (fun _ => true) 16 s else s))

/-! ### Espalier, the solve unit, lane runs and vedge -/

/-- ESPALIER_COMPILE. -/
def execEspalierCompile (cluster : Nat) (s : State) : Host.Outcome State Fault Refusal := .next (espTake cluster s)
/-- ESPALIER_COMPILE_DONE. -/
def execEspalierCompileDone (cluster : Nat) (s : State) : Host.Outcome State Fault Refusal := .next (espDone cluster s)

/-- SOLVE_RECORD_FINISHED (R340). -/
def execSolveRecordFinished (k : CrewKey) (s : State) : Host.Outcome State Fault Refusal :=
  .next (onCrew k (fun t => if t.crew.wait = .solve then solveNext t else t) s)

/-- LANE_RUN_COMPLETE (R111): and a team is complete once the last operation of its crews is performed (R32, R33). -/
def execLaneRunComplete (k : CrewKey) (s : State) : Host.Outcome State Fault Refusal :=
  .next (onCrew k (fun t => if runStopped t.crew then completeRun t else if t.crew.status = .complete then teamComplete t else t) s)

/-- VEDGE_DELIVERY (R149, R150): outside deterministic mode the exchange may then be complete. -/
def execVedgeDelivery (k : CrewKey) (east : Bool) (s : State) : Host.Outcome State Fault Refusal :=
  .next (onCrew k (fun t => edgeComplete none (edgeFill east none t)) s)

/-! ### Fabric operations (R342, R346, R347) -/

/-- The next fabric operation of the crew in focus: they are performed in issue order, as they complete (R182, R346).
(DESIGN CHOICE, unsafe: notes/assumptions/37.md) -/
def fabNext (s : State) : Option Op := findOp s isFab

/-- The place of the first fabric operation among those in flight. -/
def fabPlace (s : State) : Nat := s.crew.ops.findIdx isFab

/-- What has been answered of accesses through aperture 0x3: how many, with their bytes. -/
def remDone (got : Option Reply) : Nat × List Byte :=
  match got with
  | some (.part n b) => (n, b)
  | _ => (0, [])

/-- The peer an access through aperture 0x3 goes to. -/
def accPeer (a : RemAcc) : Nat := fld a.ptr 59 48

/-- The peers that a fabric operation still needs, the next first. -/
def peersOf (o : Op) : List Nat :=
  match o.kind with
  | .fabric f => [fld f.remotePtr 59 48]
  | .remote _ l got => (l.drop (remDone got).1).map accPeer
  | .peerAmo _ x _ _ => [accPeer x]
  | .reduce r => r.peers
  | _ => []

/-- The peer that a fabric operation goes to next. -/
def fabPeer (o : Op) : Option Nat := (peersOf o).head?

/-- Runs of a crew's own stream or of its handler's that are not complete. -/
def runsOf (handler : Bool) (c : Crew) : List QRun :=
  if handler then c.ln.hqueue ++ c.ln.hcur.toList.map (·.run) else c.ln.queue ++ c.ln.cur.toList.map (·.run)

/-- Everything a signal's release covers is performed, but for lines still to go home (R347). -/
def signalReady (f : FabOp) (s : State) : Bool :=
  !(s.crew.ops.take (fabPlace s)).any (fenceHolds 6 true false) && !(runsOf f.handler s.crew).any (fun r => decide (r.seq < f.before)) &&
    !s.crew.sieve.any (fun e => sieveMem e && decide (e.order < f.order))

/-- A signal as an access at the peer. -/
def signalKind (v : W64) (add : Bool) : RemKind := if add then .amo 0 8 v 0 else .write (natToBytes 8 v.toNat)

/-- Why accesses at a peer are not performed: no answer is in, this device's own ingress path meets a fault or a held
write, or an error of a reason of R352. -/
inductive PeerStop where
  | noAnswer
  | fault (va access : Nat) (e : XFail)
  | err (reason : Nat)
  deriving DecidableEq, Repr

/-- Accesses of this device to itself, in order: the replies (R342). -/
def selfDo : List (Nat × RemKind) → List Byte → State → Except PeerStop (List Byte × State)
  | [], acc, s => .ok (acc, s)
  | (va, k) :: r, acc, s =>
    match ingressDo va k s with
    | .ok (b, false, t) => selfDo r (acc ++ b) t
    | .ok (_, true, _) => .error (.err 4)
    | .error .world => .error (.err 3)
    | .error .bad => .error (.err 4)
    | .error e => .error (.fault va (remAccess k) e)

/-- Bytes that an access through aperture 0x3 answers with. -/
def replySize : RemKind → Nat
  | .read n => n
  | .write _ => 0
  | .amo _ n _ _ => n

/-- Perform accesses at a peer: locally when it is this device, else with the data the peer answers. -/
def atPeer (peer : Nat) (l : List (Nat × RemKind)) (data : List Byte) (s : State) : Except PeerStop (List Byte × State) :=
  if peer = fxSelf s then selfDo l [] s
  else if data.length = (l.map (fun x => replySize x.2)).foldl (· + ·) 0 then .ok (data, s) else .error .noAnswer

/-- The first fabric operation meets a local fault or error at its pointer's aperture: it waits for the answer or is abandoned
(R202, R352). -/
def fabLocalFail (p : W64) (access : Nat) (x : Nat × XFail) (s : State) : State :=
  match x.2 with
  | .fault k lv pa => engineFault isFab 1 (ptrAt p x.1) k lv pa access s
  | .held f => engineHold isFab 1 (ptrAt p x.1) f s
  | .world => abandonOp isFab 0x09 (BitVec.ofNat 64 (x.1 % 2 ^ 56)) .fabric s
  | .bad => abandonOp isFab 0x15 (BitVec.ofNat 64 (x.1 % 2 ^ 56)) .fabric s

/-- A vamo goes on, with the acquire part at its scope, once no lane of it is at a peer. -/
def vamoEnd (acq : Nat) (s : State) : State := if awaitsPeer true s.crew then s else readyVamo (amoAcquire acq s)

/-- What a stop at the peer does to the first fabric operation: with this device as the peer, a fault holds it until its
answer comes, with the I/O die's table full once there is an entry (R283, R286, R342). -/
def peerStop (o : Op) (e : PeerStop) (s : State) : State :=
  match e with
  | .noAnswer => s
  | .fault va access x =>
    let held := match x with
      | .held _ => true
      | _ => false
    match ingressFault (engineWaiter isFab 7 (BitVec.ofNat 64 va) s) va access x s with
    | some t => modOp isFab (fun y => { y with held := true, collapse := held }) t
    | none => s
  | .err reason => fabLost o (peerInfo reason (fxSelf s)) s

/-- The address part of a local pointer. -/
def localVa (p : W64) : Nat := if isSpad p then fld p 19 0 else fld p 55 0

/-- A transfer or signal of the crew in focus is performed. -/
def fabDo (o : Op) (f : FabOp) (data : List Byte) (s : State) : State :=
  let peer := fld f.remotePtr 59 48
  let rem := fld f.remotePtr 47 0
  if f.isGet then
    match atPeer peer [(rem, .read f.len)] data s with
    | .error e => peerStop o e s
    | .ok (b, t) => match copyPut f.localPtr b t with
      | .ok u => opEnd isFab u
      | .error e => fabLocalFail f.localPtr 1 e s
  else if f.signal.isSome && !signalReady f s then s
  else if f.signal.isSome && !(ackWaits (releaseLines s)).isEmpty then releaseLines s
  else match copyGet f.localPtr f.len s with
    | .error e => fabLocalFail f.localPtr 0 e s
    | .ok (_, true, _) => abandonOp isFab 0x15 (BitVec.ofNat 64 (localVa f.localPtr)) .fabric s
    | .ok (b, false, t) =>
      let put := if f.len = 0 then [] else [(rem, RemKind.write b)]
      let sig := match f.signal with
        | some (w, v, add) => [(fld w 47 0, signalKind v add)]
        | none => []
      let t1 := if f.signal.isSome then releaseLines t else t
      let reply := sig.flatMap (fun x => List.replicate (replySize x.2) (0 : Byte))
      match atPeer peer (put ++ sig) (if peer = fxSelf s then [] else reply) t1 with
      | .ok (_, u) => opEnd isFab u
      | .error e => peerStop o e t1

/-- Accesses through aperture 0x3 are performed in order, those that follow one another to one peer together; with the last
of them answered the instruction goes on when it is issued again. (DESIGN CHOICE, unsafe: notes/assumptions/37.md) -/
def remoteDo (o : Op) (lane : Bool) (l : List RemAcc) (got : Option Reply) (data : List Byte) (s : State) : State :=
  let (n, b) := remDone got
  let rest := l.drop n
  let peer := ((rest.head?).map accPeer).getD (fxSelf s)
  let now := rest.takeWhile (fun a => accPeer a == peer)
  match atPeer peer (now.map (fun a => (fld a.ptr 47 0, a.kind))) data s with
  | .ok (b1, t) =>
    let r := if n + now.length < l.length then Reply.part (n + now.length) (b ++ b1) else .data (b ++ b1)
    if t.crew.status = .complete ∧ !remLive (some r) then endOp isFab t
    else modOp isFab (fun o => { o with kind := .remote lane l (some r) }) t
  | .error e => peerStop o e s

/-- The place of an atomic or scatter-add sent to a peer in the order of keys (R316, R317). -/
def farKey (k : Nat) (c : CrewKey) (a : AmoOp) (o : Op) : List Nat := [k, c.team, c.crew, a.lane, o.order]

/-- An entry of a lower key of the job slice for the same place has not been applied at its peer yet: entries for one place
are applied in ascending key order (R317). -/
def farEarlier (s : State) (k : Nat) (x : RemAcc) (a : AmoOp) (o : Op) : Bool :=
  (allCrews s).any (fun c => c.key.job == s.job.take && c.ops.any (fun p => match p.kind with
    | .peerAmo m y b _ => accPeer y == accPeer x && fld y.ptr 47 4 == fld x.ptr 47 4 &&
        decide (farKey m c.key b p < farKey k s.crew.key a o)
    | _ => false))

/-- An atomic or scatter-add that flush k sent to a peer is performed there: an atomic's old value goes to its destination
(R184, R316, R317). (DEDUCED, unsafe: notes/assumptions/27.md) -/
def peerDo (o : Op) (k : Nat) (x : RemAcc) (a : AmoOp) (d : Nat) (data : List Byte) (s : State) : State :=
  if farEarlier s k x a o then s
  else match atPeer (accPeer x) [(fld x.ptr 47 0, x.kind)] data s with
  | .error e => peerStop o e s
  | .ok (b, t) =>
    let t1 := endOp isFab t
    let old := bytesToNat b
    let f := (amoApply a.op a.n old a.b.toNat a.cmp.toNat).2.2
    if d = 1025 then t1
    else if a.lane = 32 then amoAcquire a.acq (wrS a.dest (BitVec.ofNat 64 old) (addFlags f t1))
    else vamoEnd a.acq (amoResults d a.n [(a.lane, old, f)] t1)

/-! ### Reductions (R350, R351) -/

/-- The state of a reduction. -/
def reduceOf (r : ReduceOp) (s : State) : Option ReduceSt :=
  s.reduces.find? (fun x => x.planid == r.planid && x.epoch == r.epoch)

/-- Write the elements of a result. -/
def reduceOut (r : ReduceOp) (l : List Nat) (s : State) : Except (Nat × XFail) State :=
  let n := tyWidth (tyOf r.ty) / 8
  copyPut r.out (l.flatMap (natToBytes n)) s

/-- The peer whose message disagrees with the crew's own. (DESIGN CHOICE, unsafe: notes/assumptions/37.md) -/
def reduceOdd (r : ReduceOp) (x : ReduceSt) : Nat :=
  match x.got.find? (fun c => c.p != r.p || c.ty != r.ty || c.op != r.op || c.count != r.count) with
  | some c => nth 0 r.peers c.rank
  | none => 0

/-- A reduction of the crew in focus is done if every contribution is in; a mismatch abandons it.
(DESIGN CHOICE, unsafe: notes/assumptions/37.md) -/
def reduceDo (r : ReduceOp) (s : State) : State :=
  let drop := fun (t : State) => { t with reduces := t.reduces.filter (fun x => !(x.planid == r.planid && x.epoch == r.epoch)) }
  match reduceOf r s with
  | none => s
  | some x =>
    if x.bad then abandonOp isFab 0x17 (peerInfo 5 (reduceOdd r x)) .fabric (drop s)
    else match reduceResult r x with
      | none => s
      | some l => match reduceOut r l s with
        | .ok t => opEnd isFab (drop t)
        | .error e => fabLocalFail r.out 1 e s

/-- The first fabric operation needs a peer that cannot be reached: the peer (R343, R351). -/
def lostPeer (s : State) (o : Op) : Option Nat := (peersOf o).find? (unreachable s)

/-- The next fabric operation of the crew in focus goes on, unless an answer is awaited; one that needs an unreachable peer
fails (R343, R351). (DESIGN CHOICE, unsafe: notes/assumptions/37.md) -/
def fabGo (data : List Byte) (s : State) : State :=
  match fabNext s with
  | none => s
  | some o =>
    if o.held then s
    else match lostPeer s o with
      | some p => fabLost o (peerInfo 1 p) s
      | none => match o.kind with
        | .fabric f => fabDo o f data s
        | .remote lane l got => remoteDo o lane l got data s
        | .peerAmo k x a d => peerDo o k x a d data s
        | .reduce r => reduceDo r s
        | _ => s

/-- FABRIC_OP_COMPLETE (R346): data is what a remote peer answers. (DESIGN CHOICE, unsafe: notes/assumptions/37.md) -/
def execFabricOpComplete (k : CrewKey) (data : List Byte) (s : State) : Host.Outcome State Fault Refusal :=
  .next (onCrew k (fabGo data) s)

/-- The next fabric operation of the crew in focus cannot be completed at the peer, for a reason of R352; the participant
of a reduction that it names is one that cannot be reached, or else the spec does not say which.
(DESIGN CHOICE, safe: notes/assumptions/2.md) -/
def fabFail (reason : Nat) (s : State) : State :=
  match fabNext s with
  | none => s
  | some o =>
    if o.held then s
    else match o.kind with
      | .reduce _ =>
        if reason = 1 ∨ reason = 5 then
          let (v, s1) := takeFree s
          fabLost o (peerInfo reason ((lostPeer s o).getD (v.toNat % 4096))) s1
        else s
      | _ => if reason = 5 then s else fabLost o (peerInfo reason ((fabPeer o).getD 0)) s

/-- FABRIC_OP_ABANDON (R352): a reduction fails with reason 1 or 5 (R351), another operation with one of 1 to 4. -/
def execFabricOpAbandon (k : CrewKey) (reason : Nat) (s : State) : Host.Outcome State Fault Refusal :=
  .next (if 1 ≤ reason ∧ reason ≤ 5 then onCrew k (fabFail reason) s else s)

/-- FX_REDUCE_COMBINE: a message arrives, and reductions that are then whole or spoilt end; in D3 no peer is answered
(R357). (DESIGN CHOICE, unsafe: notes/assumptions/37.md) -/
def execFxReduceCombine (c : Contribution) (s : State) : Host.Outcome State Fault Refusal :=
  .next (
    let go := fun (t : State) => match fabNext t with
      | some o => match o.kind with
        | .reduce r => if r.planid = c.planid ∧ r.epoch = c.epoch ∧ !o.held then reduceDo r t else t
        | _ => t
      | none => t
    if s.dev.d3 then s
    else
      let s1 := putContribution c s
      ((allCrews s1).filter (fun x => x.ops.any isFab)).foldl (fun t x => onCrew x.key go t) s1)

/-! ### Links and arriving accesses (R342, R343, R357) -/

/-- Operations of the crew in focus on unreachable peers fail as they come to be next, at most n of them. -/
def failLost : Nat → State → State
  | 0, s => s
  | n + 1, s =>
    match fabNext s with
    | some o => if o.held then s else match lostPeer s o with
      | some p => failLost n (fabLost o (peerInfo 1 p) s)
      | none => s
    | none => s

/-- KALBY_FLIT_RETRY: timing only (R343); the retry is counted as a correctable error (R365).
(DESIGN CHOICE, unsafe: notes/assumptions/12.md) -/
def execKalbyFlitRetry (port : Nat) (s : State) : Host.Outcome State Fault Refusal :=
  .next (if port < 16 then onDev (fun d => { d with errlog := smMod 0 d.errlog 6 (· + 1) }) s else s)

/-- KALBY_PORT_DOWN. (DESIGN CHOICE, unsafe: notes/assumptions/12.md) -/
def execKalbyPortDown (port : Nat) (s : State) : Host.Outcome State Fault Refusal :=
  .next (
    if 16 ≤ port ∨ s.dev.portsDown.contains port then s
    else
      let s1 := onDev (fun d => { d with
        portsDown := port :: d.portsDown, errlog := smMod 0 d.errlog 7 (· + 1) }) s
      ((allCrews s1).filter (fun c => c.ops.any isFab)).foldl (fun t c => onCrew c.key (failLost c.ops.length) t) s1)

/-- An arriving access as the ingress path performs it. -/
def ingressKind : IngressKind → RemKind
  | .read n => .read n
  | .write d => .write d
  | .amo op n b cmp => .amo op n b cmp

/-- FABRIC_INGRESS_ACCESS: translated under FXROOT and performed; refused in D3 (R357).
(DEDUCED, unsafe: notes/assumptions/33.md) -/
def execFabricIngressAccess (va : W64) (kind : IngressKind) (s : State) : Host.Outcome State Fault Refusal :=
  .next (
    if s.dev.d3 then s else ingressGo (fld va 47 0) (ingressKind kind) s)

end Sys2Proof.Machine
end

