-- ==== Sys2Proof/Machine/Shake.lean ====
section
/-! DEFINITION. SHAKE256 as FIPS 202 defines it, which the digest, the firmware checks and the attestation report use
(R325, R326, R359 to R361; notes/assumptions/4.md). -/

namespace Sys2Proof.Machine

/-- Rotation counts of the lanes x + 5y. -/
def keccakRot : List Nat :=
  [0, 1, 62, 28, 27, 36, 44, 6, 55, 20, 3, 10, 43, 25, 39, 41, 45, 15, 21, 8, 18, 2, 61, 56, 14]

/-- Round constants. -/
def keccakRc : List W64 :=
  [0x0000000000000001, 0x0000000000008082, 0x800000000000808A, 0x8000000080008000,
   0x000000000000808B, 0x0000000080000001, 0x8000000080008081, 0x8000000000008009,
   0x000000000000008A, 0x0000000000000088, 0x0000000080008009, 0x000000008000000A] ++
  [0x000000008000808B, 0x800000000000008B, 0x8000000000008089, 0x8000000000008003,
   0x8000000000008002, 0x8000000000000080, 0x000000000000800A, 0x800000008000000A,
   0x8000000080008081, 0x8000000000008080, 0x0000000080000001, 0x8000000080008008]

/-- The 25 lanes of a state by a function of x and y. -/
def keccakMap (f : Nat → Nat → W64) : List W64 := (List.range 25).map (fun i => f (i % 5) (i / 5))

/-- One round of Keccak-f[1600]. -/
def keccakRound (a : List W64) (rc : W64) : List W64 :=
  let c := (List.range 5).map (fun x => (List.range 5).foldl (fun v y => v ^^^ nth 0 a (x + 5 * y)) (0 : W64))
  let t := keccakMap (fun x y => nth 0 a (x + 5 * y) ^^^ nth 0 c ((x + 4) % 5) ^^^ (nth 0 c ((x + 1) % 5)).rotateLeft 1)
  let b := keccakMap (fun x y =>
    let i := (x + 3 * y) % 5 + 5 * x
    (nth 0 t i).rotateLeft (nth 0 keccakRot i))
  keccakMap (fun x y =>
    let v := nth 0 b (x + 5 * y) ^^^ (~~~(nth 0 b ((x + 1) % 5 + 5 * y)) &&& nth 0 b ((x + 2) % 5 + 5 * y))
    if x = 0 ∧ y = 0 then v ^^^ rc else v)

/-- Keccak-f[1600]. (PRESUMED, unsafe: notes/assumptions/4.md) -/
def keccakF (a : List W64) : List W64 := keccakRc.foldl keccakRound a

/-- Absorb one block of 136 bytes. -/
def keccakAbsorb (a : List W64) (block : List Byte) : List W64 :=
  let ws := (chunks 8 17 block).map (fun b => BitVec.ofNat 64 (bytesToNat b))
  keccakF (a.mapIdx (fun i x => x ^^^ nth 0 ws i))

/-- The padded message. -/
def shakePad (m : List Byte) : List Byte :=
  let n := 135 - m.length % 136
  m ++ (if n = 0 then [0x9F] else 0x1F :: List.replicate (n - 1) 0 ++ [0x80])

/-- The first n bytes, at most 136, of SHAKE256 of a message. (PRESUMED, unsafe: notes/assumptions/4.md) -/
def shake256 (n : Nat) (m : List Byte) : List Byte :=
  let p := shakePad m
  let a := (chunks 136 (p.length / 136) p).foldl keccakAbsorb (List.replicate 25 0)
  (a.flatMap (fun w => natToBytes 8 w.toNat)).take n

end Sys2Proof.Machine
end

