-- ==== Sys2Proof/Machine/EventSched.lean ====
section
/-! DEFINITION. Events of the scheduler: pushes from the host, readiness, selection, validation, placement, the active
set, completion, digests, event records, deadlines and budgets (R12 to R21, R31 to R36, R186, R303 to R315, R325,
R326). -/

namespace Sys2Proof.Machine

/-- The device is up: it has come out of bring-up and has not tripped (R356, R358).
(DEDUCED, unsafe: notes/assumptions/33.md) -/
def deviceUp (s : State) : Bool := s.dev.bootReady && !s.dev.tripped
/-- The arithmetic clock runs (R357). (DEDUCED, unsafe: notes/assumptions/33.md) -/
def clockOn (s : State) : Bool := !s.dev.d3 && !s.dev.tripped

/-! ### The push aperture (R18, R19, R357) -/

/-- A write to a push aperture that pushes a record. -/
def pushOk (q off : Nat) (data : List Byte) (s : State) : Bool :=
  off % 128 == 0 && decide (off < 4096) && data.length == 128 && qEn (sliceQ s q).qctl && !qFull s q && !s.dev.d3

/-- SLICE_QUEUE_PUSH: DEPTH of a record from the host is 0 (R29). The world of the scheduler's own accesses and events for
the record is its SECURE flag, in a non-secure queue too. (DESIGN CHOICE, unsafe: notes/assumptions/59.md) -/
def execSliceQueuePush (q off : Nat) (data : List Byte) (s : State) : Host.Outcome State Fault Refusal :=
  .next (
    if !deviceUp s || decide (64 ≤ q) then s
    else if pushOk q off data s then
      let r := parseRec data
      pushRec q { r with depth := 0 } none 0 (r.flags.testBit 3) s
    else modQ q (fun x => { x with qstat := true }) s)

/-! ### Prerequisites (R21, R35) -/

/-- The n-th prerequisite of a record: its address, its value, and how it stands. -/
def preqOf (r : QRec) (n : Nat) : W64 × W64 × PreqSt :=
  if n = 0 then (r.rcd.preq0addr, r.rcd.preq0seq, r.pre0) else (r.rcd.preq1addr, r.rcd.preq1seq, r.pre1)

/-- How the n-th prerequisite of record i of a queue was found to stand. -/
def preqSet (st : PreqSt) (q i n : Nat) (s : State) : State :=
  modQ q (fun x => { x with recs := x.recs.mapIdx (fun k r =>
    if k = i then (if n = 0 then { r with pre0 := st } else { r with pre1 := st }) else r) }) s

/-- A prerequisite word that has reached a value, as a number with bit 63 apart.
(DEDUCED, unsafe: notes/assumptions/26.md) -/
def preqRead (q i n : Nat) (r : QRec) (s : State) : State :=
  let sq := sliceQ s q
  let (addr, seq, _) := preqOf r n
  let j := failedJob s q sq r 0
  let va := fld addr 55 0
  match readVa (schedAsker j) va 8 s with
  | .ok (b, false, t) =>
    let v := bytesToNat b
    if seq.toNat ≤ v % 2 ^ 63 ∧ 2 ^ 63 ≤ v then failRecord q i 2 t
    else preqSet (if v < 2 ^ 63 ∧ seq.toNat ≤ v then .met else .unmet) q i n t
  | .error (_, .fault k lv pa) => ioFault j (.prereq r.uid n) addr k lv pa 0 (preqSet .unmet q i n s)
  | _ => failRecord q i 2 s

/-- The n-th prerequisite of a record names a word. -/
def hasPreq (r : QRec) (n : Nat) : Bool := (preqOf r n).1 != 0 && wordPtr (preqOf r n).1

/-- PREREQUISITE_READ (R21): a word may be read again while its record waits. -/
def execPrerequisiteRead (q i n : Nat) (s : State) : Host.Outcome State Fault Refusal :=
  .next (match nth none ((sliceQ s q).recs.map some) i with
    | some r =>
      if clockOn s && hasPreq r n && !waitsIo s (.prereq r.uid n) then preqRead q i n r s else s
    | none => s)

/-! ### Selection and validation (R16, R20, R305) -/

/-- A record is ready. -/
def readyRec (r : QRec) : Bool := r.pre0 == .met && r.pre1 == .met

/-- Deadlines as they sort: 0 is later than every other (R20). -/
def deadlineKey (d : Nat) : Nat := if d = 0 then 2 ^ 64 else d

/-- The first ready record of the earliest deadline among records numbered from i. -/
def firstReady : Nat → List QRec → Option (Nat × Nat)
  | _, [] => none
  | i, r :: rest =>
    let k := deadlineKey r.rcd.deadline.toNat
    match firstReady (i + 1) rest with
    | some (k', i') => if readyRec r && decide (k ≤ k') then some (k, i) else some (k', i')
    | none => if readyRec r then some (k, i) else none

/-- The selected record: earliest deadline, then lower queue, then record order. -/
def selectRec : List (Nat × SliceQueue) → Option (Nat × Nat × Nat)
  | [] => none
  | (q, sq) :: rest =>
    match (if qEn sq.qctl then firstReady 0 sq.recs else none), selectRec rest with
    | some (k, i), some (k', q', i') => if k ≤ k' then some (k, q, i) else some (k', q', i')
    | some (k, i), none => some (k, q, i)
    | none, x => x

/-- Teams of a record that one empty core can hold (R12). -/
def teamsPerCore (r : Rec) : Nat :=
  let n := min (16 / r.crews) (8192 / (r.crews * r.regg * 64))
  if r.spad = 0 then n else min n (768 / r.spad)

/-- An address field that is zero or names an aligned word. -/
def addrOk (p : W64) : Bool := p == 0 || wordPtr p

/-- A record's own fields are acceptable (R13, R14, R16). -/
def recFieldsOk (r : Rec) : Bool :=
  r.format == 1 && r.flags.testBit 1 == false && fieldN r.flags 7 4 == 0 && r.cmpl / 16 == 0 &&
  r.placeByte / 4 == 0 && r.resv == 0 &&
  r.gx != 0 && r.gy != 0 && r.gz != 0 && decide (r.gx * r.gy * r.gz ≤ 2 ^ 32) &&
  r.crews != 0 && decide (r.crews ≤ 16) && r.slices != 0 && decide (r.slices ≤ 8) &&
  r.regg != 0 && decide (r.regg ≤ 16) && decide (r.accb ≤ 16) && decide (r.spad ≤ 768) &&
  decide (r.logsz ≤ 32) && decide (r.spillsz ≤ 11) &&
  (if r.flags.testBit 0 then decide (6 ≤ r.detexp) && decide (r.detexp ≤ 12) else r.detexp == 0) &&
  r.cmpl % 8 != 0 && r.cmpl % 8 != 7 && !r.doneseq.getLsbD 63 &&
  decide (r.crews * r.regg * 64 ≤ 8192) &&
  (r.logsz == 0 || r.ctxbase != 0) && decide (r.logsz * 16 ≤ r.spad) &&
  addrOk r.doneaddr && addrOk r.preq0addr && addrOk r.preq1addr &&
  (!r.flags.testBit 0 || (r.ctxbase != 0 && decide (r.gx * r.gy * r.gz ≤ 256 * teamsPerCore r)))

/-- SECURE is allowed: in a secure queue, and only for a secure parent's child (R16, R30).
(DEDUCED, unsafe: notes/assumptions/38.md) -/
def recWorldOk (sq : SliceQueue) (r : QRec) : Bool :=
  !r.rcd.flags.testBit 3 || (qSecure sq.qctl && (r.parent.isNone || r.secure))

/-- Whose budget a record draws on (R30): its parent's when it has none of its own. -/
def budgetOwnerOf (s : State) (r : QRec) : Nat :=
  match r.parent with
  | some p => if r.rcd.budget = 0 then (match findJob s p with
      | some j => j.budgetOwner
      | none => s.nextTake) else s.nextTake
  | none => s.nextTake

/-- The teams of a job slice, waiting for places. (DEDUCED, unsafe: notes/assumptions/38.md) -/
def newTeams (take : Nat) (r : Rec) : List Team :=
  (List.range (r.gx * r.gy * r.gz)).map (fun i =>
    { Team.reset with job := take, idx := i, place := .waiting, spillsz := r.spillsz })

/-- Take record i of queue q: it is rejected, or becomes a job slice whose teams wait. -/
def takeRec (q i : Nat) (s : State) : State :=
  let sq := sliceQ s q
  match nth none (sq.recs.map some) i with
  | none => s
  | some r =>
    if recFieldsOk r.rcd && recWorldOk sq r then
      let j := { failedJob s q sq r 0 with phase := .running, budgetOwner := budgetOwnerOf s r }
      { modQ q (fun x => { x with recs := x.recs.eraseIdx i }) s with
        jobs := j :: s.jobs
        teams := newTeams s.nextTake r.rcd ++ s.teams
        nextTake := s.nextTake + 1 }
    else failRecord q i 1 s

/-- SCHEDULER_TAKE_RECORD (R20, R305). -/
def execSchedulerTakeRecord (s : State) : Host.Outcome State Fault Refusal :=
  .next (if clockOn s then
      match selectRec s.queues with
      | some (_, q, i) => takeRec q i s
      | none => s
    else s)

/-! ### Room on a core (R12, R303) -/

/-- The record of a team. -/
def recOf (s : State) (t : Team) : Rec := ((findJob s t.job).map (·.rcd)).getD Rec.zero

/-- The teams resident on a core. -/
def teamsOn (s : State) (core : Nat) : List Team := (allTeams s).filter (fun t => placeCore t.place == some core)

/-- A sum over the teams of a core. -/
def coreSum (s : State) (core : Nat) (f : Rec → Nat) : Nat :=
  ((teamsOn s core).map (fun t => f (recOf s t))).foldl (· + ·) 0

/-- Crew places taken on a core. -/
def crewsOn (s : State) (core : Nat) : Nat := coreSum s core (·.crews)

/-- A team of a job slice can become resident on a core: the limits of R12, and one world at a time. -/
def canTake (s : State) (j : Job) (core : Nat) : Bool :=
  decide (crewsOn s core + j.rcd.crews ≤ 16) &&
  decide (coreSum s core (fun r => r.crews * r.regg * 64) + j.rcd.crews * j.rcd.regg * 64 ≤ 8192) &&
  decide (coreSum s core (·.spad) + j.rcd.spad ≤ 768) &&
  ((coreAt s core).world == j.secure || (teamsOn s core).isEmpty)

/-- The core with the most free crew places among those that a test admits, ties to the lower core (R36). -/
def freest (s : State) (l : List Nat) : Option Nat :=
  l.foldl (fun best c => match best with
    | none => some c
    | some b => if crewsOn s c < crewsOn s b then some c else some b) none

/-- The core of a die that takes a team. -/
def coreFor (s : State) (can : Nat → Bool) (die : Nat) : Option Nat :=
  freest s (((List.range 32).map (· + 32 * die)).filter can)

/-- Steps between two dies of the 2 × 4 mesh. (DEDUCED, unsafe: notes/assumptions/45.md) -/
def dieDist (a b : Nat) : Nat :=
  (a % 4 - b % 4) + (b % 4 - a % 4) + (a / 4 - b / 4) + (b / 4 - a / 4)

/-- The nearest die to a die that a test admits, ties to the lower. (DEDUCED, unsafe: notes/assumptions/45.md) -/
def nearestDie (p : Nat → Bool) (die : Nat) : Option Nat :=
  ((List.range 8).filter p).foldl (fun best d => match best with
    | none => some d
    | some b => if dieDist die d < dieDist die b then some d else some b) none

/-! ### Where a team goes (R36) -/

/-- The home dies of a job slice's declared input pointers. The argument block is read at ARGS[55:0], whatever the aperture
of ARGS. (DESIGN CHOICE, unsafe: notes/assumptions/57.md) -/
def inputDies (s : State) (j : Job) : List Nat :=
  (List.range 4).filterMap (fun i =>
    if j.rcd.flags.testBit (8 + i) then
      match readVa (schedAsker j) (fld j.rcd.args 55 0 + 8 * i) 8 s with
      | .ok (b, false, _) =>
        let p := BitVec.ofNat 64 (bytesToNat b)
        if apOf p ≤ 2 ∧ fld p 59 56 = 0 then homeDie s j.root j.secure (fld p 55 0) else none
      | _ => none
    else none)

/-- The die that most inputs are home to, ties to the lower; any die when no declared input counts toward one.
(DESIGN CHOICE, unsafe: notes/assumptions/62.md) -/
def inputDie (s : State) (j : Job) : Option Nat :=
  let l := inputDies s j
  let n := fun (d : Nat) => (l.filter (· == d)).length
  if l = [] then none
  else (List.range 8).foldl (fun best d => match best with
    | none => some d
    | some b => if n b < n d then some d else some b) none

/-- The die that PLACE names for a team; none when any die will do. -/
def placeDie (s : State) (j : Job) (team : Nat) : Option Nat :=
  let r := j.rcd
  let x := team % r.gx
  let y := team / r.gx % r.gy
  match r.placeByte % 4 with
  | 0 => inputDie s j
  | 1 => some (x / ceilDiv r.gx 8)
  | 2 => some (4 * (2 * y / r.gy) + 4 * x / r.gx)
  | _ => some j.pushDie

/-- The dies a team may now go to: the one PLACE names, or where it has no room, in mode 0 alone, the nearest with
room. can says which cores take the team. (DEDUCED, unsafe: notes/assumptions/45.md) -/
def openDies (s : State) (j : Job) (team : Nat) (can : Nat → Bool) : List Nat :=
  let room := fun (d : Nat) => (coreFor s can d).isSome
  match placeDie s j team with
  | none => (List.range 8).filter room
  | some d =>
    if room d then [d]
    else if j.rcd.placeByte % 4 = 0 then (nearestDie room d).toList
    else []

/-- A team that has no place now waits for room on a die; saved teams, and those of a deterministic job slice, on every die
(R300, R306). -/
def waitsOnDie (s : State) (die : Nat) (t : Team) : Bool :=
  match findJob s t.job with
  | some j => (t.place == .waiting || t.place == .saved) && j.phase == .running && (match placeDie s j t.idx with
      | none => true
      | some d => t.place == .saved || j.rcd.flags.testBit 0 || d == die || (j.rcd.placeByte % 4 == 0 && (coreFor s (canTake s j) d).isNone))
  | none => false

/-- A team of an earlier-selected job slice with a deadline waits for room on a die (R306). -/
def heldBack (s : State) (j : Job) (die : Nat) : Bool :=
  (allTeams s).any (fun t => decide (t.job < j.take) && waitsOnDie s die t &&
    (findJob s t.job).any (fun e => e.deadline != 0))

/-- A waiting team is next among those of its job slice: teams pre-empted go first, then ascending index (R306). -/
def nextTeam (s : State) (t : Team) : Bool :=
  t.place == .waiting && !(allTeams s).any (fun u => u.job == t.job &&
    (u.place == .saved || (u.place == .waiting && decide (u.idx < t.idx))))

/-! ### Becoming resident (R15, R186, R303) -/

/-- The packed team index (R15). -/
def packedIdx (r : Rec) (team : Nat) : Nat :=
  team % r.gx + 2 ^ 32 * (team / r.gx % r.gy) + 2 ^ 48 * (team / (r.gx * r.gy))

/-- The traps that a crew of a job slice owes at its start: the deadline was missed (R311), or the counter that it draws on
outside deterministic mode has reached zero and has not been extended since (R309). -/
def owedTraps (s : State) (j : Job) : List PTrap :=
  (if j.missed then [⟨0x0B, BitVec.ofNat 64 j.deadline, .now⟩] else []) ++
  (match findJob s j.budgetOwner with
    | some o => if o.exhausted && !j.rcd.flags.testBit 0 then [⟨0x0A, BitVec.ofNat 64 o.charged, .now⟩] else []
    | none => [])

/-- A crew as it is at entry (R15). -/
def newCrew (s : State) (j : Job) (team c : Nat) (active : Bool) : Crew :=
  { Crew.reset with
    key := ⟨j.take, team, c⟩
    status := .running
    active := active
    entryCycle := s.cycles
    ptraps := owedTraps s j
    sc := { ScalarSt.reset with
      pc := j.rcd.entry
      regs := smSetMany 0 [] 0 [BitVec.ofNat 64 c, j.rcd.args, BitVec.ofNat 64 team, BitVec.ofNat 64 (packedIdx j.rcd team)] } }

/-- Active crews of a core. -/
def activeOn (s : State) (core : Nat) : Nat := ((coreCrews s core).filter (·.active)).length

/-- A core changes world while it is empty: its L1 is written back and invalidated, its read-only path and TLB are
cleared (R303). (DEDUCED, safe: notes/assumptions/44.md) -/
def clearCore (core : Nat) (s : State) : State :=
  let s1 := wbLines (fun l => l.core == core) true s
  dropAcks (fun e => e.kind == .core && e.unit == core) s1

/-- A core is made ready for a team of a world, and its read-only path drops its copies.
(DEDUCED, safe: notes/assumptions/44.md) -/
def enterCore (core : Nat) (secure : Bool) (s : State) : State :=
  let s1 := if (coreAt s core).world = secure then s else modCore core (fun c => { c with world := secure }) (clearCore core s)
  dropLines (fun l => l.core == core && l.kind == .ro) s1

/-- A team starts on a core, whose SWC lines may be older than what the scheduler's acquire of the prerequisites has seen, so
they go home and are dropped (R21). (DESIGN CHOICE, unsafe: notes/assumptions/1.md, DEDUCED, safe: notes/assumptions/44.md) -/
def startTeam (j : Job) (team core : Nat) (s : State) : State :=
  let s1 := enterCore core j.secure (wbLines (fun l => l.core == core && l.kind == .swc) true s)
  let room := 8 - activeOn s1 core
  let crews := (List.range j.rcd.crews).map (fun c => newCrew s1 j team c (decide (c < room)))
  modTeam j.take team (fun t => { t with place := .resident core, started := true }) { s1 with crews := s1.crews ++ crews }

/-- The core for a team, the dies open to it being listed. -/
def coreAmong (s : State) (can : Nat → Bool) (dies : List Nat) : Option Nat := (dies.filterMap (coreFor s can)).head?

/-- Every die, a preferred one first. -/
def diesFrom (d : Nat) : List Nat := d :: (List.range 8).filter (· != d)

/-- The dies on which no team of an earlier-selected job slice with a deadline waits for room, a preferred one first
(R306). -/
def freeDies (s : State) (j : Job) (d : Nat) : List Nat := (diesFrom d).filter (fun x => !heldBack s j x)

/-- Start the listed teams, each on the die PLACE names or else any other; none when one finds no core. -/
def startAll (j : Job) : List Nat → State → Option State
  | [], s => some s
  | t :: r, s =>
    match coreAmong s (canTake s j) (freeDies s j ((placeDie s j t).getD 0)) with
    | some core => startAll j r (startTeam j t core s)
    | none => none

/-- The teams of a job slice not yet started. -/
def waitingTeams (s : State) (take : Nat) : List Nat :=
  ((allTeams s).filter (fun t => t.job == take && t.place == .waiting)).map (·.idx)

/-- PLACE_TEAM (R306): the scheduler places a team on a die open to it; a deterministic job slice whole. -/
def execPlaceTeam (job team die : Nat) (s : State) : Host.Outcome State Fault Refusal :=
  .next (match findJob s job, findTeam s job team with
    | some j, some t =>
      if !clockOn s || j.phase != .running || !nextTeam s t || (!j.rcd.flags.testBit 0 && heldBack s j die) then s
      else if j.rcd.flags.testBit 0 then (startAll j (sortBy (fun a b => decide (a ≤ b)) (waitingTeams s job)) s).getD s
      else if (openDies s j team (canTake s j)).contains die then
        match coreFor s (canTake s j) die with
        | some core => startTeam j team core s
        | none => s
      else s
    | _, _ => s)

/-! ### The active set (R40, R64, R314) -/

/-- Opcodes of the window-ending lane instructions outside 0x200 to 0x27F: vedge, regang, lyield, eld, est, epin, eunpin
and ecmp (R63). -/
def windowOps : List Nat := [0x198, 0x1C2, 0x1C4, 0x300, 0x301, 0x302, 0x303, 0x318]

/-- A lane word of a window-ending instruction. -/
def windowWord (v : W96) : Bool :=
  let form := (v.extractLsb' 94 2).toNat
  let opc := (v.extractLsb' 84 10).toNat
  (form == 0 || form == 2) && ((decide (0x200 ≤ opc) && decide (opc < 0x280)) || windowOps.contains opc)

/-- The lane word at an address, for the crew in focus. -/
def laneWordAt (s : State) (pc : W64) : Res W96 := (fetchBytes true s pc 12).map (fun b => BitVec.ofNat 96 (bytesToNat b))

/-- A gang's slices are at a switch point: blocked inside a window-ending instruction, or about to issue one, or about
to park on the fetch. -/
def gangAtSwitch (s : State) (g : Gang) : Bool :=
  match g.wait with
  | .ready | .stall => match laneWordAt s g.pc with
    | .ok v => windowWord v
    | .error _ => true
  | _ => true

/-- The lane stream of the crew in focus is at a switch point (R64).
(DESIGN CHOICE, unsafe: notes/assumptions/20.md) -/
def laneAtSwitch (s : State) : Bool :=
  match curRun s.crew with
  | none => true
  | some r => r.gangs.all (gangAtSwitch s)

/-- No lane instruction of the crew can issue before something else happens. -/
def laneBlocked (c : Crew) : Bool :=
  match curRun c with
  | none => true
  | some r => r.gangs.all (fun g => g.wait != .ready)

/-- The scalar stream has ended or is blocked. -/
def scalarBlocked (c : Crew) : Bool := c.status != .running || c.wait != .none || heldAmo c

/-- Errors of returning values fall due at a switch or pre-emption (R97). -/
def dueTouch (c : Crew) : Crew :=
  { c with ptraps := c.ptraps.map (fun p => match p.due with
      | .touch _ => { p with due := .now }
      | _ => p) }

/-- A crew leaves the active set: returning values are in, and the latches are gone (R64, R97). -/
def deactivate (s : State) : State :=
  onC (fun c => { dueTouch c with active := false, offered := false }) (dropLatches (settleLoads s))

/-- A crew of a core may become active. -/
def mayEnter (s : State) (core : Nat) (c : Crew) : Bool := crewOn s core c && !c.active && crewReady s c

/-- A crew that leaves the active set: parked on a fault, or in cp.yield (R203, R284). -/
def leaving (c : Crew) : Bool :=
  c.park.isSome || match c.wait with
    | .cpYield _ _ => true
    | _ => false

/-- The returning values of a crew are in or can be taken in at once (R97). -/
def returnsIn (s : State) : Bool := !(settleLoads s).crew.ops.any isReturn

/-- The crew in focus leaves the active set if it is to, once its lanes are at a switch point (R64).
(DESIGN CHOICE, unsafe: notes/assumptions/20.md) -/
def leaveSet (s : State) : State :=
  if s.crew.active && leaving s.crew && laneAtSwitch s && returnsIn s then deactivate s else s

/-- A ready pending crew takes a free active place, or that of a crew blocked at a switch point or offering it. -/
def exchangeCrews (out inn : CrewKey) (s : State) : State :=
  let enter := modCrew inn (fun c => { c with active := true })
  match findCrew s inn, (findTeam s inn.job inn.team).bind (fun t => placeCore t.place) with
  | some i, some core =>
    if !mayEnter s core i then s
    else if activeOn s core < 8 then enter s
    else match focus out s with
      | some t =>
        if crewOn t core t.crew && t.crew.active && laneAtSwitch t && returnsIn t &&
            (t.crew.offered || (scalarBlocked t.crew && laneBlocked t.crew)) then
          enter (onCrew out deactivate s)
        else s
      | none => s
  | _, _ => s

/-- CREW_SWITCH: a crew that is parked or in cp.yield leaves the active set at its switch point, and a ready pending crew
enters (R64, R203, R284, R314). -/
def execCrewSwitch (out inn : CrewKey) (s : State) : Host.Outcome State Fault Refusal :=
  .next (if clockOn s then exchangeCrews out inn (onCrew out leaveSet s) else s)

/-! ### Completion (R31 to R35, R325, R326) -/

/-- A job slice is over but for a completion store that waits for its answer. -/
def overButStore (s : State) (j : Job) : Bool := j.phase == .done || waitsIo s (.completion j.take)

/-- Nothing spawned by a job slice is left to complete (R31). -/
def childrenDone (s : State) (take : Nat) : Bool :=
  (allJobs s).all (fun j => j.parent != some take || overButStore s j) &&
  s.queues.all (fun p => p.2.recs.all (fun r => r.parent != some take))

/-- Every team of a job slice is complete. -/
def teamsOver (s : State) (take : Nat) : Bool := (allTeams s).all (fun t => t.job != take || t.place == .done)

/-- GRID_COMPLETE (R31, R33): what its crews issued is performed, Sieve entries included; a deterministic job slice's digest
comes next.
(DEDUCED, safe: notes/assumptions/24.md) -/
def execGridComplete (job : Nat) (s : State) : Host.Outcome State Fault Refusal :=
  .next (match findJob s job with
    | some j =>
      let held := (allCrews s).any (fun c => c.key.job == job && !(c.sieve.isEmpty && c.ops.isEmpty))
      if clockOn s && j.phase == .running && teamsOver s job && childrenDone s job && !held then
        let s1 := wbLines (fun l => l.kind == .swc) false s
        let s2 := modJob job (fun x => { x with phase := if x.rcd.flags.testBit 0 then .gridDone else .storing }) s1
        if j.rcd.flags.testBit 14 then raise (mkEvent s2 j 2 0 0 0 0 0) s2 else s2
      else s
    | none => s)

/-- Add a region to runs, last first, that begin at or below it. -/
def addRegion (runs : List (Nat × Nat)) (x : Nat × Nat) : List (Nat × Nat) :=
  match runs with
  | (b, m) :: t => if x.1 ≤ b + m then (b, max m (x.1 + x.2 - b)) :: t else x :: (b, m) :: t
  | [] => [x]

/-- Join regions in ascending order into maximal runs (R325). -/
def mergeRuns (l : List (Nat × Nat)) : List (Nat × Nat) := (l.foldl addRegion []).reverse

/-- The output set of a job slice. -/
def outputRuns (j : Job) : List (Nat × Nat) := mergeRuns (sortBy (fun a b => decide (a.1 ≤ b.1)) j.regions)

/-- The message of the digest. -/
def digestMsg (j : Job) (s : State) : Except (Nat × XFail) (List Byte × Bool × State) :=
  (outputRuns j).foldlM (fun (acc : List Byte × Bool × State) (r : Nat × Nat) => do
    let (b, bad, t) ← readVa (schedAsker j) r.1 r.2 acc.2.2
    .ok (acc.1 ++ natToBytes 8 r.1 ++ natToBytes 8 r.2 ++ b, acc.2.1 || bad, t)) ([], false, s)

/-- DIGEST_COMPUTE (R325): a read that cannot be completed fails the job slice with REASON 8.
(PRESUMED, unsafe: notes/assumptions/4.md) -/
def execDigestCompute (job : Nat) (s : State) : Host.Outcome State Fault Refusal :=
  .next (match findJob s job with
    | some j =>
      if !clockOn s || j.phase != .gridDone || waitsIo s (.digest job) then s
      else match digestMsg j s with
        | .ok (m, false, t) => modJob job (fun x => { x with digest := some (shake256 32 m), phase := .storing }) t
        | .error (va, .fault k lv pa) => ioFault j (.digest job) (BitVec.ofNat 64 va) k lv pa 0 s
        | _ => abortJob job 8 0 s
    | none => s)

/-- The job slice completes successfully. -/
def succeeded (j : Job) : Bool := j.failReason == 0 && !j.missed

/-- The chain value takes up a successful deterministic job slice (R326).
(PRESUMED, unsafe: notes/assumptions/4.md, DEDUCED, unsafe: notes/assumptions/25.md) -/
def chain (j : Job) (s : State) : State :=
  match j.digest with
  | some d =>
    if succeeded j then
      modJob j.take (fun x => { x with digest := none })
        (modQ j.queue (fun q => { q with digest := shake256 32 (q.digest ++ natToBytes 8 j.rcd.doneseq.toNat ++ d) }) s)
    else s
  | none => s

/-- The value of a completion store (R17, R33). -/
def doneValue (j : Job) : W64 := if succeeded j then j.rcd.doneseq else j.rcd.doneseq ||| (1#64 <<< 63)

/-- The job slice is over, and its event is raised (R32, R313). (DEDUCED, unsafe: notes/assumptions/25.md) -/
def jobOver (j : Job) (reason : Nat) (s : State) : State :=
  let s1 := modJob j.take (fun x => { x with phase := .done }) s
  if reason ≠ 0 then raise (mkEvent s1 j 3 1 reason (if reason = 6 then j.failCause else 0) 0 0) s1
  else if j.rcd.flags.testBit 15 then raise (mkEvent s1 j 3 0 0 0 0 0) s1
  else s1

/-- REASON of a job slice as its completion store finds it; 0 for success (R313). -/
def doneReason (j : Job) : Nat := if j.failReason ≠ 0 then j.failReason else if j.missed then 12 else 0

/-- The header of a team block with a state (R299). -/
def ctxHeader (j : Job) (t : Team) (st : Nat) : List Byte :=
  natToBytes 2 1 ++ natToBytes 1 st ++ natToBytes 1 t.spillsz ++ natToBytes 4 0 ++
    natToBytes 8 j.rcd.doneseq.toNat ++ natToBytes 8 t.idx ++ natToBytes 8 0

/-- STATE of a team's context area becomes failed when its job slice has, if the area was in use and can be written.
(DESIGN CHOICE, unsafe: notes/assumptions/21.md) -/
def failHeader (j : Job) (s : State) (t : Team) : State :=
  if t.ctxState = 0 then s
  else match writeVa (schedAsker j) none (ctxAddr j.rcd t.idx) (ctxHeader j t 3) s with
    | .ok u => modTeam j.take t.idx (fun x => { x with ctxState := 3 }) u
    | .error _ => s

/-- The headers of a job slice's teams when it has failed. -/
def failHeaders (j : Job) (s : State) : State :=
  if j.failReason = 0 then s else ((allTeams s).filter (fun t => t.job == j.take)).foldl (failHeader j) s

/-- The completion store (R33, R35). One that waits has completed nothing: the chain value changes with the store (R326).
(DEDUCED, unsafe: notes/assumptions/25.md, DEDUCED, unsafe: notes/assumptions/26.md) -/
def storeDoneWord (j : Job) (s : State) : State :=
  if j.rcd.doneaddr = 0 ∨ !wordPtr j.rcd.doneaddr then jobOver j (doneReason j) (chain j s)
  else match writeVa (schedAsker j) none (fld j.rcd.doneaddr 55 0) (natToBytes 8 (doneValue j).toNat) s with
    | .ok t => jobOver j (doneReason j) (chain j t)
    | .error (va, .fault k lv pa) => ioFault j (.completion j.take) (ptrAt j.rcd.doneaddr va) k lv pa 1 s
    | .error (va, .held f) => ioHold j (.completion j.take) (ptrAt j.rcd.doneaddr va).toNat f s
    | .error _ => jobOver j 11 s

/-- Every operation that the crews of a job slice issued is performed or abandoned (R33, R312).
(DEDUCED, safe in part: notes/assumptions/24.md) -/
def drained (s : State) (take : Nat) : Bool := (allCrews s).all (fun c => c.key.job != take || c.ops.isEmpty)

/-- COMPLETION_WORD_STORE (R33): once everything spawned under the job slice is over and what its crews issued is performed,
dirty lines included.
(DEDUCED, unsafe: notes/assumptions/25.md) -/
def execCompletionWordStore (job : Nat) (s : State) : Host.Outcome State Fault Refusal :=
  .next (match findJob s job with
    | some j =>
      if clockOn s && j.phase == .storing && childrenDone s job && drained s job && !waitsIo s (.completion job) then
        storeDoneWord j (failHeaders j (wbLines (fun l => l.kind == .swc) false s))
      else s
    | none => s)

/-- The bytes of an event record (R313). -/
def eventBytes (e : Event) : List Byte :=
  natToBytes 8 e.seq.toNat ++ natToBytes 1 e.level ++ natToBytes 1 e.kind ++ natToBytes 1 e.reason ++
    natToBytes 1 e.cause ++ natToBytes 1 e.queue ++ natToBytes 3 0 ++ natToBytes 4 e.team ++ natToBytes 1 e.crew ++
    natToBytes 3 0 ++ natToBytes 8 e.time

/-- An event may be written: after its job slice's completion word, if any. -/
def eventReady (s : State) (e : Event) : Bool :=
  match e.job with
  | some j => (findJob s j).all (fun x => x.phase == .done)
  | none => true

/-- Signal a vector when a ring is at least half full. -/
def signalHalf (r v : Nat) (s : State) : State :=
  if (ringOf s r).size.toNat ≤ 2 * ringUsed (ringOf s r) then signal v s else s

/-- EVENT_RECORD_WRITE (R313): the oldest event of a world, or, with its queue full, the notice that one waits. -/
def execEventRecordWrite (secure : Bool) (s : State) : Host.Outcome State Fault Refusal :=
  .next (
    let w := if secure then 1 else 0
    let mine := fun (e : Event) => e.secure == secure && eventReady s e
    match s.events.find? mine with
    | none => s
    | some e =>
      if !clockOn s then s
      else if ringRoom (ringOf s (2 + w)) then
        let s1 := ringPut (2 + w) (eventBytes e) { s with events := dropFirst mine s.events }
        signalHalf (2 + w) (66 + w) (if e.irq then signal e.queue s1 else s1)
      else if s.events.any (fun x => mine x && !x.waited) then
        signal (66 + w) { s with events := updFirst (fun x => mine x && !x.waited) (fun x => { x with waited := true }) s.events }
      else s)

/-! ### Deadlines and budgets (R308 to R311) -/

/-- Device time has passed a deadline. -/
def pastDeadline (s : State) (d : Nat) : Bool := d != 0 && decide (d < devTime s)

/-- A deferred trap for a crew that has not completed. -/
def pendLive (p : Crew → Bool) (t : PTrap) (c : Crew) : Crew :=
  if p c && c.status != .complete then { c with ptraps := c.ptraps ++ [t] } else c

/-- A job slice misses its deadline (R311). -/
def missJob (j : Job) (s : State) : State :=
  let s1 := modJob j.take (fun x => { x with missed := true }) (raise (mkEvent s j 3 2 0 0 0 0) s)
  if j.rcd.flags.testBit 2 then abortJob j.take 5 0 s1
  else mapCrews (pendLive (fun c => c.key.job == j.take) ⟨0x0B, BitVec.ofNat 64 j.deadline, .now⟩) s1

/-- A record misses its deadline while it waits. -/
def missRec (q i : Nat) (r : QRec) (s : State) : State :=
  let s1 := raise (mkEvent s (failedJob s q (sliceQ s q) r 0) 3 2 0 0 0 0) s
  let s2 := modQ q (fun x => { x with recs := x.recs.mapIdx (fun k y => if k = i then { y with missed := true } else y) }) s1
  if r.rcd.flags.testBit 2 then failRecord q i 5 s2 else s2

/-- DEADLINE_MISS; in D3 records that wait stay where they are (R357). -/
def execDeadlineMiss (ref : JobRef) (s : State) : Host.Outcome State Fault Refusal :=
  .next (match ref with
    | .taken take => match findJob s take with
      | some j => if !s.dev.tripped && j.phase != .done && !j.missed && pastDeadline s j.deadline then missJob j s else s
      | none => s
    | .queued q i => match nth none ((sliceQ s q).recs.map some) i with
      | some r => if clockOn s && !r.missed && pastDeadline s r.rcd.deadline.toNat then missRec q i r s else s
      | none => s)

/-- A crew outside deterministic mode draws on the budget of a job slice; the flushes check it for the others (R310). -/
def drawsOn (s : State) (owner : Nat) (c : Crew) : Bool :=
  match findJob s c.key.job with
  | some j => j.budgetOwner == owner && !j.rcd.flags.testBit 0
  | none => false

/-- The counter of a budget has reached zero. -/
def budgetOut (o : Job) : Bool := o.rcd.budget != 0 && !o.exhausted && decide (o.rcd.budget.toNat + o.extended ≤ o.charged)

/-- The first job slice a crew of which, drawing on a budget, is in the handler state. -/
def handlerJob (s : State) (owner : Nat) : Option Nat :=
  ((allCrews s).find? (fun c => c.handler.isSome && c.status != .complete && drawsOn s owner c)).map (·.key.job)

/-- Job slices with a crew in the handler state fail when the budget they draw on runs out (R309). -/
def failHandlers (owner : Nat) : Nat → State → State
  | 0, s => s
  | n + 1, s => match handlerJob s owner with
    | none => s
    | some j => failHandlers owner n (abortJob j 6 0x0A s)

/-- BUDGET_EXHAUSTED (R309), for the crews outside deterministic mode. (DEDUCED, unsafe: notes/assumptions/28.md) -/
def execBudgetExhausted (job : Nat) (s : State) : Host.Outcome State Fault Refusal :=
  .next (match findJob s job with
    | some o =>
      if budgetOut o then
        let s1 := modJob job (fun x => { x with exhausted := true }) s
        let s2 := failHandlers job (allJobs s1).length s1
        mapCrews (pendLive (drawsOn s2 job) ⟨0x0A, BitVec.ofNat 64 o.charged, .now⟩) s2
      else s
    | none => s)

/-! ### Pre-emption by the scheduler (R307, R322) -/

/-- Something holds of the crew of a name. -/
def atCrew (k : CrewKey) (p : State → Bool) (s : State) : Bool :=
  match focus k s with
  | some t => p t
  | none => false

/-- The crews of a job slice, in key order. -/
def jobCrews (s : State) (take : Nat) : List Crew :=
  sortBy (fun a b => !keyLt b.key a.key) ((allCrews s).filter (fun c => c.key.job == take))

/-- A deterministic job slice may be stopped now: a flush has completed, no crew is past the next interval, and each can
reach a switch point in it: one at its end is at a switch point, or the next flush comes first (R322). -/
def detStoppable (s : State) (j : Job) : Bool :=
  let last := (j.flushK + 1) * flushF j
  j.flushK != 0 && (allCrews s).all (fun c => c.key.job != j.take || c.status == .complete || decide (c.clock < last) ||
    (c.clock == last && atCrew c.key laneAtSwitch s))

/-- Job slice l is pre-empted before job slice m for the same need (R307). -/
def victimBefore (l m : Job) : Bool :=
  let a := deadlineKey l.deadline
  let b := deadlineKey m.deadline
  decide (b < a) || (a == b && (decide (m.queue < l.queue) || (m.queue == l.queue && decide (m.take < l.take))))

/-- Job slices that may give way to job slice e, in the order of R307. -/
def victimJobs (s : State) (e : Job) : List Job :=
  sortBy victimBefore ((allJobs s).filter (fun l => l.phase == .running && l.take != e.take && l.rcd.ctxbase != 0 &&
    decide (deadlineKey e.deadline < deadlineKey l.deadline) && (!l.rcd.flags.testBit 0 || detStoppable s l)))

/-- The teams of a job slice resident on a core that a test admits, highest index first; a deterministic job slice's
all count as one victim, as does each team of another. -/
def victimsOf (s : State) (on : Nat → Bool) (l : Job) : List (List Nat) :=
  let ts := (allTeams s).filter (fun t => t.job == l.take)
  let here := ts.filter (fun t => match t.place with
    | .resident c => on c
    | _ => false)
  if l.rcd.flags.testBit 0 then
    if here.isEmpty then [] else [((ts.filter (fun t => (placeCore t.place).isSome)).map (·.idx))]
  else (sortBy (fun a b => decide (b ≤ a)) (here.map (·.idx))).map (fun i => [i])

/-- The machine as it will stand once the teams of a core that are leaving have left. -/
def afterStops (s : State) : State :=
  let f := fun (t : Team) => match t.place with
    | .stopping _ => { t with place := .saved }
    | _ => t
  { s with team := f s.team, teams := s.teams.map f }

/-- The dies a team may be placed on at all: those PLACE names, or in mode 0 any (R36); a saved team may be restored on any
(R300). -/
def allowedDies (s : State) (j : Job) (team : Nat) : List Nat :=
  if j.rcd.placeByte % 4 = 0 ∨ j.rcd.flags.testBit 0 ∨ (findTeam s j.take team).any (fun t => t.place == .saved) then
    List.range 8
  else (placeDie s j team).toList

/-- Bound barriers of a core's teams, those that copies alone keep included. -/
def barriersOn (s : State) (core : Nat) : Nat := ((teamsOn s core).map (fun t => t.barriers.length)).foldl (· + ·) 0
/-- Bound handles of a core's teams. -/
def handlesOn (s : State) (core : Nat) : Nat := ((teamsOn s core).map (fun t => t.handles.length)).foldl (· + ·) 0
/-- A core can take a team with what it holds (R38, R300). (DEDUCED, unsafe: notes/assumptions/23.md) -/
def canHold (s : State) (j : Job) (t : Team) (core : Nat) : Bool :=
  canTake s j core && decide (barriersOn s core + t.barriers.length ≤ 32) &&
    decide (handlesOn s core + t.handles.length ≤ 64)

/-- A core has room for a team that waits: one that is saved brings its barriers and handles (R12, R300). -/
def roomFor (s : State) (j : Job) (team core : Nat) : Bool :=
  match findTeam s j.take team with
  | some t => if t.place == .saved then canHold s j t core else canTake s j core
  | none => false

/-- The listed teams of a job slice fit on the device together. -/
def fitTogether (j : Job) : List Nat → State → Bool
  | [], _ => true
  | i :: r, s => match coreAmong s (roomFor s j i) (List.range 8) with
    | some core => fitTogether j r (modTeam j.take i (fun t => { t with place := .resident core }) s)
    | none => false

/-- A team can be placed once the teams now leaving have left; with a deterministic job slice's, all that have no place. -/
def fitsLater (s : State) (j : Job) (team : Nat) : Bool :=
  let t := afterStops s
  if j.rcd.flags.testBit 0 then
    fitTogether j (((allTeams s).filter (fun x => x.job == j.take && (x.place == .waiting || x.place == .saved))).map (·.idx)) t
  else (coreAmong t (roomFor t j team) (allowedDies t j team)).isSome

/-- Stop victims, in order, until a team can be placed; none when they do not suffice. -/
def stopVictims (j : Job) (team : Nat) : List (Nat × List Nat) → State → Option State
  | l, s =>
    if fitsLater s j team then some s
    else match l with
      | [] => none
      | (take, idxs) :: r => stopVictims j team r (idxs.foldl (fun t i => modTeam take i (stopTeam true) t) s)

/-- SCHEDULER_PREEMPT (R307): as many teams as a waiting team requires begin to leave. -/
def execSchedulerPreempt (job team : Nat) (s : State) : Host.Outcome State Fault Refusal :=
  .next (match findJob s job, findTeam s job team with
    | some j, some t =>
      if clockOn s && j.phase == .running && (t.place == .saved || nextTeam s t) then
        let on := fun (c : Nat) => (allowedDies s j team).contains (dieOf c)
        let victims := (victimJobs s j).flatMap (fun l => (victimsOf s on l).map (fun v => (l.take, v)))
        (stopVictims j team victims s).getD s
      else s
    | _, _ => s)

end Sys2Proof.Machine
end

