-- ==== Sys2Proof/Machine/EventCtx.lean ====
section
/-! DEFINITION. Events that move a team: saving its context, restoring it, and the move of a graft (R38, R39, R172,
R231, R274, R287, R296 to R301, R303). -/

namespace Sys2Proof.Machine

/-! ### What a save waits for (R297) -/

/-- Work of an idempotent region that a save discards (R274); of accesses through aperture 0x3 those of lanes, and answers
not taken yet. (DEDUCED, unsafe: notes/assumptions/22.md) -/
def regionWork (o : Op) : Bool :=
  o.region && match o.kind with
    | .gather _ | .scatter _ | .part _ _ _ _ _ _ | .tload _ _ => true
    | .remote lane _ got => lane || !remLive got
    | _ => false

/-- A gang refines. -/
def refines (g : Gang) : Bool :=
  match g.wait with
  | .refine _ _ => true
  | _ => false

/-- A crew whose region is rolled back by a save: it is inside one, and not parked, refining or in its handler.
(DEDUCED, unsafe: notes/assumptions/22.md) -/
def rollsBack (c : Crew) : Bool :=
  c.region.isSome && c.park.isNone && c.handler.isNone && !((curRun c).any (fun r => r.gangs.any refines))

/-- An operation that does not hold a save back. -/
def saveMay (c : Crew) (o : Op) : Bool :=
  !opLive o || (rollsBack c && regionWork o) || match o.kind with
    | .mloop _ => true
    | .part _ _ _ _ _ parked => parked
    | .load _ _ _ _ | .laneLoad _ => true
    | _ => false

/-- The crew in focus can be saved: its work is done, no solve runs (R341), and its lanes are at a switch point. -/
def crewSavable (s : State) : Bool :=
  s.crew.status == .complete ||
    (s.crew.ops.all (saveMay s.crew) && s.crew.wait != .solve && laneAtSwitch s)

/-- The log's background work is done (R297). -/
def walkerIdle (t : Team) : Bool := t.log.pend.isEmpty && t.log.zeros.isEmpty && t.log.spilling.isNone

/-- The team in focus can be saved: its crews have come to a stop, and with a deterministic job slice's those of all its
teams (R322). -/
def teamSavable (s : State) : Bool :=
  walkerIdle s.team && (teamCrews s).all (fun c => atCrew c.key crewSavable s) &&
    (!isDet s || (detStoppable s s.job && (jobCrews s s.job.take).all (fun c => atCrew c.key crewSavable s)))

/-! ### The context area (R298, R299) -/

/-- Read or write the area of the team in focus below its spill area, on a core.
(DESIGN CHOICE, unsafe: notes/assumptions/21.md) -/
def contextAccess (core kind : Nat) (s : State) : Except (Nat × XFail) (List (Nat × Xlat) × State) :=
  areaAccess (areaHolders core) kind 0 (spillOff s.job.rcd) s

/-- The area cannot be read and written. -/
def contextShut (core : Nat) (s : State) : Bool :=
  match contextAccess core 0 s, areaXlats 1 0 (spillOff s.job.rcd) s with
  | .ok _, .ok _ => false
  | _, _ => true

/-- The address of the header among the pages of an area. -/
def headerPa (xs : List (Nat × Xlat)) : Nat := ((xs.head?).map (·.2.pa)).getD 0

/-- Write the header with a state at an address. (DESIGN CHOICE, unsafe: notes/assumptions/21.md) -/
def putHeader (st pa : Nat) (s : State) : State := memWr none pa (ctxHeader s.job s.team st) s

/-! ### Saving (R231, R274, R287, R296, R297) -/

/-- Take units back from the newest intervals. -/
def refund : Nat → List (Nat × Nat) → List (Nat × Nat)
  | _, [] => []
  | n, (k, v) :: r => if v ≤ n then refund (n - v) r else (k, v - n) :: r

/-- Roll the crew in focus back to its ir.begin (R274). (DEDUCED, unsafe: notes/assumptions/22.md) -/
def rollBack (s : State) : State :=
  match s.crew.region with
  | none => s
  | some g =>
    let keep := fun (r : ARun) => !r.run.region
    let s1 := onC (fun c => { c with
      ops := c.ops.filter (fun o => !regionWork o)
      region := none
      wait := .none
      sc := { c.sc with pc := g.pc }
      ln := { c.ln with queue := [], cur := c.ln.cur.filter keep } }) s
    if isDet s then
      modJob s.job.budgetOwner (fun j => { j with charged := j.charged - g.charged })
        (onJ (fun j => { j with spent := (refund g.charged j.spent.reverse).reverse })
          (onC (fun c => { c with clock := g.clock }) s1))
    else s1

/-- The wait that a saved crew keeps: arrivals at bar.meet and graft, answers that are in, and in deterministic mode
the logical waits (R296, R322). Any other instruction executes again from the start. -/
def keptWait (det : Bool) (w : Wait) : Wait :=
  match w with
  | .barMeet _ _ | .graft _ | .detSync _ | .released _ | .remote | .solve => w
  | .token _ | .acc _ _ _ | .qPop _ | .barHold _ => if det then w else .none
  | _ => .none

/-- A gang as it is saved: a refinement and a stalled instruction begin again. -/
def savedGang (g : Gang) : Gang :=
  match g.wait with
  | .refine _ _ | .stall | .parked => { g with wait := .ready }
  | _ => g

/-- Save the crew in focus; it leaves the merge entries it waits at (R287). (DEDUCED, unsafe: notes/assumptions/22.md) -/
def saveCrew (s : State) : State :=
  if s.crew.status = .complete then s
  else
    let core := coreOf s
    let det := isDet s
    let held := (coreAt s core).token == some s.crew.key
    let s0 := (s.crew.ops.filter isLoadOp).foldl (fun t _ => loadBack t) s
    let s1 := if rollsBack s0.crew then rollBack s0 else s0
    let s2 := deactivate s1
    let gangs := fun (r : ARun) => { r with gangs := r.gangs.map savedGang }
    let s3 := onC (fun c => { c with
      park := none
      ops := c.ops.map unparkPart
      wait := keptWait det c.wait
      cmo := none
      hadToken := c.hadToken || held
      spilled := c.banks.map (·.1)
      carried := []
      ln := { c.ln with cur := c.ln.cur.map gangs, hcur := c.ln.hcur.map gangs } }) s2
    let s4 := { s3 with merges := s3.merges.map (keepWaiters (· != s.crew.key)) }
    modCore core (fun x => { x with engine := x.engine.filter (· != s.crew.key) }) s4

/-- Save the team in focus: its crews, its lines, and its place on the core.
(DESIGN CHOICE, unsafe: notes/assumptions/21.md, DEDUCED, safe: notes/assumptions/44.md) -/
def saveTeam (core : Nat) (s : State) : State :=
  let keys := (teamCrews s).map (·.key)
  let s1 := keys.foldl (fun t k => onCrew k saveCrew t) s
  let s2 := wbLines (fun l => l.core == core) true s1
  let s3 := onT (fun t => { t with place := .saved, ctxState := 1, absent := usedGranules s2 s2.team, mesh := [] }) s2
  grantBanks core 16 (keys.foldl (fun t k => dropToken k core t) s3)

/-- TEAM_CONTEXT_SAVE: the context area is written, its header included, and the team leaves the core (R297 to R299).
(DESIGN CHOICE, unsafe: notes/assumptions/21.md) -/
def execTeamContextSave (job team : Nat) (s : State) : Host.Outcome State Fault Refusal :=
  .next (onTeam job team (fun t => match t.team.place with
    | .stopping core =>
      if !clockOn t || !teamSavable t || waitsIo t (.context job team) then t
      else match contextAccess core 1 t with
        | .error (va, e) => contextFail (.context job team) va 1 e t
        | .ok (xs, u) => saveTeam core (putHeader 1 (headerPa xs) u)
    | _ => t) s)

/-! ### Restoring (R231, R299, R300) -/

/-- SPILLSZ as a restore reads it: a value above 11, or one without room for the slots in use, is ignored (R299). -/
def newSpillsz (t : Team) (v : Nat) : Nat :=
  if 11 < v ∨ (slotsUsed t.log).any (fun k => decide (spillSlots v ≤ k)) then t.spillsz else v

/-- The crew in focus is on its core again: its saved steps rejoin the engine's order. -/
def enterCrew (core : Nat) (s : State) : State :=
  if s.crew.status = .complete then s
  else
    let steps := (s.crew.ops.filter isEngine).map (fun _ => s.crew.key)
    let act := decide (activeOn s core < 8) && crewReady s s.crew
    modCore core (fun x => { x with engine := x.engine ++ steps }) (onC (fun c => { c with active := act }) s)

/-- Put the team in focus, and all its state, on a core; its banks are refilled as room allows (R300). SWC lines there may
be older than what its crews have read or written elsewhere, so they go (R176).
(DEDUCED, safe: notes/assumptions/44.md) -/
def landTeam (core : Nat) (s : State) : State :=
  let s0 := wbLines (fun l => l.core == core && l.kind == .swc) true s
  let s1 := onT (fun t => { t with place := .resident core }) (enterCore core s0.job.secure s0)
  grantBanks core 16 (offerToken core (((teamCrews s1).map (·.key)).foldl (fun t k => onCrew k (enterCrew core) t) s1))

/-- Restore the team in focus: its area is read, SPILLSZ is read again, and the header says that the team is resident.
(DESIGN CHOICE, unsafe: notes/assumptions/21.md) -/
def restoreOn (core : Nat) (s : State) : State :=
  let w := IoWaiter.context s.job.take s.team.idx
  match contextAccess core 0 s, areaXlats 1 0 (spillOff s.job.rcd) s with
  | .error (a, e), _ => contextFail w a 0 e s
  | .ok _, .error (a, e) => contextFail w a 1 e s
  | .ok (xs, t), .ok ys =>
    let z := newSpillsz s.team (bytesToNat (memRd t (headerPa xs + 3) 1))
    landTeam core (putHeader 2 (headerPa ys) (onT (fun x => { x with spillsz := z, ctxState := 2 }) t))

/-- Restore every listed team, the first on a named core and the others wherever they fit; none when one finds no
place or an access fails. -/
def restoreAll (j : Job) : List (Nat × Option Nat) → State → Option State
  | [], s => some s
  | (i, c) :: r, s =>
    match findTeam s j.take i with
    | none => none
    | some t =>
      let core := match c with
        | some n => if canHold s j t n then some n else none
        | none => coreAmong s (canHold s j t) (freeDies s j 0)
      match core with
      | none => none
      | some n =>
        let s1 := onTeam j.take i (restoreOn n) s
        if (findTeam s1 j.take i).any (fun u => u.place == .resident n) then restoreAll j r s1 else none

/-- The saved teams of a job slice. -/
def savedTeams (s : State) (take : Nat) : List Nat :=
  ((allTeams s).filter (fun t => t.job == take && t.place == .saved)).map (·.idx)

/-- TEAM_RESTORE (R300): a deterministic job slice is restored whole (R322). -/
def execTeamRestore (job team core : Nat) (s : State) : Host.Outcome State Fault Refusal :=
  .next (match findJob s job, findTeam s job team with
    | some j, some t =>
      let leaving := (allTeams s).any (fun u => u.job == job && match u.place with
        | .stopping _ => true
        | _ => false)
      if !clockOn s || t.place != .saved || j.phase != .running || 256 ≤ core || !canHold s j t core ||
          heldBack s j (dieOf core) || (savedTeams s job).any (fun i => waitsIo s (.context job i)) then s
      else if j.rcd.flags.testBit 0 then
        if leaving then s
        else
          let rest := (sortBy (fun a b => decide (a ≤ b)) (savedTeams s job)).filter (· != team)
          let bad := fun (i : Nat) => atCrew ⟨job, i, 0⟩ (contextShut core) s
          match (team :: rest).find? bad with
          | some i => onTeam job i (restoreOn core) s
          | none => (restoreAll j ((team, some core) :: rest.map (fun i => (i, none))) s).getD s
      else onTeam job team (restoreOn core) s
    | _, _ => s)

/-! ### Graft (R38, R39) -/

/-- The hint of a crew that has arrived at graft: it waits there, or its arrival is kept (R97, R296). -/
def graftArrival (c : Crew) : Option W64 :=
  match c.wait with
  | .graft h => some h
  | _ => (c.graftKept.filter (fun k => k.done.isNone)).map (·.hint)

/-- A crew has arrived at graft; one that is parked has not (R39). -/
def atGraft (c : Crew) : Bool := c.status == .running && c.park.isNone && (graftArrival c).isSome

/-- Every crew of the team in focus has arrived and is at a switch point, its counters are zero, and no handle is
filling. (DEDUCED, unsafe: notes/assumptions/23.md) -/
def graftReady (s : State) : Bool :=
  let cs := teamCrews s
  !cs.isEmpty && cs.all (fun c => atGraft c && !anyOps c && atCrew c.key laneAtSwitch s) &&
    s.team.handles.all (fun p => p.2.all (fun h => h.st != .filling))

/-- The last interval of the arrivals at a graft. -/
def graftInterval (s : State) : Nat :=
  ((teamCrews s).map (fun c => c.clock / flushF s.job)).foldl max 0

/-- The hint of the team leader. -/
def graftHint (s : State) : W64 :=
  match (teamCrews s).head? with
  | some c => (graftArrival c).getD 0
  | none => 0

/-- The core a graft moves to: on the home die of the hint, else on the nearest die with such a core; none when the
team stays. (DEDUCED, unsafe: notes/assumptions/23.md, DEDUCED, unsafe: notes/assumptions/45.md) -/
def graftTarget (core : Nat) (s : State) : Option Nat :=
  let h := graftHint s
  let die := if apOf h ≤ 2 ∧ fld h 59 56 = 0 then homeDie s s.job.root s.job.secure (fld h 55 0) else none
  let can := fun (c : Nat) => c != core && canHold s s.job s.team c
  match die with
  | none => none
  | some d =>
    if d = dieOf core then none
    else match nearestDie (fun x => (coreFor s can x).isSome) d with
      | some x => if dieDist d x < dieDist d (dieOf core) then coreFor s can x else none
      | none => none

/-- The graft of the crew in focus is complete: at once, or in deterministic mode at the flush of the last arrival
(R319); a kept arrival notes it for the resume (R296). (DEDUCED, unsafe: notes/assumptions/23.md) -/
def graftEnd (i : Nat) (s : State) : State :=
  if s.crew.graftKept.isSome then
    onC (fun c => { c with graftKept := (c.graftKept.filter (·.waits)).map (fun k => { k with done := some i }) }) s
  else if isDet s ∧ s.job.flushK ≤ i then onC (fun c => { c with wait := .released i }) s
  else
    let s1 := finish (s.crew.sc.pc + 4) s
    if isDet s then raiseClock (some i) s1 else s1

/-- The weight granules of a team that moves travel verbatim: as many of those in its old core's buffer as the new one has
room for are in that, and the others come there from the mesh as room is made (R38, R222).
(DEDUCED, unsafe: notes/assumptions/23.md) -/
def carryGranules (target : Nat) (s : State) (t : Team) : Team :=
  let here := (usedGranules s t).filter (fun g => !t.absent.contains g)
  let out := here.drop (128 - granulesOn s target)
  { t with absent := t.absent ++ out, mesh := t.mesh ++ out }

/-- The banks of a crew whose team moves travel verbatim, but for those that lie in its accumulator slots; all are bound again
as the new core has room (R38, R217). (DEDUCED, unsafe: notes/assumptions/23.md) -/
def carryBanks (c : Crew) : Crew :=
  let names := c.banks.map (·.1)
  { c with spilled := names, carried := names.filter (fun b => !c.spilled.contains b || c.carried.contains b) }

/-- The team in focus leaves its core for another.
(DEDUCED, unsafe: notes/assumptions/23.md, DEDUCED, safe: notes/assumptions/44.md) -/
def moveTeam (core target : Nat) (s : State) : State :=
  let keys := (teamCrews s).map (·.key)
  let s1 := keys.foldl (fun t k => onCrew k deactivate t) s
  let s2 := wbLines (fun l => l.core == core) true s1
  let s3 := keys.foldl (fun t k => dropToken k core t) s2
  let s4 := keys.foldl (fun t k => modCrew k carryBanks t) s3
  landTeam target (grantBanks core 16 (onT (fun t => { carryGranules target s4 t with place := .saved }) s4))

/-- GRAFT_MOVE (R38). -/
def execGraftMove (job team : Nat) (s : State) : Host.Outcome State Fault Refusal :=
  .next (onTeam job team (fun t => match t.team.place with
    | .resident core =>
      if !clockOn t || !graftReady t then t
      else
        let i := graftInterval t
        let t1 := match graftTarget core t with
          | some c => moveTeam core c t
          | none => t
        ((teamCrews t1).map (·.key)).foldl (fun u k => onCrew k (graftEnd i) u) t1
    | _ => t) s)

end Sys2Proof.Machine
end

