-- ==== Sys2Proof/Machine/EventDev.lean ====
section
/-! DEFINITION. Events of the device: fault records and their answers, the placement monitor and replicas, writes of
the control registers, power and temperature, bring-up, attestation, the host's memory window, and soft errors (R18, R19, R170,
R171, R282 to R290, R296, R304, R312, R342, R353 to R367). -/

namespace Sys2Proof.Machine

/-! ### Fault records and answers (R283 to R286) -/

/-- The bytes of a fault record (R285). -/
def faultBytes (m : Merge) : List Byte :=
  natToBytes 8 m.va.toNat ++ natToBytes 2 (if m.table = 64 then m.entry else m.table * 1024 + m.entry) ++
    natToBytes 1 m.kind ++ natToBytes 1 (m.access + 16 * m.source) ++ natToBytes 2 m.asid ++ natToBytes 1 m.level ++
    natToBytes 1 m.queue ++ natToBytes 8 m.seq.toNat ++ natToBytes 8 m.entryPa

/-- FAULT_RECORD_WRITE (R285): the oldest fault of a world without a record. -/
def execFaultRecordWrite (secure : Bool) (s : State) : Host.Outcome State Fault Refusal :=
  .next (
    let w := if secure then 1 else 0
    let mine := fun (m : Merge) => m.secure == secure && !m.held && !m.written
    match s.merges.find? mine with
    | none => s
    | some m =>
      if clockOn s && ringRoom (ringOf s w) then
        signal (64 + w) (ringPut w (faultBytes m)
          { s with merges := updFirst mine (fun x => { x with written := true }) s.merges })
      else s)

/-- FRESP as a value: the entry, in the I/O die's table or a cluster's, and the action. -/
def frespWord (io fail : Bool) (merge : Nat) : W64 :=
  BitVec.ofNat 64 (merge % 65536 + (if fail then 65536 else 0) + (if io then 2 ^ 18 else 0))

/-- FRESP_RETRY. -/
def execFrespRetry (secure io : Bool) (merge : Nat) (s : State) : Host.Outcome State Fault Refusal :=
  .next (if deviceUp s then answerEvent secure (frespWord io false merge) s else s)
/-- FRESP_FAIL. -/
def execFrespFail (secure io : Bool) (merge : Nat) (s : State) : Host.Outcome State Fault Refusal :=
  .next (if deviceUp s then answerEvent secure (frespWord io true merge) s else s)

/-! ### The placement monitor and replicas (R288 to R290) -/

/-- What a die counted for a page in a window. -/
def countOf (s : State) (w die : Nat) (a : MonAdvice) : Nat × Nat :=
  match s.monitor.find? (fun m => m.window == w && m.die == die && m.asid == a.asid && m.secure == a.secure && m.page == a.page) with
  | some m => (m.reads, m.writes)
  | none => (0, 0)

/-- The die that made the most accesses to a page in a window, ties to the lower, and their number.
(DESIGN CHOICE, unsafe: notes/assumptions/32.md) -/
def topDie (s : State) (w : Nat) (a : MonAdvice) : Nat × Nat :=
  let n := fun (d : Nat) => (countOf s w d a).1 + (countOf s w d a).2
  (List.range 8).foldl (fun best d => if best.2 < n d then (d, n d) else best) (0, n 0)

/-- One advice record; a full queue drops it and counts it. -/
def adviceRecord (die w : Nat) (a : MonAdvice) (s : State) : State :=
  let top := topDie s w a
  let bytes := natToBytes 8 (4096 * a.page) ++ natToBytes 2 a.asid ++ natToBytes 1 top.1 ++ natToBytes 1 0 ++ natToBytes 4 top.2
  if ringRoom (ringOf s (4 + die)) then signalHalf (4 + die) 68 (ringPut (4 + die) bytes s)
  else signal 68 (onDev (fun d => { d with mqovf := smMod 0 d.mqovf die (· + 1) }) s)

/-- MONITOR_WINDOW_END (R288): once in each window, for pages of the window before that the die's cores have accessed.
(DESIGN CHOICE, unsafe: notes/assumptions/32.md) -/
def execMonitorWindowEnd (die : Nat) (advice : List MonAdvice) (s : State) : Host.Outcome State Fault Refusal :=
  .next (
    let w := monWindow s
    if die < 8 && deviceUp s && clockOn s && decide (smGet 0 s.dev.monDone die < w) then
      (advice.filter (fun a => (countOf s (w - 1) die a) != (0, 0))).foldl (fun t a => adviceRecord die (w - 1) a t)
        (onDev (fun d => { d with monDone := smSet 0 d.monDone die w }) s)
    else s)

/-- The lowest free frame of a size in a die's replica pool. (DESIGN CHOICE, unsafe: notes/assumptions/32.md) -/
def poolFrame (s : State) (die size : Nat) : Option Nat :=
  let base := (smGet 0 s.dev.repbase die).toNat
  let len := (smGet 0 s.dev.repsize die).toNat
  let first := (base + size - 1) / size * size
  ((List.range (len / size + 1)).map (fun i => first + size * i)).find? (fun f =>
    decide (f + size ≤ base + len) && !s.replicas.any (fun r => overlaps f size r.frame r.size))

/-- The root of an address space in use in a world. (DESIGN CHOICE, unsafe: notes/assumptions/32.md) -/
def rootOf (s : State) (asid : Nat) (secure : Bool) : Option W64 :=
  ((allJobs s).find? (fun j => j.phase != .done && asidOf j.root == asid && j.secure == secure)).map (·.root)

/-- In one window the die made at least 4,096 reads of the page, and nobody wrote it or its frame (R289).
(DESIGN CHOICE, unsafe: notes/assumptions/32.md) -/
def wantsReplica (s : State) (die : Nat) (a : MonAdvice) (master size : Nat) : Bool :=
  [monWindow s - 1, monWindow s].any (fun w => decide (4096 ≤ (countOf s w die a).1) &&
    (List.range 8).all (fun d => (countOf s w d a).2 == 0) &&
    !s.monitor.any (fun m => m.window == w && m.die == 8 && m.writes != 0 && overlaps (4096 * m.page) 4096 master size))

/-- A place in a range of physical memory. -/
def inFrame (master size : Nat) (l : Loc) : Bool :=
  match l with
  | .phys pa _ => decide (master ≤ pa) && decide (pa < master + size)
  | _ => false

/-- A write to a frame that was translated before is still to be performed: an atomic, a scatter-add or a dirty line. -/
def writeUnderWay (s : State) (master size : Nat) : Bool :=
  let p := inFrame master size
  s.l1.any (fun l => l.dirty != 0 && overlaps (128 * l.line) 128 master size) ||
  (allCrews s).any (fun c =>
    c.ops.any (fun o => match o.kind with
      | .amo a => p a.loc
      | .vamo l _ => l.any (fun a => p a.loc)
      | .scatAdd l => l.any (fun x => p x.loc)
      | _ => false) ||
    c.sieve.any (fun e => match e.kind with
      | .amo a | .vamo a _ => p a.loc
      | .add x => p x.loc
      | _ => false))

/-- REPLICA_CREATE (R289): the page is duplicated on the die when its window's counts ask for it, the pool has
room and no write to it is under way. (DESIGN CHOICE, unsafe: notes/assumptions/32.md) -/
def execReplicaCreate (die : Nat) (page : MonAdvice) (s : State) : Host.Outcome State Fault Refusal :=
  .next (
    if !clockOn s || 8 ≤ die then s
    else match (rootOf s page.asid page.secure).map (fun r => walk s r (4096 * page.page)) with
      | some (.ok l) =>
        let master := entryPA l.e
        let size := 2 ^ l.bits
        if !wantsReplica s die page master size || writeUnderWay s master size || !l.e.getLsbD 10 || 16 < l.bits ||
            s.replicas.any (fun r => r.master == master && (r.die == die || r.dead)) then s
        else match poolFrame s die size with
          | none => s
          | some f =>
            let s1 := memWr none f (memRd s master size) s
            let bad := (wordsOf master size).filter (smGet false s.memBad)
            { s1 with
              memBad := bad.foldl (fun m w => smSet false m (w - master / 8 + f / 8) true) s1.memBad
              replicas := s1.replicas ++ [⟨die, master, size, f, l.entryPa, false⟩] }
      | _ => s)

/-- The held entries of a master frame. -/
def heldFor (frame : Nat) (m : Merge) : Bool := m.held && m.entryPa == frame

/-- A host write is performed; it is complete once no acknowledgement for its lines is outstanding (R281). -/
def hostStore (addr : Nat) (b : List Byte) (s : State) : State :=
  let t := memWr none addr b s
  onDev (fun d => { d with hostLines := d.hostLines ++ (linesOf addr b.length).filter (fun n => awaitsAck [n] t) }) t

/-- A write of some bytes reaches a page that has replicas. -/
def onReplica (s : State) (addr n : Nat) : Bool := s.replicas.any (fun r => overlaps addr n r.master r.size)

/-- Held host writes whose pages have no replica left are performed (R290). -/
def hostGo (s : State) : State :=
  s.dev.hostHeld.foldl (fun t x =>
    if onReplica t x.1 x.2.length then onDev (fun d => { d with hostHeld := d.hostHeld ++ [x] }) t else hostStore x.1 x.2 t)
    (onDev (fun d => { d with hostHeld := [] }) s)

/-- PAGE_COLLAPSE (R290): every replica of a frame is dead and every acknowledgement is in, and the writes held for it go on,
those too that joined the entry of a fault. -/
def execPageCollapse (frame : Nat) (s : State) : Host.Outcome State Fault Refusal :=
  .next (
    let reps := s.replicas.filter (fun r => r.master == frame)
    let frames := reps.map (·.frame)
    if reps.all (·.dead) && !s.tlbs.any (fun e => frames.contains e.frame) then
      let s1 := (s.merges.filter (heldFor frame)).foldl (fun t m => retryAll m t)
        { s with replicas := s.replicas.filter (fun r => r.master != frame) }
      hostGo ((s1.merges.filter (fun m => !m.held)).foldl (fun t m => retryHeld m t) s1)
    else s)

/-! ### Register writes (R365, R366) -/

/-- A write from the host reaches a register while the device is up. -/
def hostWrite (ok : Bool) (f : State → State) (s : State) : Host.Outcome State Fault Refusal :=
  .next (if deviceUp s && ok then f s else s)

/-- BANK_MODE_WRITE. -/
def execBankModeWrite (cluster bank : Nat) (v : W32) (s : State) : Host.Outcome State Fault Refusal :=
  hostWrite (decide (cluster < 64) && decide (bank < 64)) (setBankMode cluster bank v.toNat) s
/-- BANK_TRANSITION_COMPLETE. -/
def execBankTransitionComplete (cluster bank : Nat) (s : State) : Host.Outcome State Fault Refusal :=
  .next (if clockOn s && decide (cluster < 64) && decide (bank < 64) then finishBank cluster bank s else s)
/-- QCTL_WRITE. -/
def execQctlWrite (q : Nat) (v : W64) (s : State) : Host.Outcome State Fault Refusal := hostWrite (decide (q < 64)) (setQctl q v) s
/-- DQCTL_WRITE. -/
def execDqctlWrite (n : Nat) (v : W64) (s : State) : Host.Outcome State Fault Refusal :=
  hostWrite (decide (n < 4096)) (setDqctl n v) s
/-- QSTAT_CLEAR. -/
def execQstatClear (q : Nat) (v : W64) (s : State) : Host.Outcome State Fault Refusal :=
  hostWrite (decide (q < 64)) (clearQstat q v) s
/-- RING_HEAD_WRITE. -/
def execRingHeadWrite (ring : Nat) (v : W64) (s : State) : Host.Outcome State Fault Refusal :=
  hostWrite (decide (ring < 12)) (setRingHead ring v) s
/-- RING_BASE_SIZE_WRITE. -/
def execRingBaseSizeWrite (ring : Nat) (isSize : Bool) (v : W64) (s : State) : Host.Outcome State Fault Refusal :=
  hostWrite (decide (ring < 12)) (setRingBase ring isSize v) s
/-- ASIDINV_WRITE. -/
def execAsidinvWrite (v : W64) (s : State) : Host.Outcome State Fault Refusal := hostWrite true (setAsidinv v) s
/-- PREEMPT_WRITE. -/
def execPreemptWrite (second : Bool) (v : W64) (s : State) : Host.Outcome State Fault Refusal :=
  hostWrite true (setPreempt second v) s
/-- SLCABORT_WRITE. -/
def execSlcabortWrite (second : Bool) (v : W64) (s : State) : Host.Outcome State Fault Refusal :=
  hostWrite true (setSlcabort second v) s
/-- PSTATE_ENTER_D3. -/
def execPstateEnterD3 (s : State) : Host.Outcome State Fault Refusal := hostWrite true enterD3 s
/-- PSTATE_RUN. -/
def execPstateRun (s : State) : Host.Outcome State Fault Refusal := hostWrite true leaveD3 s
/-- PCAP_WRITE. -/
def execPcapWrite (v : W64) (s : State) : Host.Outcome State Fault Refusal := hostWrite true (setPcap v) s
/-- ATTGO_WRITE. -/
def execAttgoWrite (v : W64) (s : State) : Host.Outcome State Fault Refusal := hostWrite true (setAttgo v) s
/-- ERROR_LOG_CLEAR. (DESIGN CHOICE, unsafe: notes/assumptions/12.md) -/
def execErrorLogClear (word : Nat) (v : W64) (s : State) : Host.Outcome State Fault Refusal :=
  hostWrite (decide (word < 8)) (clearErrlog word v) s
/-- REGISTER_WRITE: an offset within a register is no write of it. -/
def execRegisterWrite (off : W32) (v : W64) (s : State) : Host.Outcome State Fault Refusal :=
  hostWrite (off.toNat % regSize (regAt off.toNat) == 0) (regWrite none (regAt off.toNat) v) s

/-! ### Power and temperature (R354 to R356) -/

/-- A compute die or the I/O die. -/
def logicDie (die : Nat) : Bool := decide (die < 8) || die == 24
/-- A DRAM die. -/
def dramDie (die : Nat) : Bool := decide (8 ≤ die) && decide (die < 24)

/-- The module trips (R356): issue stops, THERMST.TRIP is set, and the host link reports a surprise-down. -/
def trip (s : State) : State := onDev (fun d => { d with tripped := true, linkDown := true }) s

/-- A sensor reading; 105 °C trips the module. -/
def setTemp (die temp : Nat) (s : State) : State :=
  let t := onDev (fun d => { d with temps := smSet 0 d.temps die temp }) s
  if 105 ≤ temp then trip t else t

/-- Move to a slower state. -/
def slowTo (p : Nat) (s : State) : State := onDev (fun d => { d with pstate := max p d.pstate }) s

/-- SENSOR_THRESHOLD_CROSSED (R354): readings of a logic die and of module power.
(DESIGN CHOICE, unsafe: notes/assumptions/34.md) -/
def execSensorThresholdCrossed (die temp power : Nat) (s : State) : Host.Outcome State Fault Refusal :=
  .next (
    if !logicDie die then s
    else
      let s1 := onDev (fun d => { d with power := power }) (setTemp die temp s)
      if 100 ≤ temp then slowTo 2 s1
      else if 95 ≤ temp ∨ s1.dev.pcap ≤ power then slowTo 1 s1
      else s1)

/-- P1_ESCALATE_TIMEOUT. -/
def execP1EscalateTimeout (s : State) : Host.Outcome State Fault Refusal :=
  .next (if s.dev.pstate = 1 ∧ s.dev.pcap ≤ s.dev.power then slowTo 2 s else s)

/-- Some die that a test selects is at a temperature or above. -/
def anyAt (s : State) (p : Nat → Bool) (t : Nat) : Bool := (List.range 25).any (fun d => p d && decide (t ≤ smGet 0 s.dev.temps d))

/-- The cause of the power state in force is present (R354, R355). -/
def causeHolds (s : State) : Bool :=
  decide (s.dev.pcap ≤ s.dev.power) ||
    (if s.dev.pstate = 2 then anyAt s logicDie 100 || anyAt s dramDie 95 else anyAt s logicDie 95)

/-- POWER_STATE_RELAX: one state faster once the cause has gone. -/
def execPowerStateRelax (s : State) : Host.Outcome State Fault Refusal :=
  .next (if causeHolds s then s else onDev (fun d => { d with pstate := d.pstate - 1 }) s)

/-- HOT of both dies of a stack. -/
def setHot (die : Nat) (b : Bool) (s : State) : State :=
  let lo := die / 2 * 2
  onDev (fun d => { d with hots := smSet false (smSet false d.hots lo b) (lo + 1) b }) s

/-- DRAM_TEMP_HOT (R355). (DESIGN CHOICE, unsafe: notes/assumptions/34.md) -/
def execDramTempHot (die temp : Nat) (s : State) : Host.Outcome State Fault Refusal :=
  .next (
    if !dramDie die || temp < 85 then s
    else
      let s1 := setHot die true (setTemp die temp s)
      if 95 ≤ temp then slowTo 2 s1 else s1)

/-- DRAM_COOL_TIMEOUT (R355): normal refresh once no die of the stack is at 82 °C or above.
(DESIGN CHOICE, unsafe: notes/assumptions/34.md) -/
def execDramCoolTimeout (die temp : Nat) (s : State) : Host.Outcome State Fault Refusal :=
  .next (
    if !dramDie die || 82 ≤ temp then s
    else
      let s1 := setTemp die temp s
      let other := if die % 2 = 0 then die + 1 else die - 1
      if smGet 0 s1.dev.temps other < 82 then setHot die false s1 else s1)

/-- THERMAL_TRIP: a reading of 105 °C, or of what the die is at. (DESIGN CHOICE, unsafe: notes/assumptions/34.md, DEDUCED,
safe: notes/assumptions/40.md) -/
def execThermalTrip (die : Nat) (s : State) : Host.Outcome State Fault Refusal :=
  .next (if die < 25 then setTemp die (max 105 (smGet 0 s.dev.temps die)) s else s)

/-- Count an error: structure 0 to 3 in the order of R362, correctable or not.
(DESIGN CHOICE, unsafe: notes/assumptions/12.md) -/
def countError (row : Nat) (bad : Bool) (s : State) : State :=
  onDev (fun d => { d with errlog := smMod 0 d.errlog (2 * row + (if bad then 1 else 0)) (· + 1) }) s

/-- DIE_LINK_FAILURE (R362): trips as R356. (DEDUCED, safe: notes/assumptions/40.md) -/
def execDieLinkFailure (die : Nat) (s : State) : Host.Outcome State Fault Refusal :=
  .next (if die < 25 then trip (countError 3 true s) else s)

/-! ### Bring-up and attestation (R358 to R361) -/

/-- The minimum security version in force: the fused one, or what has been written over it (R359).
(DESIGN CHOICE, safe: notes/assumptions/3.md) -/
def minSvn (s : State) : Nat := max Config.fusedSvn s.dev.svnRaised

/-- The boot ROM accepts a firmware image, min being the minimum security version (R359). (DESIGN CHOICE, safe:
notes/assumptions/3.md, PRESUMED, unsafe: notes/assumptions/4.md, DEDUCED, safe in part: notes/assumptions/31.md) -/
def firmwareOk (min : Nat) (im : List Byte) : Bool :=
  let vkey := (im.drop 16).take 1952
  let sig := (im.drop 1968).take 3309
  let n := fieldAt im 8 8
  let body := (im.drop 5280).take n
  decide (5280 + n ≤ im.length) && fieldAt im 0 4 == 0x00010001 && shake256 32 vkey == Config.fusedKeyDigest &&
    decide (min ≤ fieldAt im 4 4) && Config.mldsaVerify vkey (shake256 64 (im.take 1968) ++ body) sig

/-- The measurement of an image (R360). -/
def measure (im : List Byte) : List Byte := shake256 32 (im.take (5280 + fieldAt im 8 8))

/-- The machine at the start of bring-up: the schedule and the count of free values are the model's own, the fuses keep
what was written to them, and host memory (PA[51] = 1, R278) is not the module's to zero. (DEDUCED, safe in part:
notes/assumptions/31.md) -/
def coldState (s : State) : State :=
  { State.reset with
    turns := s.turns
    free := s.free
    dev := { DevRegs.reset with svnRaised := s.dev.svnRaised }
    mem := s.mem.filter (fun c => c.1.testBit 51)
    memBad := s.memBad.filter (fun p => (8 * p.1).testBit 51) }

/-- COLD_RESET (R358): an image that is not accepted leaves a code and stops there; an accepted one may ask for a higher
minimum security version, which the security processor writes (R359).
(DESIGN CHOICE, safe: notes/assumptions/2.md, DEDUCED, safe in part: notes/assumptions/31.md) -/
def execColdReset (image : List Byte) (setup : BootSetup) (s : State) : Host.Outcome State Fault Refusal :=
  .next (
    let s0 := coldState s
    if firmwareOk (minSvn s) image then
      onDev (fun d => { d with
        bootReady := true
        locked := true
        measurement := measure image
        svn := fieldAt image 4 4
        svnRaised := max d.svnRaised (Config.svnRequest image)
        secrgn := smSetMany 0 [] 0 (setup.secrgn.take 16)
        hdmbase := setup.hdmbase
        hdmsize := setup.hdmsize }) s0
    else
      let (v, s1) := takeFree s0
      onDev (fun d => { d with bootCode := 1 + v.toNat % 255 }) s1)

/-- What the configuration digest covers (R361): each bank's WORLD is one byte, in bank order.
(DESIGN CHOICE, unsafe: notes/assumptions/30.md) -/
def configMsg (s : State) : List Byte :=
  let w := fun (v : W64) => natToBytes 8 v.toNat
  (List.range 16).flatMap (fun i => w (smGet 0 s.dev.secrgn i)) ++ w s.dev.hdmbase ++ w s.dev.hdmsize ++ w s.dev.fxself ++
    (List.range 4096).map (fun b => if (smGet BankReg.reset s.bankRegs b).world then 1 else 0)

/-- The attestation report before its signature.
(PRESUMED, unsafe: notes/assumptions/4.md, DESIGN CHOICE, unsafe: notes/assumptions/30.md) -/
def reportBody (s : State) : List Byte :=
  natToBytes 2 1 ++ s.dev.measurement ++ natToBytes 4 s.dev.svn ++ shake256 32 (configMsg s) ++
    (List.range 4).flatMap (fun i => natToBytes 8 (smGet 0 s.dev.attNonce i).toNat) ++
    ((List.range 64).filter (fun q => s.dev.attMask.getLsbD q)).flatMap (fun q => (sliceQ s q).digest)

/-- ATTESTATION_REPORT_DONE (R361).
(DESIGN CHOICE, safe: notes/assumptions/3.md, DESIGN CHOICE, unsafe: notes/assumptions/30.md) -/
def execAttestationReportDone (s : State) : Host.Outcome State Fault Refusal :=
  .next (
    if s.dev.attBusy && deviceUp s then
      let body := reportBody s
      let rep := (body ++ Config.mldsaSign body).take 8192
      onDev (fun d => { d with
        attBusy := false, attDone := true, attBuf := rep ++ List.replicate (8192 - rep.length) 0 }) s
    else s)

/-! ### The host's memory window (R304, R353) -/

/-- Every byte of a range lies in the window and in no secure frame. -/
def hostMay (s : State) (addr n : Nat) : Bool :=
  let base := s.dev.hdmbase.toNat * 2 ^ 30
  let len := s.dev.hdmsize.toNat * 2 ^ 30
  decide (base ≤ addr) && decide (addr + n ≤ base + len) &&
    (pageCuts (n / 4096 + 2) addr n).all (fun p => !secureFrame s (p.1 / 4096 * 4096))

/-- HOST_CXL_MEM_ACCESS: an access outside the window or to a secure frame reads zeros, writes nothing and sets the
world error. A write is complete once no acknowledgement for its lines is outstanding (R281); one to a page that has
replicas is held until they have collapsed (R290).
(DEDUCED, unsafe: notes/assumptions/33.md) -/
def execHostCxlMemAccess (addr n : Nat) (write : Option (List Byte)) (s : State) : Host.Outcome State Fault Refusal :=
  .next (
    if !deviceUp s || s.dev.d3 then s
    else
      let size := match write with
        | some b => b.length
        | none => n
      if !hostMay s addr size then onDev (fun d => { d with worldError := true }) s
      else match write with
        | some b =>
          if onReplica s addr b.length then
            onDev (fun d => { d with hostHeld := d.hostHeld ++ [(addr, b)] })
              ((s.replicas.filter (fun r => overlaps addr b.length r.master r.size)).foldl (fun t r => startCollapse r.master t) s)
          else hostStore addr b s
        | none => s)

/-! ### Soft errors (R362 to R364) -/

/-- Change an entry of a bound accumulator bank of a crew.
(DESIGN CHOICE, safe: notes/assumptions/2.md, DESIGN CHOICE, unsafe: notes/assumptions/43.md) -/
def accBits (k : CrewKey) (b e : Nat) (f : W128 → W128) (s : State) : State :=
  modCrew k (fun c => { c with banks := smMod none c.banks (b % 16) (fun x =>
    x.map (fun y => { y with entries := smMod 0 y.entries (e % 1024) f })) }) s

/-- n free words. (DESIGN CHOICE, safe: notes/assumptions/2.md) -/
def takeFrees : Nat → State → List W64 × State
  | 0, s => ([], s)
  | n + 1, s =>
    let (v, t) := takeFree s
    let (l, u) := takeFrees n t
    (v :: l, u)

/-- A record held in a slice queue with uncorrectable data is read as a free value.
(DESIGN CHOICE, unsafe: notes/assumptions/43.md) -/
def spoilRec (q i : Nat) (s : State) : State :=
  let (ws, s1) := takeFrees 16 s
  let r := parseRec (ws.flatMap (fun w => natToBytes 8 w.toNat))
  modQ q (fun x => { x with recs := x.recs.mapIdx (fun k y => if k = i then { y with rcd := r } else y) }) s1

/-- A bit of a byte flips. -/
def flipBit (bit : Nat) (m : SMap Byte) (a : Nat) : SMap Byte := smMod 0 m a (fun v => v ^^^ (1#8 <<< (bit % 8)))

/-- A word of memory is poisoned. -/
def poison (pa : Nat) (s : State) : State := { s with memBad := smSet false s.memBad (pa / 8) true }

/-- An uncorrectable error of DRAM poisons the fill of an L2 line, every word of it (R362). -/
def poisonFill (pa : Nat) (s : State) : State :=
  { s with memBad := (List.range 16).foldl (fun m i => smSet false m (16 * (pa / 128) + i) true) s.memBad }

/-- SOFT_ERROR: a check corrects it, finds it, or, in a gap, does not see it. The spec gives no engine a rule for a
poisoned accumulator word, nor the scheduler one for a poisoned record: they are free values
(DESIGN CHOICE, unsafe: notes/assumptions/43.md). An uncorrectable error of a die link trips the module. -/
def execSoftError (place : ErrorPlace) (bit : Nat) (double : Bool) (s : State) : Host.Outcome State Fault Refusal :=
  .next (match place with
    | .memory pa => countError 0 double (if double then poisonFill pa s else s)
    | .l2 pa => countError 1 double (if double then poison pa s else s)
    | .dataEntry n i =>
      countError 1 double (if double then modDQ n (fun q => { q with
        bad := if i < q.entries.length ∧ !q.bad.contains i then i :: q.bad else q.bad }) s else s)
    | .sliceEntry q i => countError 1 double (if double then spoilRec q i s else s)
    | .dieLink => if double then trip (countError 3 true s) else countError 3 false s
    | .scratch job team off =>
      let s1 := if double then modTeam job team (fun t => { t with spadBad := smSet false t.spadBad (off / 8) true }) s else s
      countError 1 double s1
    | .cluster c off =>
      let s1 := if double then { s with cspadBad := smSet false s.cspadBad ((2 ^ 23 * c + off) / 8) true } else s
      countError 1 double s1
    | .scalarReg k r => countError 2 true (modCrew k (fun c => { c with sc := { c.sc with parity := r % 64 :: c.sc.parity } }) s)
    | .laneReg k r lane =>
      let f := fun (x : LaneRegs) => { x with parity := (32 * (r % 1024) + lane % 32) :: x.parity }
      countError 2 true (modCrew k (fun c => { c with ln := { c.ln with regs := f c.ln.regs } }) s)
    | .weight job team off =>
      countError 2 true (modTeam job team (fun t => { t with weightBad := smSet false t.weightBad (off / 8) true }) s)
    | .acc k b e =>
      if double then
        let (u, s1) := takeFree s
        let (v, s2) := takeFree s1
        countError 1 true (accBits k b e (fun _ => u ++ v) s2)
      else countError 1 false s
    | .gap k r =>
      modCrew k (fun c => { c with sc := { c.sc with
        regs := smMod 0 c.sc.regs (r % 64) (fun v => v ^^^ (1#64 <<< (bit % 64))) } }) s
    | .gapCond k c => modCrew k (fun x => { x with sc := { x.sc with
        preds := x.sc.preds ^^^ (if c % 16 = 0 then 0 else 1#16 <<< (c % 16)) } }) s
    | .gapLane k r lane =>
      let f := fun (x : LaneRegs) => { x with
        vregs := smMod 0 x.vregs (32 * (r % 1024) + lane % 32) (fun v => v ^^^ (1#32 <<< (bit % 32))) }
      modCrew k (fun c => { c with ln := { c.ln with regs := f c.ln.regs } }) s
    | .gapLatch k b lane =>
      let f := fun (x : LaneRegs) => { x with
        latches := smMod none x.latches (4 * (lane % 32) + b % 4) (Option.map (fun v => v ^^^ (1#64 <<< (bit % 64)))) }
      modCrew k (fun c => { c with ln := { c.ln with regs := f c.ln.regs } }) s
    | .gapPred k p lane =>
      let f := fun (x : LaneRegs) => { x with preds := smMod 0 x.preds (p % 64) (fun v => v ^^^ (1#32 <<< (lane % 32))) }
      modCrew k (fun c => { c with ln := { c.ln with regs := f c.ln.regs } }) s
    | .gapAcc k b e => accBits k b e (fun v => v ^^^ (1#128 <<< (bit % 128))) s
    | .gapByte pa => { s with mem := flipBit bit s.mem pa }
    | .gapScratch job team off => modTeam job team (fun t => { t with spad := flipBit bit t.spad off }) s
    | .gapCluster c off => { s with cspad := flipBit bit s.cspad (2 ^ 23 * c + off) }
    | .gapWeight job team off => modTeam job team (fun t => { t with weights := flipBit bit t.weights off }) s
    | .gapEntry n i => modDQ n (fun q => { q with
        entries := q.entries.mapIdx (fun j v => if j = i then v ^^^ (1#64 <<< (bit % 64)) else v) }) s)

end Sys2Proof.Machine
end

