-- ==== Sys2Proof/Machine/Boundary.lean ====
section
/-! DEFINITION. Instruction boundaries: the registers an instruction touches, when a pending deferred trap falls due, taking
it, and the traps of illegal words and parity errors (R47, R97, R202, R224, R291 to R293, R309, R310, R316, R352, R363,
R370). -/

namespace Sys2Proof.Machine

/-! ### Registers (R97) -/

/-- The scalar registers an instruction reads. -/
def scalarSrcs (i : Instr) : List Nat :=
  match i with
  | .add _ a b => [a.toNat, b.toNat]
  | .sub _ a b => [a.toNat, b.toNat]
  | .mul _ a b => [a.toNat, b.toNat]
  | .mulh _ a b => [a.toNat, b.toNat]
  | .mulhz _ a b => [a.toNat, b.toNat]
  | .div _ a b => [a.toNat, b.toNat]
  | .divz _ a b => [a.toNat, b.toNat]
  | .rem _ a b => [a.toNat, b.toNat]
  | .remz _ a b => [a.toNat, b.toNat]
  | .min _ a b => [a.toNat, b.toNat]
  | .max _ a b => [a.toNat, b.toNat]
  | .minz _ a b => [a.toNat, b.toNat]
  | .maxz _ a b => [a.toNat, b.toNat]
  | .addSat _ a b => [a.toNat, b.toNat]
  | .subSat _ a b => [a.toNat, b.toNat]
  | .addzSat _ a b => [a.toNat, b.toNat]
  | .subzSat _ a b => [a.toNat, b.toNat]
  | .and _ a b => [a.toNat, b.toNat]
  | .or _ a b => [a.toNat, b.toNat]
  | .xor _ a b => [a.toNat, b.toNat]
  | .andn _ a b => [a.toNat, b.toNat]
  | .shl _ a b => [a.toNat, b.toNat]
  | .shr _ a b => [a.toNat, b.toNat]
  | .sar _ a b => [a.toNat, b.toNat]
  | .rol _ a b => [a.toNat, b.toNat]
  | .popc _ a => [a.toNat]
  | .clz _ a => [a.toNat]
  | .ctz _ a => [a.toNat]
  | .addW _ a b => [a.toNat, b.toNat]
  | .subW _ a b => [a.toNat, b.toNat]
  | .mulW _ a b => [a.toNat, b.toNat]
  | .mulhW _ a b => [a.toNat, b.toNat]
  | .mulhzW _ a b => [a.toNat, b.toNat]
  | .divW _ a b => [a.toNat, b.toNat]
  | .divzW _ a b => [a.toNat, b.toNat]
  | .remW _ a b => [a.toNat, b.toNat]
  | .remzW _ a b => [a.toNat, b.toNat]
  | .minW _ a b => [a.toNat, b.toNat]
  | .maxW _ a b => [a.toNat, b.toNat]
  | .minzW _ a b => [a.toNat, b.toNat]
  | .maxzW _ a b => [a.toNat, b.toNat]
  | .addSatW _ a b => [a.toNat, b.toNat]
  | .subSatW _ a b => [a.toNat, b.toNat]
  | .addzSatW _ a b => [a.toNat, b.toNat]
  | .subzSatW _ a b => [a.toNat, b.toNat]
  | .andW _ a b => [a.toNat, b.toNat]
  | .orW _ a b => [a.toNat, b.toNat]
  | .xorW _ a b => [a.toNat, b.toNat]
  | .andnW _ a b => [a.toNat, b.toNat]
  | .shlW _ a b => [a.toNat, b.toNat]
  | .shrW _ a b => [a.toNat, b.toNat]
  | .sarW _ a b => [a.toNat, b.toNat]
  | .rolW _ a b => [a.toNat, b.toNat]
  | .popcW _ a => [a.toNat]
  | .clzW _ a => [a.toNat]
  | .ctzW _ a => [a.toNat]
  | .faddF64 _ a b => [a.toNat, b.toNat]
  | .fsubF64 _ a b => [a.toNat, b.toNat]
  | .fmulF64 _ a b => [a.toNat, b.toNat]
  | .fdivF64 _ a b => [a.toNat, b.toNat]
  | .fsqrtF64 _ a => [a.toNat]
  | .fminF64 _ a b => [a.toNat, b.toNat]
  | .fmaxF64 _ a b => [a.toNat, b.toNat]
  | .ffmaF64 d a b => [d.toNat, a.toNat, b.toNat]
  | .fcvtF64S64 _ a => [a.toNat]
  | .fcvtF64Z64 _ a => [a.toNat]
  | .fcvtS64F64 _ a => [a.toNat]
  | .fcvtZ64F64 _ a => [a.toNat]
  | .fcvtF64F32 _ a => [a.toNat]
  | .fabsF64 _ a => [a.toNat]
  | .fnegF64 _ a => [a.toNat]
  | .faddF32 _ a b => [a.toNat, b.toNat]
  | .fsubF32 _ a b => [a.toNat, b.toNat]
  | .fmulF32 _ a b => [a.toNat, b.toNat]
  | .fdivF32 _ a b => [a.toNat, b.toNat]
  | .fsqrtF32 _ a => [a.toNat]
  | .fminF32 _ a b => [a.toNat, b.toNat]
  | .fmaxF32 _ a b => [a.toNat, b.toNat]
  | .ffmaF32 d a b => [d.toNat, a.toNat, b.toNat]
  | .fcvtF32S64 _ a => [a.toNat]
  | .fcvtF32Z64 _ a => [a.toNat]
  | .fcvtS64F32 _ a => [a.toNat]
  | .fcvtZ64F32 _ a => [a.toNat]
  | .fcvtF32F64 _ a => [a.toNat]
  | .fabsF32 _ a => [a.toNat]
  | .fnegF32 _ a => [a.toNat]
  | .addi _ a _ => [a.toNat]
  | .andi _ a _ => [a.toNat]
  | .ori _ a _ => [a.toNat]
  | .xori _ a _ => [a.toNat]
  | .shli _ a _ => [a.toNat]
  | .shliW _ a _ => [a.toNat]
  | .shri _ a _ => [a.toNat]
  | .shriW _ a _ => [a.toNat]
  | .sari _ a _ => [a.toNat]
  | .sariW _ a _ => [a.toNat]
  | .roli _ a _ => [a.toNat]
  | .roliW _ a _ => [a.toNat]
  | .liWh d _ => [d.toNat]
  | .cmp _ a b _ => [a.toNat, b.toNat]
  | .cmpF64 _ a b _ => [a.toNat, b.toNat]
  | .cmpF32 _ a b _ => [a.toNat, b.toNat]
  | .cmpi _ a _ _ => [a.toNat]
  | .predNz _ a => [a.toNat]
  | .jr a _ _ => [a.toNat]
  | .ret _ _ => [63]
  | .calli _ a _ _ => [a.toNat]
  | .loop d _ => [d.toNat]
  | .lrunFarReg a _ => [a.toNat]
  | .lsnap a _ => [a.toNat]
  | .lsnapPair a b _ => [a.toNat, b.toNat]
  | .xwr a _ => [a.toNat]
  | .spawnTry _ a b => [a.toNat, b.toNat]
  | .graft a => [a.toNat]
  | .ld _ a _ _ => [a.toNat]
  | .ldRo _ a _ _ => [a.toNat]
  | .st d a _ _ => [a.toNat, d.toNat]
  | .amo d a b o _ _ => if o = 9 then [a.toNat, b.toNat, d.toNat] else [a.toNat, b.toNat]
  | .cpIssue _ a => [4 * a.toNat, 4 * a.toNat + 1, 4 * a.toNat + 2, 4 * a.toNat + 3]
  | .cpIssueBar _ a _ => [4 * a.toNat, 4 * a.toNat + 1, 4 * a.toNat + 2, 4 * a.toNat + 3]
  | .cpIssueRing d a => [d.toNat, 4 * a.toNat, 4 * a.toNat + 1, 4 * a.toNat + 2, 4 * a.toNat + 3]
  | .hBind _ a _ => [a.toNat]
  | .hRclaim a => [a.toNat]
  | .hRadv _ a => [a.toNat]
  | .barAlloc _ a _ => [a.toNat]
  | .barPend a _ => [a.toNat]
  | .qPush a b _ => [a.toNat, b.toNat]
  | .qPushTry _ a b _ => [a.toNat, b.toNat]
  | .qPop _ a _ => [a.toNat]
  | .qPopTry _ a _ _ => [a.toNat]
  | .cmoWb a b _ => [a.toNat, b.toNat]
  | .cmoWbinv a b _ => [a.toNat, b.toNat]
  | .cmoInv a b _ => [a.toNat, b.toNat]
  | .cmoIinv a b _ => [a.toNat, b.toNat]
  | .cmoRodrop a b _ => [a.toNat, b.toNat]
  | .matWload a b => [a.toNat, b.toNat]
  | .matZeroFx _ a => [a.toNat]
  | .matDrain _ a b => [a.toNat, b.toNat]
  | .mloop _ a _ _ _ _ => [a.toNat, a.toNat + 1, a.toNat + 2]
  | .spTload _ a => [a.toNat]
  | .spPart _ a b => [a.toNat, b.toNat]
  | .spTmul _ a _ _ => [a.toNat, a.toNat + 1]
  | .irBegin a b => [a.toNat, b.toNat]
  | .tabLoad _ a _ => [a.toNat]
  | .slcExtend _ a => [a.toNat]
  | .slcQfree _ a => [a.toNat]
  | .detDigest _ a => [a.toNat]
  | .detOut a b => [a.toNat, b.toNat]
  | .fxPut a => [4 * a.toNat, 4 * a.toNat + 1, 4 * a.toNat + 2, 4 * a.toNat + 3]
  | .fxPutSet a b => [4 * a.toNat, 4 * a.toNat + 1, 4 * a.toNat + 2, 4 * a.toNat + 3, b.toNat]
  | .fxPutAdd a b => [4 * a.toNat, 4 * a.toNat + 1, 4 * a.toNat + 2, 4 * a.toNat + 3, b.toNat]
  | .fxGet a => [4 * a.toNat, 4 * a.toNat + 1, 4 * a.toNat + 2, 4 * a.toNat + 3]
  | .fxSignalSet a b => [a.toNat, b.toNat]
  | .fxSignalAdd a b => [a.toNat, b.toNat]
  | .fxWait a b => [a.toNat, b.toNat]
  | .fxWaitTry _ a b => [a.toNat, b.toNat]
  | .fxReduce a => [4 * a.toNat, 4 * a.toNat + 1, 4 * a.toNat + 2, 4 * a.toNat + 3]
  | .svLu a => [a.toNat, a.toNat + 1, a.toNat + 2]
  | .svChol a => [a.toNat, a.toNat + 1, a.toNat + 2]
  | .svTrs a => [a.toNat, a.toNat + 1, a.toNat + 2]
  | .svRef a => [a.toNat, a.toNat + 1, a.toNat + 2]
  | _ => []

/-- The scalar registers an instruction writes. -/
def scalarDsts (i : Instr) : List Nat :=
  match i with
  | .add d _ _ => [d.toNat]
  | .sub d _ _ => [d.toNat]
  | .mul d _ _ => [d.toNat]
  | .mulh d _ _ => [d.toNat]
  | .mulhz d _ _ => [d.toNat]
  | .div d _ _ => [d.toNat]
  | .divz d _ _ => [d.toNat]
  | .rem d _ _ => [d.toNat]
  | .remz d _ _ => [d.toNat]
  | .min d _ _ => [d.toNat]
  | .max d _ _ => [d.toNat]
  | .minz d _ _ => [d.toNat]
  | .maxz d _ _ => [d.toNat]
  | .addSat d _ _ => [d.toNat]
  | .subSat d _ _ => [d.toNat]
  | .addzSat d _ _ => [d.toNat]
  | .subzSat d _ _ => [d.toNat]
  | .and d _ _ => [d.toNat]
  | .or d _ _ => [d.toNat]
  | .xor d _ _ => [d.toNat]
  | .andn d _ _ => [d.toNat]
  | .shl d _ _ => [d.toNat]
  | .shr d _ _ => [d.toNat]
  | .sar d _ _ => [d.toNat]
  | .rol d _ _ => [d.toNat]
  | .popc d _ => [d.toNat]
  | .clz d _ => [d.toNat]
  | .ctz d _ => [d.toNat]
  | .addW d _ _ => [d.toNat]
  | .subW d _ _ => [d.toNat]
  | .mulW d _ _ => [d.toNat]
  | .mulhW d _ _ => [d.toNat]
  | .mulhzW d _ _ => [d.toNat]
  | .divW d _ _ => [d.toNat]
  | .divzW d _ _ => [d.toNat]
  | .remW d _ _ => [d.toNat]
  | .remzW d _ _ => [d.toNat]
  | .minW d _ _ => [d.toNat]
  | .maxW d _ _ => [d.toNat]
  | .minzW d _ _ => [d.toNat]
  | .maxzW d _ _ => [d.toNat]
  | .addSatW d _ _ => [d.toNat]
  | .subSatW d _ _ => [d.toNat]
  | .addzSatW d _ _ => [d.toNat]
  | .subzSatW d _ _ => [d.toNat]
  | .andW d _ _ => [d.toNat]
  | .orW d _ _ => [d.toNat]
  | .xorW d _ _ => [d.toNat]
  | .andnW d _ _ => [d.toNat]
  | .shlW d _ _ => [d.toNat]
  | .shrW d _ _ => [d.toNat]
  | .sarW d _ _ => [d.toNat]
  | .rolW d _ _ => [d.toNat]
  | .popcW d _ => [d.toNat]
  | .clzW d _ => [d.toNat]
  | .ctzW d _ => [d.toNat]
  | .faddF64 d _ _ => [d.toNat]
  | .fsubF64 d _ _ => [d.toNat]
  | .fmulF64 d _ _ => [d.toNat]
  | .fdivF64 d _ _ => [d.toNat]
  | .fsqrtF64 d _ => [d.toNat]
  | .fminF64 d _ _ => [d.toNat]
  | .fmaxF64 d _ _ => [d.toNat]
  | .ffmaF64 d _ _ => [d.toNat]
  | .fcvtF64S64 d _ => [d.toNat]
  | .fcvtF64Z64 d _ => [d.toNat]
  | .fcvtS64F64 d _ => [d.toNat]
  | .fcvtZ64F64 d _ => [d.toNat]
  | .fcvtF64F32 d _ => [d.toNat]
  | .fabsF64 d _ => [d.toNat]
  | .fnegF64 d _ => [d.toNat]
  | .faddF32 d _ _ => [d.toNat]
  | .fsubF32 d _ _ => [d.toNat]
  | .fmulF32 d _ _ => [d.toNat]
  | .fdivF32 d _ _ => [d.toNat]
  | .fsqrtF32 d _ => [d.toNat]
  | .fminF32 d _ _ => [d.toNat]
  | .fmaxF32 d _ _ => [d.toNat]
  | .ffmaF32 d _ _ => [d.toNat]
  | .fcvtF32S64 d _ => [d.toNat]
  | .fcvtF32Z64 d _ => [d.toNat]
  | .fcvtS64F32 d _ => [d.toNat]
  | .fcvtZ64F32 d _ => [d.toNat]
  | .fcvtF32F64 d _ => [d.toNat]
  | .fabsF32 d _ => [d.toNat]
  | .fnegF32 d _ => [d.toNat]
  | .addi d _ _ => [d.toNat]
  | .andi d _ _ => [d.toNat]
  | .ori d _ _ => [d.toNat]
  | .xori d _ _ => [d.toNat]
  | .shli d _ _ => [d.toNat]
  | .shliW d _ _ => [d.toNat]
  | .shri d _ _ => [d.toNat]
  | .shriW d _ _ => [d.toNat]
  | .sari d _ _ => [d.toNat]
  | .sariW d _ _ => [d.toNat]
  | .roli d _ _ => [d.toNat]
  | .roliW d _ _ => [d.toNat]
  | .li d _ => [d.toNat]
  | .liW d _ => [d.toNat]
  | .liWz d _ => [d.toNat]
  | .liWh d _ => [d.toNat]
  | .predGet d _ => [d.toNat]
  | .call _ _ _ => [63]
  | .calli d _ _ _ => [d.toNat]
  | .loop d _ => [d.toNat]
  | .xrd d _ => [d.toNat]
  | .ld d _ _ _ => [d.toNat]
  | .ldRo d _ _ _ => [d.toNat]
  | .amo d _ _ _ _ _ => [d.toNat]
  | .hState d _ => [d.toNat]
  | .hRadv d _ => [d.toNat]
  | .barPhase d _ => [d.toNat]
  | .qPop d _ _ => [d.toNat]
  | .qPopTry d _ _ _ => [d.toNat]
  | .spTstat d _ => [d.toNat]
  | .spPart d _ _ => [4 * d.toNat, 4 * d.toNat + 1, 4 * d.toNat + 2, 4 * d.toNat + 3]
  | .slcQfree d _ => [d.toNat]
  | .detDigest d _ => [4 * d.toNat, 4 * d.toNat + 1, 4 * d.toNat + 2, 4 * d.toNat + 3]
  | .detFlush d => [d.toNat]
  | .svStat d => [d.toNat]
  | _ => []

/-- The registers of a scalar instruction. -/
def scalarRegs (i : Instr) : List Nat := scalarSrcs i ++ scalarDsts i

/-- Lane registers that a lane instruction reads or writes. -/
def laneRegsOf (i : Instr) : List Nat :=
  match i with
  | .lanePairWord h1 h2 => halfTouches h1 ++ halfTouches h2
  | _ => match laneFmt i with
    | some (f, w) => laneTouches f w
    | none => []

/-- Entries of n registers of a lane. -/
def regEntries (n v l : Nat) : List Nat := (List.range n).map (fun i => 32 * (v + i) + l)

/-- The register entries that a source field of n registers reads for a lane (R49, R147). -/
def srcEntries (s : State) (n : Nat) (f : BitVec 12) (l : Nat) : List Nat :=
  match srcOf f with
  | .reg v => regEntries n v l
  | .nl v => if l = 0 then [] else regEntries n v (l - 1)
  | .nr v => if l + 1 = lanesOf s then [] else regEntries n v (l + 1)
  | _ => []

/-- The lane whose operand A a lane exchange gives to lane l (R151). -/
def lenderOf (s : State) (w : LaneWord) (p : Int) (l : Nat) : Option Nat :=
  if 0 ≤ p ∧ p < lanesOf s then some p.toNat else if w.md.toNat % 2 = 1 then none else some l

/-- The lanes in which an instruction reads its operand A, given its active lanes: those of an exchange's partners, the
end lanes of vedge, the lane that vxs chooses (R149, R151, R154). -/
def aLanes (s : State) (act : List Nat) (i : Instr) : List Nat :=
  match i with
  | .vlaneFrom w => act.filterMap (fun l => lenderOf s w (srcVal s 1 w.b l : Int) l)
  | .vlaneSwap w => act.filterMap (fun l => lenderOf s w ((l ^^^ (laneX w % 32) : Nat) : Int) l)
  | .vlaneLag w => act.filterMap (fun (l : Nat) => lenderOf s w ((l : Int) - (laneX w % 32 : Nat)) l)
  | .vlaneLead w => act.filterMap (fun (l : Nat) => lenderOf s w ((l : Int) + (laneX w % 32 : Nat)) l)
  | .vedge _ => act.filter (fun l => l == 0 || l + 1 == lanesOf s)
  | .vxs w => if w.md.toNat % 2 = 1 then act.getLast?.toList else act.head?.toList
  | _ => act

/-- The registers of a block or quad that an instruction reads of its operand A (R135). -/
def aRegs (f : LaneFmt) (i : Instr) : Nat :=
  match i with
  | .vqdec _ => 3
  | _ => f.an

/-- The lanes in which an instruction reads its operand B: vqenc reads one of each group of 16 (R137). -/
def bLanes (act : List Nat) (i : Instr) : List Nat :=
  match i with
  | .vqenc _ => ((act.filter (· < 16)).head?).toList ++ ((act.filter (16 ≤ ·)).head?).toList
  | _ => act

/-- The register entries that a pair half reads in its active lanes (R58, R60). -/
def halfEntries (s : State) (lanes : List Nat) (h : PairHalf) : List Nat :=
  let r := tyRegs (ty3Of h.ty3.toNat)
  match halfSrcs h.hopc.toNat (ty3Of h.ty3.toNat) with
  | none => []
  | some (n, _) => (lanes.filter (fun l => rdP s h.pred.toNat l)).flatMap (fun l =>
      (if 1 ≤ n then srcEntries s r h.a l else []) ++ (if 2 ≤ n then srcEntries s r h.b l else []) ++
      (if h.hopc = 0x31 ∨ h.hopc = 0x32 then regEntries r h.d.toNat l else []))

/-- The register entries that a gang's instruction reads, in the lanes in which it reads them; an illegal word reads none. -/
def laneReads (s : State) (r : ARun) (g : Gang) (i : Instr) : List Nat :=
  match i with
  | .lanePairWord p q =>
    if pairOk p q then halfEntries s (maskLanes r g.members) p ++ halfEntries s (maskLanes r g.members) q else []
  | _ => match laneFmt i with
    | none => []
    | some (f, w) =>
      let act := activeLanes s r g w
      if !laneOk f w then []
      else (if f.apred then [] else (aLanes s act i).flatMap (srcEntries s (aRegs f i) w.a)) ++
        (if w.imm then [] else (if f.bpred then [] else (bLanes act i).flatMap (srcEntries s f.bn w.b)) ++
          act.flatMap (srcEntries s f.cn w.c)) ++
        (if f.dread then act.flatMap (regEntries f.dn w.d.toNat) else [])

/-! ### The next scalar instruction -/

/-- The next scalar instruction is exit. -/
def nextIsExit (s : State) : Bool :=
  match nextScalar s with
  | some .exit => true
  | _ => false

/-! ### Logical waits (R317, R318) -/

/-- A gang in a logical wait, or waiting for slices that are. -/
def gangLogical (g : Gang) : Bool :=
  match g.wait with
  | .regang | .vedge | .flush _ | .released _ => true
  | _ => false

/-- A gang blocked in a logical wait, which holds the other gangs (R23). -/
def gangHeld (g : Gang) : Bool :=
  match g.wait with
  | .flush _ | .released _ => true
  | _ => false

/-- The lane stream of a crew can retire nothing until a flush (R317): every gang waits for one, or one does and holds the
others. -/
def laneLogical (c : Crew) : Bool :=
  match curRun c with
  | none => true
  | some r => !awaitsPeer true c && !r.gangs.isEmpty && (r.gangs.all gangLogical || r.gangs.any gangHeld)

/-- The phase of a barrier that a wait is on is completed by flushes: no copy and no bar.pend touched it. -/
def barLogical (s : State) (b : Nat) : Bool := (barrierOf s b).all (fun x => !x.touched && x.pend == 0)

/-- The team in focus has all arrived at its graft in intervals already flushed: what is left is the move. -/
def graftDue (s : State) : Bool := (teamCrews s).all atGraft && decide (graftInterval s < s.job.flushK)

/-- The scalar stream of the crew in focus can retire nothing until a flush (R317). A wait for the crew's own lane runs
is over when none executes. -/
def scalarLogical (s : State) : Bool :=
  let c := s.crew
  c.status != .running || awaitsSieve c || match c.wait with
    | .barMeet b _ => barLogical s b
    | .barHold b => barLogical s b
    | .token _ | .acc _ _ _ | .detSync _ | .released _ => true
    | .graft _ => !graftDue s
    | .lanes => (curRun c).isSome && laneLogical c
    | .other => laneLogical c && nextIsExit s
    | _ => false

/-! ### When a deferred trap falls due (R370) -/

/-- The handle a ring descriptor names. -/
def ringHandle (v : W64) : Nat := fld v 5 0 + fld v 19 14

/-- An instruction names a handle. -/
def namesHandle (s : State) (h : Nat) (i : Instr) : Bool :=
  match i with
  | .cpIssue d _ => d.toNat == h
  | .cpIssueBar d _ _ => d.toNat == h
  | .cpIssueRing d _ => ringHandle (rdS s d.toNat) == h
  | .cpYield d _ => d.toNat == h
  | .hBind d _ _ => d.toNat == h
  | .hUnbind d => d.toNat == h
  | .hClaim d => d.toNat == h
  | .hRelease d => d.toNat == h
  | .hWait d => d.toNat == h
  | .hTry d _ => d.toNat == h
  | .hState _ a => a.toNat == h
  | .hRclaim a => ringHandle (rdS s a.toNat) == h
  | .mloop _ a _ _ _ _ => (rdS s (a.toNat + 1)).getLsbD 25 && fld (rdS s (a.toNat + 1)) 31 26 == h
  | _ => false

/-- A fence. -/
def isFence (i : Instr) : Bool :=
  match i with
  | .fence _ _ => true
  | _ => false

/-- An ewait on a counter. -/
def isEwait (k : OpClass) (i : Instr) : Bool :=
  match i with
  | .ewait _ c => classOf c.toNat == k
  | _ => false

/-- A wait on every counter. -/
def waitsAll (i : Instr) : Bool :=
  match i with
  | .exit => true
  | .graft _ => true
  | _ => false

/-- A matrix instruction. -/
def isMatrixInstr (i : Instr) : Bool :=
  match i with
  | .matWload _ _ | .matTokenTake | .matTokenPass | .matTokenQuery _ | .accAlloc _ _ | .accFree _ _ | .matZeroFx _ _
  | .matZeroFp _ | .matDrain _ _ _ | .mloop _ _ _ _ _ _ | .spTload _ _ | .spTmul _ _ _ _ => true
  | _ => false

/-- A fabric instruction. -/
def isFabricInstr (i : Instr) : Bool :=
  match i with
  | .fxPut _ | .fxPutSet _ _ | .fxPutAdd _ _ | .fxGet _ | .fxSignalSet _ _ | .fxSignalAdd _ _ | .fxWait _ _
  | .fxWaitTry _ _ _ | .fxReduce _ => true
  | _ => false

/-- A queue instruction. -/
def isQueueInstr (i : Instr) : Bool :=
  match i with
  | .qPush _ _ _ | .qPushTry _ _ _ _ | .qPop _ _ _ | .qPopTry _ _ _ _ => true
  | _ => false

/-- A deferred trap falls due before an instruction of the crew in focus. (DEDUCED, unsafe: notes/assumptions/29.md) -/
def dueBefore (s : State) (i : Instr) (d : Due) : Bool :=
  match d with
  | .now | .entry _ _ _ _ => true
  | .resumed => s.crew.handler.isNone
  | .touch regs => (scalarRegs i).any regs.contains
  | .handle h => namesHandle s h i || isEwait .copy i || waitsAll i || isFence i
  | .matrix => isMatrixInstr i || isEwait .matrix i || isFence i
  | .fabric => isFabricInstr i || isEwait .fabric i || isFence i
  | .sieve => isFence i || isEwait .store i || isEwait .scatter i || isQueueInstr i

/-- A budget trap waits for the lane stream's switch point (R309), in deterministic mode for the end of a logical wait of the
crew (R310). (DEDUCED, unsafe: notes/assumptions/28.md) -/
def atPoint (s : State) (p : PTrap) : Bool :=
  p.cause != 0x0A ||
    (if isDet s then !(scalarLogical s && laneLogical s.crew) else laneAtSwitch s)

/-- Some pending deferred trap of the crew in focus is due at the boundary before its next scalar instruction.
(DEDUCED, unsafe: notes/assumptions/29.md) -/
def trapDue (s : State) : Bool :=
  let i := nextScalar s
  s.crew.ptraps.any (fun p => atPoint s p && (p.due == .now || atEntry p || (p.due == .resumed && s.crew.handler.isNone) || match i with
    | some x => dueBefore s x p.due
    | none => false))

/-- The stop of R310 has been reached: its trap becomes due. (DEDUCED, unsafe: notes/assumptions/28.md) -/
def budgetDue (s : State) : State :=
  match s.crew.budgetTrap with
  | some (c, total) =>
    if c ≤ s.crew.clock then onC (fun x => { x with budgetTrap := none }) (pendTrap 0x0A (BitVec.ofNat 64 total) .now s) else s
  | none => s

/-- The crew in focus is at a scalar instruction boundary where a trap can be taken: it lives, is not parked (R284), and
no solve is in progress (R341). (DEDUCED, unsafe: notes/assumptions/29.md) -/
def atBoundary (s : State) : Bool :=
  s.crew.status != .complete && s.crew.park.isNone && s.crew.wait != .solve

/-- Deferred traps are due, or have just become due. -/
def trapFirst (s : State) : Bool :=
  let t := budgetDue s
  atBoundary t && trapDue t

/-- The crew in focus is blocked in a logical wait: neither stream can retire anything until a flush (R317), be it that a trap
waits for an atomic that one performs. -/
def logicallyBlocked (s : State) : Bool :=
  s.crew.park.isNone && ((scalarLogical s && laneLogical s.crew) ||
    ((awaitsSieve s.crew || s.crew.sieve.any sieveAmo) && (entryWaits s.crew || trapFirst s)))

/-- Take the pending deferred traps that are due. -/
def takeDue (s : State) : State :=
  let s1 := budgetDue s
  if atBoundary s1 && trapDue s1 then takeDeferred (settleLoads s1) else s1

/-- DEFERRED_TRAP (R370). -/
def execDeferredTrap (k : CrewKey) (s : State) : Host.Outcome State Fault Refusal := .next (onCrew k takeDue s)

/-! ### Illegal words and parity errors (R47, R292, R363) -/

/-- The active lanes of a gang for a word by its PRED and PN fields (R48, R53, R56); a word of another form, which has no such
fields, leaves the current masks. (DEDUCED, unsafe: notes/assumptions/29.md) -/
def wordLanes (s : State) (r : ARun) (g : Gang) (v : W96) : List Nat :=
  if (v.extractLsb' 94 1).toNat = 1 then maskLanes r g.members
  else (maskLanes r g.members).filter (fun l => rdP s (v.extractLsb' 27 6).toNat l != v.getLsbD 26)

/-- The trap of an illegal word at the head of a stream of the crew in focus. -/
def illegalAt (lane : Bool) (w : W96) (s : State) : State :=
  if lane then
    match headGang s with
    | some (r, g) => trapLane 0x01 0 g.pc (BitVec.ofNat 64 (lanesMask (wordLanes s r g w))) g.members (useSlot s)
    | none => s
  else if s.crew.status = .running ∧ s.crew.park = none then
    trapScalar 0x01 ((w.setWidth 32).setWidth 64) s.crew.sc.pc (useSlot s)
  else s

/-- ILLEGAL_INSTRUCTION (R47): by the crew in focus. (DEDUCED, unsafe: notes/assumptions/29.md) -/
def execIllegalInstruction (lane : Bool) (w : W96) (s : State) : Host.Outcome State Fault Refusal :=
  .next (illegalAt lane w s)

/-- The next scalar instruction reads a register with a parity error. -/
def scalarParity (s : State) (i : Instr) : Bool := (scalarSrcs i).any s.crew.sc.parity.contains

/-- The next lane instruction of a gang reads a register that has a parity error in the lane it reads. -/
def laneParity (s : State) (r : ARun) (g : Gang) (i : Instr) : Bool :=
  (laneReads s r g i).any s.crew.ln.regs.parity.contains

/-- The trap of a parity error: no access names an address (R363). (DEDUCED, unsafe: notes/assumptions/29.md) -/
def parityScalar (s : State) : State := trapScalar 0x15 (BitVec.allOnes 64) s.crew.sc.pc (useSlot s)
/-- The same at a lane word. (DEDUCED, unsafe: notes/assumptions/29.md) -/
def parityLane (v : W96) (r : ARun) (g : Gang) (s : State) : State :=
  trapLane 0x15 (BitVec.allOnes 64) g.pc (BitVec.ofNat 64 (lanesMask (wordLanes s r g v))) g.members (useSlot s)

end Sys2Proof.Machine
end

