-- ==== Sys2Proof/Machine/Flush.lean ====
section
/-! DEFINITION. The flush of a deterministic job slice (R315 to R322, R310, R232, R239). -/

namespace Sys2Proof.Machine

/-! ### When a flush is due (R317) -/

/-- Every crew of the job slice in focus has reached the end of interval k, is logically blocked, or has completed. -/
def flushReady (s : State) (k : Nat) : Bool :=
  (jobCrews s s.job.take).all (fun c => c.status == .complete || decide ((k + 1) * flushF s.job ≤ c.clock) ||
    atCrew c.key logicallyBlocked s)

/-- Every team of the job slice in focus is where a flush finds it: resident, or over (R306, R322). -/
def flushPlaced (s : State) : Bool :=
  (allTeams s).all (fun t => t.job != s.job.take || match t.place with
    | .resident _ => true
    | .done => true
    | .stopping _ => !detStoppable s s.job
    | _ => false)

/-- The walkers of the job slice in focus have done what decrements up to interval k left them (R239).
(DEDUCED, unsafe: notes/assumptions/27.md) -/
def walked (s : State) (k : Nat) : Bool := (allTeams s).all (fun t => t.job != s.job.take || walkedTo k t.log)

/-- There is something to flush: a crew that goes on, or entries still held. -/
def flushWanted (s : State) : Bool :=
  (jobCrews s s.job.take).any (fun c => c.status != .complete || !c.sieve.isEmpty)

/-! ### Step 1: atomics and scatter-adds (R316, R317) -/

/-- A Sieve entry with its issuer. -/
abbrev Keyed := CrewKey × SieveEntry

/-- The order of the keys of R316. -/
def sieveLe (a b : Keyed) : Bool :=
  let x := [a.2.flush, a.1.team, a.1.crew, a.2.lane, a.2.order]
  let y := [b.2.flush, b.1.team, b.1.crew, b.2.lane, b.2.order]
  !decide (y < x)

/-- The entries of interval k and before that a test selects, in ascending key order. -/
def sieveUpTo (s : State) (k : Nat) (p : SieveEntry → Bool) : List Keyed :=
  sortBy sieveLe
    ((jobCrews s s.job.take).flatMap (fun c => (c.sieve.filter (fun e => p e && decide (e.flush ≤ k))).map (fun e => (c.key, e))))

/-- Take an entry out of its crew's Sieve. -/
def dropEntry (x : Keyed) (s : State) : State :=
  modCrew x.1 (fun c => { c with sieve := dropFirst (fun e => e == x.2) c.sieve }) s

/-- What the lanes of vamo entries answered so far: crew, destination, size and scope, lane, old value and flags, none
when the data was uncorrectable; and whether the entry went to a peer. -/
abbrev LaneOld := CrewKey × AmoOp × Nat × Option (Nat × Flags) × Bool

/-- Plain stores or scatters of the crew in focus that nothing goes before are performed, at most n of them. -/
def settleClass (k : Option OpClass) : Nat → State → State
  | 0, s => s
  | n + 1, s => settleClass k n (match k with
    | some .store => storeDone s
    | some .scatter => scatterDone s
    | _ => s)

/-- An entry for a peer goes to it as an operation of the fabric class, before those that the crew issued after it (R182,
R184, R316). -/
def sendEntry (k : Nat) (a : AmoOp) (d : Nat) (e : SieveEntry) (s : State) : State :=
  let o : Op := ⟨.fabric, .peerAmo k (amoRemote (farPtr a.loc) a) a d, [], false, false, false, e.order⟩
  let before := fun (x : Op) => !(isFab x && decide (e.order < x.order))
  onC (fun c => { c with ops := c.ops.takeWhile before ++ o :: c.ops.dropWhile before }) s

/-- Apply one entry at its home, once the older operations of its class are complete (R182); the scalar atomic's old
value is delivered, a lane's is kept for its release. An entry for a peer is sent. -/
def applyEntry (k : Nat) (acc : State × List LaneOld) (x : Keyed) : State × List LaneOld :=
  let s0 := onCrew x.1 (fun t => settleClass (sieveCls x.2.kind) t.crew.ops.length t) acc.1
  let s := dropEntry x s0
  match x.2.kind with
  | .amo a =>
    (onCrew x.1 (fun t => raiseClock (some k) (if isFar a.loc then sendEntry x.2.flush a 0 x.2 t else amoBack a t)) s, acc.2)
  | .add a => (onCrew x.1 (fun t => if isFar a.loc then sendEntry x.2.flush (addAmo a) 1025 x.2 t else addApply a t) s, acc.2)
  | .vamo a d =>
    if isFar a.loc then (onCrew x.1 (sendEntry x.2.flush a d x.2) s, acc.2 ++ [(x.1, a, d, none, true)])
    else match focus x.1 s with
    | none => (s, acc.2)
    | some t =>
      let (old, f, u) := amoDo a t
      let back := match focus s.crew.key u with
        | some v => v
        | none => u
      (back, acc.2 ++ [(x.1, a, d, old.map (fun v => (v, f)), false)])
  | _ => (acc.1, acc.2)

/-- The waiting vamo of the crew in focus is released: old values into its destination, or the precise trap. With lanes
sent to peers it goes on once they are answered. -/
def vamoRelease (k : Nat) (l : List LaneOld) (s : State) : State :=
  let bad := l.find? (fun x => x.2.2.2.1.isNone && !x.2.2.2.2)
  match l with
  | [] => s
  | (_, a, d, _) :: _ =>
    match bad, waitingVamo s with
    | some x, some g =>
      trapLane 0x15 x.2.1.va (g.pc - 12) (BitVec.ofNat 64 (lanesMask (l.map (fun y => y.2.1.lane)))) g.members
        (raiseClock (some k) (readyVamo (forgetPeers s)))
    | some _, none => raiseClock (some k) (readyVamo (forgetPeers s))
    | none, _ =>
      let res := l.filterMap (fun y => y.2.2.2.1.map (fun v => (y.2.1.lane, v.1, v.2)))
      raiseClock (some k) (vamoEnd a.acq (amoResults d a.n res s))

/-- Holders whose accesses were all performed by the flush acknowledge what the job slice's fences wait for (R316). -/
def flushAcks (s : State) : State :=
  dropAcks (fun e => e.stale && ackReady s e && e.stores.any (fun c => c.job == s.job.take)) s

/-- Step 1 of R317; then the stores and scatters that waited behind the entries are performed. -/
def flushAtomics (k : Nat) (s : State) : State :=
  let es := sieveUpTo s k sieveMem
  let (t, lanes) := es.foldl (applyEntry k) (s, [])
  let keys := (lanes.map (·.1)).eraseDups
  let t1 := keys.foldl (fun u key => onCrew key (vamoRelease k (lanes.filter (fun x => x.1 == key))) u) t
  let settle := fun (u : State) => settleClass (some .scatter) u.crew.ops.length (settleClass (some .store) u.crew.ops.length u)
  flushAcks (((es.map (·.1)).eraseDups).foldl (fun u key => onCrew key settle u) t1)

/-! ### Steps 2 and 3: data queues (R317, R319) -/

/-- A held push. -/
def isPush (e : SieveEntry) : Bool :=
  match e.kind with
  | .push _ _ => true
  | _ => false

/-- A held pop. -/
def isPop (e : SieveEntry) : Bool :=
  match e.kind with
  | .pop _ _ _ _ => true
  | _ => false

/-- Append a held push if its queue has room and no earlier push of the queue stays held. -/
def flushPush (acc : State × List Nat) (x : Keyed) : State × List Nat :=
  match x.2.kind with
  | .push q v =>
    if acc.2.contains q then acc
    else if dqFull acc.1 q then (acc.1, q :: acc.2)
    else (dqPush q v (dropEntry x acc.1), acc.2)
  | _ => acc

/-- Serve a pop from its queue; one that finds the queue empty stays. One that meets uncorrectable data writes nothing, and
its issuer takes the deferred trap of R316. (DESIGN CHOICE, unsafe: notes/assumptions/58.md) -/
def flushPop (k : Nat) (s : State) (x : Keyed) : State :=
  match x.2.kind with
  | .pop q dest pred scope =>
    if dqEmpty s q then s
    else if (dataQ s q).bad.contains 0 then
      let (v, s1) := takeFree s
      onCrew x.1 (fun t => raiseClock (some k) (pendTrap 0x15 (v &&& 0xFFFFFFFFFFFFFF) .sieve t)) (dropEntry x s1)
    else
      let v := nth 0 (dataQ s q).entries 0
      let s1 := dropEntry x (modDQ q dqTail s)
      onCrew x.1 (fun t =>
        let t1 := wrS dest v t
        let t2 := if pred = 0 then t1 else wrC pred true t1
        raiseClock (some k) (if scope != 0 then fenceLines scope false true t2 else t2)) s1
  | _ => s

/-- Steps 2 and 3 of R317. -/
def flushQueues (k : Nat) (s : State) : State :=
  let s1 := ((sieveUpTo s k isPush).foldl flushPush (s, [])).1
  (sieveUpTo s1 k isPop).foldl (flushPop k) s1

/-! ### Step 4: releases (R319) -/

/-- Crews of the team in focus whose arrival at a barrier falls in an interval up to k, by interval, then crew.
(DEDUCED, unsafe: notes/assumptions/27.md) -/
def meeters (s : State) (b k : Nat) : List Crew :=
  sortBy (fun x y => decide (x.clock / flushF s.job ≤ y.clock / flushF s.job))
    ((teamCrews s).filter (fun c => (match c.wait with
      | .barMeet x _ => x == b
      | _ => false) && decide (c.clock / flushF s.job ≤ k)))

/-- The place of a waiting arrival among all arrivals: those of earlier intervals, then the waiting ones of its own
interval before it. (DEDUCED, unsafe: notes/assumptions/27.md) -/
def meetPlace (s : State) (arrs : List Nat) (before : List Crew) (c : Crew) : Nat :=
  let i := c.clock / flushF s.job
  (arrs.filter (fun a => decide (a < i))).length +
    (before.filter (fun x => x.clock / flushF s.job == i)).length

/-- Complete the phases of a barrier that the arrivals of intervals 0 to k complete: a phase that no copy and no
bar.pend touched (R318). (DEDUCED, unsafe: notes/assumptions/27.md) -/
def flushBar (k : Nat) (s : State) (b : Nat) : State :=
  match barrierOf s b with
  | none => s
  | some x =>
    let n := if x.touched || x.pend != 0 || x.exp == 0 then 0 else (x.arrs.filter (fun a => decide (a ≤ k))).length / x.exp
    if n = 0 then s
    else
      let used := n * x.exp
      let sorted := sortBy (fun a b => decide (a ≤ b)) x.arrs
      let ms := meeters s b k
      let go := (ms.zipIdx.filter (fun p => decide (meetPlace s x.arrs (ms.take p.2) p.1 < used))).map (fun p => p.1.key)
      let holds := ((teamCrews s).filter (fun c => c.wait == .barHold b)).map (·.key)
      let x' := { x with ph := if n % 2 = 1 then !x.ph else x.ph, arrs := sorted.drop used }
      let s1 := onT (fun t => { t with barriers := smSet none t.barriers b (some x') }) s
      let end1 := fun (t : State) => raiseClock (some k) (finish (t.crew.sc.pc + 4) (acquireLines t))
      let s2 := (go ++ holds).foldl (fun t key => onCrew key end1 t) s1
      let kept := fun (c : Crew) => (List.range n).foldl (fun d _ => keptRelease b (some k) d) c
      (teamCrews s2).foldl (fun t c => modCrew c.key kept t) s2

/-- Complete the phases of every barrier of the team in focus. -/
def flushBars (k : Nat) (s : State) : State := ((s.team.barriers.map (·.1)).foldl (flushBar k) s)

/-- A waiter of the job slice in focus whose request for the token or for banks falls in an interval up to k.
(DEDUCED, unsafe: notes/assumptions/27.md) -/
def waitsBy (s : State) (k : Nat) (c : Crew) : Bool :=
  c.key.job == s.job.take && match c.wait with
    | .token i | .acc _ _ i => decide (i ≤ k)
    | _ => false

/-- Grant the token of a core: to the passer's team first, in its order, else in (team, crew) order (R219, R319); a pass
that no crew of the job slice waits for is settled. A crew of another job slice that is first in the order goes first.
(DEDUCED, unsafe: notes/assumptions/27.md) -/
def flushToken (k : Nat) (s : State) (core : Nat) : State :=
  let x := coreAt s core
  let mine := x.passer.all (fun p => p.job == s.job.take)
  if x.token.isSome || k < x.freedAt || !mine then s
  else
    let all := (coreCrews s core).filter (fun c => wantsToken c && (c.hadToken || c.key.job != s.job.take || waitsBy s k c))
    let ws := all.filter (fun c => !c.hadToken && waitsBy s k c)
    let s1 := modCore core (fun y => { y with passer := none }) s
    match x.passer.bind (fun p => nextInTeam p ws) with
    | some c => grantToken core (some k) c.key s1
    | none => match all.head? with
      | some c => if ws.contains c then grantToken core (some k) c.key s1 else offerToken core s1
      | none => offerToken core s1

/-- Physical banks that the next grant must leave alone: those given up in intervals after k. -/
def lateFrees (s : State) (core k : Nat) : Nat :=
  (((coreAt s core).frees.filter (fun p => decide (k < p.1))).map (·.2)).foldl (· + ·) 0

/-- A request that stands at flush k: not one that a crew of the job slice makes in a later interval (R319).
(DEDUCED, unsafe: notes/assumptions/27.md) -/
def standsAt (s : State) (k : Nat) (c : Crew) : Bool := c.key.job != s.job.take || !inAlloc c || waitsBy s k c

/-- Grant bank requests of intervals up to k in (team, crew) order. (DEDUCED, unsafe: notes/assumptions/27.md) -/
def flushBanks (core k : Nat) : Nat → State → State
  | 0, s => s
  | f + 1, s =>
    match (coreCrews s core).find? (fun c => accNeed c != 0 && standsAt s k c) with
    | none => s
    | some c =>
      if c.key.job == s.job.take && decide (banksUsed s core + lateFrees s core k + accNeed c ≤ 16) then
        let t := grantAcc (some k) c s
        if (findCrew t c.key).any (fun x => accNeed x != 0) then t else flushBanks core k f t
      else s

/-- The banks of a core at a flush: grants, the deadlock breaker when every live crew is stuck, grants again. -/
def flushAcc (k : Nat) (s : State) (core : Nat) : State :=
  let s1 := modCore core (fun x => { x with frees := x.frees.filter (fun p => decide (k < p.1)) }) (flushBanks core k 16 s)
  if accStuck s1 core (standsAt s1 k) then flushBanks core k 16 (spillBanks core (standsAt s1 k) 16 s1) else s1

/-- Exchanges of the crew in focus with values of intervals up to k. -/
def flushEdge (k : Nat) (s : State) : State := edgeComplete (some k) (edgeFill true (some k) (edgeFill false (some k) s))

/-- A gang whose logical wait ends at flush k goes on; a vamo with lanes at a peer waits for them. -/
def wakeBy (k : Nat) (peer : Bool) (g : Gang) : Gang :=
  match g.wait with
  | .flush i => if i ≤ k then { g with wait := .ready } else g
  | .released i => if i ≤ k && !peer then { g with wait := .ready } else g
  | _ => g

/-- The state after a meaning, s where it gives none. -/
def afterIt (f : State → Host.Outcome State Fault Refusal) (s : State) : State :=
  match f s with
  | .next t => t
  | _ => s

/-- A fence or ewait that waited for Sieve entries completes at their flush, before the clock is raised, as an atomic does
(R319, R320); any other instruction issues again. (DEDUCED, unsafe: notes/assumptions/27.md) -/
def endFence (s : State) : State :=
  match nextScalar s with
  | some (.fence o sc) => afterIt (execFence o sc) s
  | some (.ewait n c) => afterIt (execEwait n c) s
  | _ => s

/-- The same for a vfence at the head of the lane stream. (DEDUCED, unsafe: notes/assumptions/27.md) -/
def endVfence (waited : Bool) (s : State) : State :=
  match headGang s with
  | some (_, g) => match laneWordAt s g.pc with
    | .ok v =>
      if waited ∧ (v.extractLsb' 94 2).toNat ≠ 1 ∧ (v.extractLsb' 84 10).toNat = 0x220 then
        afterIt (execVfence (splitLane v)) s
      else s
    | .error _ => s
  | none => s

/-- The head gang waits for a flush. -/
def headWaits (s : State) : Bool :=
  match headGang s with
  | some (_, g) => match g.wait with
    | .flush _ => true
    | _ => false
  | none => false

/-- A wait of the crew in focus that flush k satisfies ends: det.sync and a graft complete, a fence goes on, the others
issue again. -/
def flushWaits (k : Nat) (s : State) : State :=
  let wake := wakeBy k (awaitsPeer true s.crew)
  let wakes := (curRun s.crew).any (fun r => r.gangs.any (fun g => wake g != g))
  let s1 := if wakes then
      raiseClock (some k) (endVfence (headWaits s) (modRun (fun r => { r with gangs := r.gangs.map wake }) s))
    else s
  match s1.crew.wait with
  | .detSync i => if i ≤ k then raiseClock (some k) (endFence (onC (fun c => { c with wait := .none }) s1)) else s1
  | .released i => if i ≤ k then raiseClock (some k) (finish (s1.crew.sc.pc + 4) s1) else s1
  | _ => s1

/-- Step 4 of R317. -/
def flushReleases (k : Nat) (s : State) : State :=
  let job := s.job.take
  let teams := (allTeams s).filter (fun t => t.job == job && (placeCore t.place).isSome)
  let cores := (teams.filterMap (fun t => placeCore t.place)).eraseDups
  let keys := (jobCrews s job).map (·.key)
  let s1 := teams.foldl (fun t u => onTeam job u.idx (flushBars k) t) s
  let s2 := cores.foldl (flushToken k) s1
  let s3 := cores.foldl (flushAcc k) s2
  let s4 := keys.foldl (fun t key => onCrew key (flushEdge k) t) s3
  keys.foldl (fun t key => onCrew key (flushWaits k) t) s4

/-! ### The budget and the log (R239, R310) -/

/-- The total charged through interval k exceeds the budget: every crew will trap from the end of the interval on.
(DEDUCED, unsafe: notes/assumptions/28.md) -/
def flushBudget (k : Nat) (s : State) : State :=
  match findJob s s.job.budgetOwner with
  | none => s
  | some o =>
    let later := ((s.job.spent.filter (fun p => decide (k < p.1))).map (·.2)).foldl (· + ·) 0
    let total := o.charged - later
    if o.rcd.budget ≠ 0 ∧ o.rcd.budget.toNat + o.extended < total then
      mapCrews (fun c => if c.key.job = s.job.take ∧ c.status ≠ .complete then
        { c with budgetTrap := some ((k + 1) * flushF s.job, total) } else c) s
    else s

/-- What decrements up to interval k freed in the log is usable again. (DEDUCED, unsafe: notes/assumptions/27.md) -/
def thaw (k : Nat) (g : GraphLog) : GraphLog :=
  let still := fun (l : List (Nat × Nat)) => l.filter (fun x => decide (k < x.2))
  { g with frozenFrames := still g.frozenFrames, frozenSlots := still g.frozenSlots, frozenIds := still g.frozenIds }

/-- The end of flush k. -/
def flushEnd (k : Nat) (s : State) : State :=
  let job := s.job.take
  let f := fun (t : Team) => if t.job = job then { t with log := thaw k t.log } else t
  let s1 := { s with team := f s.team, teams := s.teams.map f }
  onJ (fun j => { j with flushK := k + 1, spent := j.spent.filter (fun p => decide (k < p.1)) }) s1

/-- A team of the job slice in focus has an access to its context area that waits for its answer. -/
def areaWaits (s : State) : Bool :=
  (allTeams s).any (fun t => t.job == s.job.take && waitsIo s (.context t.job t.idx))

/-- Flush k of the job slice in focus. -/
def flushAll (k : Nat) (s : State) : State :=
  flushEnd k (flushBudget k (flushReleases k (flushQueues k (flushAtomics k s))))

/-- A flush whose spills or refills meet a fault is put off until the answer: the fault alone remains (R298, R318). -/
def flushOnce (k : Nat) (s : State) : State :=
  let t := flushAll k s
  if areaWaits t then { s with merges := t.merges, replicas := t.replicas, tlbs := t.tlbs } else t

/-- FLUSH (R317). -/
def execFlush (job : Nat) (s : State) : Host.Outcome State Fault Refusal :=
  .next (match (jobCrews s job).head? with
    | some c => onCrew c.key (fun t =>
        if clockOn t && isDet t && t.job.phase == .running && flushWanted t && flushPlaced t && !areaWaits t &&
            flushReady t t.job.flushK && walked t t.job.flushK then
          flushOnce t.job.flushK t
        else t) s
    | none => s)

end Sys2Proof.Machine
end

