-- ==== Sys2Proof/Machine/Dispatch.lean ====
section
/-! DEFINITION. The meaning of each instruction and event: one arm per constructor of Instr. -/

namespace Sys2Proof.Machine

/-- Execute an instruction or event. -/
def exec (i : Instr) (s : State) : Host.Outcome State Fault Refusal :=
  match i with
  | .add d a b => Sys2Proof.Machine.execAdd d a b s
  | .sub d a b => Sys2Proof.Machine.execSub d a b s
  | .mul d a b => Sys2Proof.Machine.execMul d a b s
  | .mulh d a b => Sys2Proof.Machine.execMulh d a b s
  | .mulhz d a b => Sys2Proof.Machine.execMulhz d a b s
  | .div d a b => Sys2Proof.Machine.execDiv d a b s
  | .divz d a b => Sys2Proof.Machine.execDivz d a b s
  | .rem d a b => Sys2Proof.Machine.execRem d a b s
  | .remz d a b => Sys2Proof.Machine.execRemz d a b s
  | .min d a b => Sys2Proof.Machine.execMin d a b s
  | .max d a b => Sys2Proof.Machine.execMax d a b s
  | .minz d a b => Sys2Proof.Machine.execMinz d a b s
  | .maxz d a b => Sys2Proof.Machine.execMaxz d a b s
  | .addSat d a b => Sys2Proof.Machine.execAddSat d a b s
  | .subSat d a b => Sys2Proof.Machine.execSubSat d a b s
  | .addzSat d a b => Sys2Proof.Machine.execAddzSat d a b s
  | .subzSat d a b => Sys2Proof.Machine.execSubzSat d a b s
  | .and d a b => Sys2Proof.Machine.execAnd d a b s
  | .or d a b => Sys2Proof.Machine.execOr d a b s
  | .xor d a b => Sys2Proof.Machine.execXor d a b s
  | .andn d a b => Sys2Proof.Machine.execAndn d a b s
  | .shl d a b => Sys2Proof.Machine.execShl d a b s
  | .shr d a b => Sys2Proof.Machine.execShr d a b s
  | .sar d a b => Sys2Proof.Machine.execSar d a b s
  | .rol d a b => Sys2Proof.Machine.execRol d a b s
  | .popc d a => Sys2Proof.Machine.execPopc d a s
  | .clz d a => Sys2Proof.Machine.execClz d a s
  | .ctz d a => Sys2Proof.Machine.execCtz d a s
  | .addW d a b => Sys2Proof.Machine.execAddW d a b s
  | .subW d a b => Sys2Proof.Machine.execSubW d a b s
  | .mulW d a b => Sys2Proof.Machine.execMulW d a b s
  | .mulhW d a b => Sys2Proof.Machine.execMulhW d a b s
  | .mulhzW d a b => Sys2Proof.Machine.execMulhzW d a b s
  | .divW d a b => Sys2Proof.Machine.execDivW d a b s
  | .divzW d a b => Sys2Proof.Machine.execDivzW d a b s
  | .remW d a b => Sys2Proof.Machine.execRemW d a b s
  | .remzW d a b => Sys2Proof.Machine.execRemzW d a b s
  | .minW d a b => Sys2Proof.Machine.execMinW d a b s
  | .maxW d a b => Sys2Proof.Machine.execMaxW d a b s
  | .minzW d a b => Sys2Proof.Machine.execMinzW d a b s
  | .maxzW d a b => Sys2Proof.Machine.execMaxzW d a b s
  | .addSatW d a b => Sys2Proof.Machine.execAddSatW d a b s
  | .subSatW d a b => Sys2Proof.Machine.execSubSatW d a b s
  | .addzSatW d a b => Sys2Proof.Machine.execAddzSatW d a b s
  | .subzSatW d a b => Sys2Proof.Machine.execSubzSatW d a b s
  | .andW d a b => Sys2Proof.Machine.execAndW d a b s
  | .orW d a b => Sys2Proof.Machine.execOrW d a b s
  | .xorW d a b => Sys2Proof.Machine.execXorW d a b s
  | .andnW d a b => Sys2Proof.Machine.execAndnW d a b s
  | .shlW d a b => Sys2Proof.Machine.execShlW d a b s
  | .shrW d a b => Sys2Proof.Machine.execShrW d a b s
  | .sarW d a b => Sys2Proof.Machine.execSarW d a b s
  | .rolW d a b => Sys2Proof.Machine.execRolW d a b s
  | .popcW d a => Sys2Proof.Machine.execPopcW d a s
  | .clzW d a => Sys2Proof.Machine.execClzW d a s
  | .ctzW d a => Sys2Proof.Machine.execCtzW d a s
  | .faddF64 d a b => Sys2Proof.Machine.execFaddF64 d a b s
  | .fsubF64 d a b => Sys2Proof.Machine.execFsubF64 d a b s
  | .fmulF64 d a b => Sys2Proof.Machine.execFmulF64 d a b s
  | .fdivF64 d a b => Sys2Proof.Machine.execFdivF64 d a b s
  | .fsqrtF64 d a => Sys2Proof.Machine.execFsqrtF64 d a s
  | .fminF64 d a b => Sys2Proof.Machine.execFminF64 d a b s
  | .fmaxF64 d a b => Sys2Proof.Machine.execFmaxF64 d a b s
  | .ffmaF64 d a b => Sys2Proof.Machine.execFfmaF64 d a b s
  | .fcvtF64S64 d a => Sys2Proof.Machine.execFcvtF64S64 d a s
  | .fcvtF64Z64 d a => Sys2Proof.Machine.execFcvtF64Z64 d a s
  | .fcvtS64F64 d a => Sys2Proof.Machine.execFcvtS64F64 d a s
  | .fcvtZ64F64 d a => Sys2Proof.Machine.execFcvtZ64F64 d a s
  | .fcvtF64F32 d a => Sys2Proof.Machine.execFcvtF64F32 d a s
  | .fabsF64 d a => Sys2Proof.Machine.execFabsF64 d a s
  | .fnegF64 d a => Sys2Proof.Machine.execFnegF64 d a s
  | .faddF32 d a b => Sys2Proof.Machine.execFaddF32 d a b s
  | .fsubF32 d a b => Sys2Proof.Machine.execFsubF32 d a b s
  | .fmulF32 d a b => Sys2Proof.Machine.execFmulF32 d a b s
  | .fdivF32 d a b => Sys2Proof.Machine.execFdivF32 d a b s
  | .fsqrtF32 d a => Sys2Proof.Machine.execFsqrtF32 d a s
  | .fminF32 d a b => Sys2Proof.Machine.execFminF32 d a b s
  | .fmaxF32 d a b => Sys2Proof.Machine.execFmaxF32 d a b s
  | .ffmaF32 d a b => Sys2Proof.Machine.execFfmaF32 d a b s
  | .fcvtF32S64 d a => Sys2Proof.Machine.execFcvtF32S64 d a s
  | .fcvtF32Z64 d a => Sys2Proof.Machine.execFcvtF32Z64 d a s
  | .fcvtS64F32 d a => Sys2Proof.Machine.execFcvtS64F32 d a s
  | .fcvtZ64F32 d a => Sys2Proof.Machine.execFcvtZ64F32 d a s
  | .fcvtF32F64 d a => Sys2Proof.Machine.execFcvtF32F64 d a s
  | .fabsF32 d a => Sys2Proof.Machine.execFabsF32 d a s
  | .fnegF32 d a => Sys2Proof.Machine.execFnegF32 d a s
  | .addi d a k => Sys2Proof.Machine.execAddi d a k s
  | .andi d a k => Sys2Proof.Machine.execAndi d a k s
  | .ori d a k => Sys2Proof.Machine.execOri d a k s
  | .xori d a k => Sys2Proof.Machine.execXori d a k s
  | .shli d a n => Sys2Proof.Machine.execShli d a n s
  | .shliW d a n => Sys2Proof.Machine.execShliW d a n s
  | .shri d a n => Sys2Proof.Machine.execShri d a n s
  | .shriW d a n => Sys2Proof.Machine.execShriW d a n s
  | .sari d a n => Sys2Proof.Machine.execSari d a n s
  | .sariW d a n => Sys2Proof.Machine.execSariW d a n s
  | .roli d a n => Sys2Proof.Machine.execRoli d a n s
  | .roliW d a n => Sys2Proof.Machine.execRoliW d a n s
  | .li d k => Sys2Proof.Machine.execLi d k s
  | .liW d k => Sys2Proof.Machine.execLiW d k s
  | .liWz d k => Sys2Proof.Machine.execLiWz d k s
  | .liWh d k => Sys2Proof.Machine.execLiWh d k s
  | .cmp d a b c => Sys2Proof.Machine.execCmp d a b c s
  | .cmpF64 d a b c => Sys2Proof.Machine.execCmpF64 d a b c s
  | .cmpF32 d a b c => Sys2Proof.Machine.execCmpF32 d a b c s
  | .cmpi d a c k => Sys2Proof.Machine.execCmpi d a c k s
  | .predAnd d a b => Sys2Proof.Machine.execPredAnd d a b s
  | .predOr d a b => Sys2Proof.Machine.execPredOr d a b s
  | .predXor d a b => Sys2Proof.Machine.execPredXor d a b s
  | .predAndn d a b => Sys2Proof.Machine.execPredAndn d a b s
  | .predOrn d a b => Sys2Proof.Machine.execPredOrn d a b s
  | .predNand d a b => Sys2Proof.Machine.execPredNand d a b s
  | .predNor d a b => Sys2Proof.Machine.execPredNor d a b s
  | .predXnor d a b => Sys2Proof.Machine.execPredXnor d a b s
  | .predMov d a => Sys2Proof.Machine.execPredMov d a s
  | .predNot d a => Sys2Proof.Machine.execPredNot d a s
  | .predSet d => Sys2Proof.Machine.execPredSet d s
  | .predClr d => Sys2Proof.Machine.execPredClr d s
  | .predNz d a => Sys2Proof.Machine.execPredNz d a s
  | .predGet d a => Sys2Proof.Machine.execPredGet d a s
  | .bra c n o => Sys2Proof.Machine.execBra c n o s
  | .call c n o => Sys2Proof.Machine.execCall c n o s
  | .jr a n c => Sys2Proof.Machine.execJr a n c s
  | .ret n c => Sys2Proof.Machine.execRet n c s
  | .calli d a n c => Sys2Proof.Machine.execCalli d a n c s
  | .loop d k => Sys2Proof.Machine.execLoop d k s
  | .lrun k => Sys2Proof.Machine.execLrun k s
  | .lrunFar k => Sys2Proof.Machine.execLrunFar k s
  | .lrunFarReg a k => Sys2Proof.Machine.execLrunFarReg a k s
  | .lsnap a k => Sys2Proof.Machine.execLsnap a k s
  | .lsnapPair a b k => Sys2Proof.Machine.execLsnapPair a b k s
  | .lwait => Sys2Proof.Machine.execLwait s
  | .lwaitLe n => Sys2Proof.Machine.execLwaitLe n s
  | .xrd d z => Sys2Proof.Machine.execXrd d z s
  | .xwr a z => Sys2Proof.Machine.execXwr a z s
  | .nop => Sys2Proof.Machine.execNop s
  | .trap c => Sys2Proof.Machine.execTrap c s
  | .brk => Sys2Proof.Machine.execBrk s
  | .yield => Sys2Proof.Machine.execYield s
  | .exit => Sys2Proof.Machine.execExit s
  | .resume => Sys2Proof.Machine.execResume s
  | .spawnTry c a b => Sys2Proof.Machine.execSpawnTry c a b s
  | .graft a => Sys2Proof.Machine.execGraft a s
  | .ld d a w o => Sys2Proof.Machine.execLd d a w o s
  | .ldRo d a w o => Sys2Proof.Machine.execLdRo d a w o s
  | .st d a w o => Sys2Proof.Machine.execSt d a w o s
  | .amo d a b o w z => Sys2Proof.Machine.execAmo d a b o w z s
  | .fence o z => Sys2Proof.Machine.execFence o z s
  | .ewait n c => Sys2Proof.Machine.execEwait n c s
  | .cpIssue d a => Sys2Proof.Machine.execCpIssue d a s
  | .cpIssueBar d a b => Sys2Proof.Machine.execCpIssueBar d a b s
  | .cpIssueRing d a => Sys2Proof.Machine.execCpIssueRing d a s
  | .cpYield d k => Sys2Proof.Machine.execCpYield d k s
  | .hBind d a c => Sys2Proof.Machine.execHBind d a c s
  | .hUnbind d => Sys2Proof.Machine.execHUnbind d s
  | .hClaim d => Sys2Proof.Machine.execHClaim d s
  | .hRelease d => Sys2Proof.Machine.execHRelease d s
  | .hWait d => Sys2Proof.Machine.execHWait d s
  | .hTry d c => Sys2Proof.Machine.execHTry d c s
  | .hState d a => Sys2Proof.Machine.execHState d a s
  | .hRclaim a => Sys2Proof.Machine.execHRclaim a s
  | .hRadv d a => Sys2Proof.Machine.execHRadv d a s
  | .barAlloc c a b => Sys2Proof.Machine.execBarAlloc c a b s
  | .barMark b => Sys2Proof.Machine.execBarMark b s
  | .barMeet b => Sys2Proof.Machine.execBarMeet b s
  | .barHold p b => Sys2Proof.Machine.execBarHold p b s
  | .barPend a b => Sys2Proof.Machine.execBarPend a b s
  | .barFree b => Sys2Proof.Machine.execBarFree b s
  | .barPhase d b => Sys2Proof.Machine.execBarPhase d b s
  | .qPush a b z => Sys2Proof.Machine.execQPush a b z s
  | .qPushTry c a b z => Sys2Proof.Machine.execQPushTry c a b z s
  | .qPop d a z => Sys2Proof.Machine.execQPop d a z s
  | .qPopTry d a c z => Sys2Proof.Machine.execQPopTry d a c z s
  | .cmoWb a b z => Sys2Proof.Machine.execCmoWb a b z s
  | .cmoWbinv a b z => Sys2Proof.Machine.execCmoWbinv a b z s
  | .cmoInv a b z => Sys2Proof.Machine.execCmoInv a b z s
  | .cmoIinv a b z => Sys2Proof.Machine.execCmoIinv a b z s
  | .cmoRodrop a b z => Sys2Proof.Machine.execCmoRodrop a b z s
  | .matWload a b => Sys2Proof.Machine.execMatWload a b s
  | .matTokenTake => Sys2Proof.Machine.execMatTokenTake s
  | .matTokenPass => Sys2Proof.Machine.execMatTokenPass s
  | .matTokenQuery c => Sys2Proof.Machine.execMatTokenQuery c s
  | .accAlloc d n => Sys2Proof.Machine.execAccAlloc d n s
  | .accFree d n => Sys2Proof.Machine.execAccFree d n s
  | .matZeroFx d a => Sys2Proof.Machine.execMatZeroFx d a s
  | .matZeroFp d => Sys2Proof.Machine.execMatZeroFp d s
  | .matDrain d a b => Sys2Proof.Machine.execMatDrain d a b s
  | .mloop d a rm fmt f k => Sys2Proof.Machine.execMloop d a rm fmt f k s
  | .spTload t a => Sys2Proof.Machine.execSpTload t a s
  | .spTstat d t => Sys2Proof.Machine.execSpTstat d t s
  | .spPart d a b => Sys2Proof.Machine.execSpPart d a b s
  | .spTmul d a t r => Sys2Proof.Machine.execSpTmul d a t r s
  | .irBegin a b => Sys2Proof.Machine.execIrBegin a b s
  | .irEnd => Sys2Proof.Machine.execIrEnd s
  | .tabLoad c a b => Sys2Proof.Machine.execTabLoad c a b s
  | .slcExtend c a => Sys2Proof.Machine.execSlcExtend c a s
  | .slcAbort => Sys2Proof.Machine.execSlcAbort s
  | .slcQfree d a => Sys2Proof.Machine.execSlcQfree d a s
  | .detDigest d a => Sys2Proof.Machine.execDetDigest d a s
  | .detOut a b => Sys2Proof.Machine.execDetOut a b s
  | .detFlush d => Sys2Proof.Machine.execDetFlush d s
  | .detSync => Sys2Proof.Machine.execDetSync s
  | .fxPut a => Sys2Proof.Machine.execFxPut a s
  | .fxPutSet a b => Sys2Proof.Machine.execFxPutSet a b s
  | .fxPutAdd a b => Sys2Proof.Machine.execFxPutAdd a b s
  | .fxGet a => Sys2Proof.Machine.execFxGet a s
  | .fxSignalSet a b => Sys2Proof.Machine.execFxSignalSet a b s
  | .fxSignalAdd a b => Sys2Proof.Machine.execFxSignalAdd a b s
  | .fxWait a b => Sys2Proof.Machine.execFxWait a b s
  | .fxWaitTry c a b => Sys2Proof.Machine.execFxWaitTry c a b s
  | .fxReduce a => Sys2Proof.Machine.execFxReduce a s
  | .svLu a => Sys2Proof.Machine.execSvLu a s
  | .svChol a => Sys2Proof.Machine.execSvChol a s
  | .svTrs a => Sys2Proof.Machine.execSvTrs a s
  | .svRef a => Sys2Proof.Machine.execSvRef a s
  | .svStat d => Sys2Proof.Machine.execSvStat d s
  | .lanePairWord op0 op1 => Sys2Proof.Machine.execLanePairWord op0 op1 s
  | .vadd w => Sys2Proof.Machine.execVadd w s
  | .vsub w => Sys2Proof.Machine.execVsub w s
  | .vmulLo w => Sys2Proof.Machine.execVmulLo w s
  | .vmulHi w => Sys2Proof.Machine.execVmulHi w s
  | .vmad w => Sys2Proof.Machine.execVmad w s
  | .vdiv w => Sys2Proof.Machine.execVdiv w s
  | .vrem w => Sys2Proof.Machine.execVrem w s
  | .vmin w => Sys2Proof.Machine.execVmin w s
  | .vmax w => Sys2Proof.Machine.execVmax w s
  | .vabs w => Sys2Proof.Machine.execVabs w s
  | .vneg w => Sys2Proof.Machine.execVneg w s
  | .vand w => Sys2Proof.Machine.execVand w s
  | .vor w => Sys2Proof.Machine.execVor w s
  | .vxor w => Sys2Proof.Machine.execVxor w s
  | .vandn w => Sys2Proof.Machine.execVandn w s
  | .vnot w => Sys2Proof.Machine.execVnot w s
  | .vshl w => Sys2Proof.Machine.execVshl w s
  | .vshr w => Sys2Proof.Machine.execVshr w s
  | .vrol w => Sys2Proof.Machine.execVrol w s
  | .vpopc w => Sys2Proof.Machine.execVpopc w s
  | .vclz w => Sys2Proof.Machine.execVclz w s
  | .vctz w => Sys2Proof.Machine.execVctz w s
  | .vmov w => Sys2Proof.Machine.execVmov w s
  | .vaddF w => Sys2Proof.Machine.execVaddF w s
  | .vsubF w => Sys2Proof.Machine.execVsubF w s
  | .vmul w => Sys2Proof.Machine.execVmul w s
  | .vdivF w => Sys2Proof.Machine.execVdivF w s
  | .vfma w => Sys2Proof.Machine.execVfma w s
  | .vfnma w => Sys2Proof.Machine.execVfnma w s
  | .vfms w => Sys2Proof.Machine.execVfms w s
  | .vminF w => Sys2Proof.Machine.execVminF w s
  | .vmaxF w => Sys2Proof.Machine.execVmaxF w s
  | .vabsF w => Sys2Proof.Machine.execVabsF w s
  | .vnegF w => Sys2Proof.Machine.execVnegF w s
  | .vsqrt w => Sys2Proof.Machine.execVsqrt w s
  | .vround w => Sys2Proof.Machine.execVround w s
  | .vrcp w => Sys2Proof.Machine.execVrcp w s
  | .vrsqrt w => Sys2Proof.Machine.execVrsqrt w s
  | .vexp2 w => Sys2Proof.Machine.execVexp2 w s
  | .vlog2 w => Sys2Proof.Machine.execVlog2 w s
  | .vsin w => Sys2Proof.Machine.execVsin w s
  | .vcos w => Sys2Proof.Machine.execVcos w s
  | .vtanh w => Sys2Proof.Machine.execVtanh w s
  | .vcvt w => Sys2Proof.Machine.execVcvt w s
  | .vpack w => Sys2Proof.Machine.execVpack w s
  | .vunpk w => Sys2Proof.Machine.execVunpk w s
  | .vqdec w => Sys2Proof.Machine.execVqdec w s
  | .vqenc w => Sys2Proof.Machine.execVqenc w s
  | .vrand w => Sys2Proof.Machine.execVrand w s
  | .vtab w => Sys2Proof.Machine.execVtab w s
  | .vcmp cond w => Sys2Proof.Machine.execVcmp cond w s
  | .vsel w => Sys2Proof.Machine.execVsel w s
  | .vpand w => Sys2Proof.Machine.execVpand w s
  | .vpor w => Sys2Proof.Machine.execVpor w s
  | .vpxor w => Sys2Proof.Machine.execVpxor w s
  | .vpandn w => Sys2Proof.Machine.execVpandn w s
  | .vpnot w => Sys2Proof.Machine.execVpnot w s
  | .vpmov w => Sys2Proof.Machine.execVpmov w s
  | .vpset w => Sys2Proof.Machine.execVpset w s
  | .vpclr w => Sys2Proof.Machine.execVpclr w s
  | .vpnz w => Sys2Proof.Machine.execVpnz w s
  | .vpget w => Sys2Proof.Machine.execVpget w s
  | .vballot w => Sys2Proof.Machine.execVballot w s
  | .vedge w => Sys2Proof.Machine.execVedge w s
  | .vlaneFrom w => Sys2Proof.Machine.execVlaneFrom w s
  | .vlaneSwap w => Sys2Proof.Machine.execVlaneSwap w s
  | .vlaneLag w => Sys2Proof.Machine.execVlaneLag w s
  | .vlaneLead w => Sys2Proof.Machine.execVlaneLead w s
  | .vscan w => Sys2Proof.Machine.execVscan w s
  | .vred w => Sys2Proof.Machine.execVred w s
  | .vxs w => Sys2Proof.Machine.execVxs w s
  | .laneBra w => Sys2Proof.Machine.execLaneBra w s
  | .join w => Sys2Proof.Machine.execJoin w s
  | .regang w => Sys2Proof.Machine.execRegang w s
  | .lstop w => Sys2Proof.Machine.execLstop w s
  | .lyield w => Sys2Proof.Machine.execLyield w s
  | .ltrap w => Sys2Proof.Machine.execLtrap w s
  | .vld w => Sys2Proof.Machine.execVld w s
  | .vldRo w => Sys2Proof.Machine.execVldRo w s
  | .vst w => Sys2Proof.Machine.execVst w s
  | .vldg w => Sys2Proof.Machine.execVldg w s
  | .vsct w => Sys2Proof.Machine.execVsct w s
  | .vsctAdd w => Sys2Proof.Machine.execVsctAdd w s
  | .vamo w => Sys2Proof.Machine.execVamo w s
  | .vprefetch w => Sys2Proof.Machine.execVprefetch w s
  | .vfence w => Sys2Proof.Machine.execVfence w s
  | .vinter w => Sys2Proof.Machine.execVinter w s
  | .vpfx w => Sys2Proof.Machine.execVpfx w s
  | .vbmapAnd w => Sys2Proof.Machine.execVbmapAnd w s
  | .vbmapAndn w => Sys2Proof.Machine.execVbmapAndn w s
  | .vbmapOr w => Sys2Proof.Machine.execVbmapOr w s
  | .vbmapKeep w => Sys2Proof.Machine.execVbmapKeep w s
  | .vbmapRank w => Sys2Proof.Machine.execVbmapRank w s
  | .vbmapSel w => Sys2Proof.Machine.execVbmapSel w s
  | .eld w => Sys2Proof.Machine.execEld w s
  | .est w => Sys2Proof.Machine.execEst w s
  | .epin w => Sys2Proof.Machine.execEpin w s
  | .eunpin w => Sys2Proof.Machine.execEunpin w s
  | .ecvt w => Sys2Proof.Machine.execEcvt w s
  | .ecvtRad w => Sys2Proof.Machine.execEcvtRad w s
  | .eadd w => Sys2Proof.Machine.execEadd w s
  | .esub w => Sys2Proof.Machine.execEsub w s
  | .emul w => Sys2Proof.Machine.execEmul w s
  | .efma w => Sys2Proof.Machine.execEfma w s
  | .ediv w => Sys2Proof.Machine.execEdiv w s
  | .esqrt w => Sys2Proof.Machine.execEsqrt w s
  | .eneg w => Sys2Proof.Machine.execEneg w s
  | .ecmp w => Sys2Proof.Machine.execEcmp w s
  | .esever w => Sys2Proof.Machine.execEsever w s
  | .emid w => Sys2Proof.Machine.execEmid w s
  | .erad w => Sys2Proof.Machine.execErad w s
  | .sliceQueuePush q off data => Sys2Proof.Machine.execSliceQueuePush q off data s
  | .schedulerTakeRecord => Sys2Proof.Machine.execSchedulerTakeRecord s
  | .prerequisiteRead q k n => Sys2Proof.Machine.execPrerequisiteRead q k n s
  | .placeTeam job team die => Sys2Proof.Machine.execPlaceTeam job team die s
  | .crewSwitch out inn => Sys2Proof.Machine.execCrewSwitch out inn s
  | .laneRunComplete k => Sys2Proof.Machine.execLaneRunComplete k s
  | .gridComplete job => Sys2Proof.Machine.execGridComplete job s
  | .digestCompute job => Sys2Proof.Machine.execDigestCompute job s
  | .completionWordStore job => Sys2Proof.Machine.execCompletionWordStore job s
  | .eventRecordWrite secure => Sys2Proof.Machine.execEventRecordWrite secure s
  | .deadlineMiss ref => Sys2Proof.Machine.execDeadlineMiss ref s
  | .budgetExhausted job => Sys2Proof.Machine.execBudgetExhausted job s
  | .schedulerPreempt job team => Sys2Proof.Machine.execSchedulerPreempt job team s
  | .teamContextSave job team => Sys2Proof.Machine.execTeamContextSave job team s
  | .teamRestore job team core => Sys2Proof.Machine.execTeamRestore job team core s
  | .graftMove job team => Sys2Proof.Machine.execGraftMove job team s
  | .deferredTrap k => Sys2Proof.Machine.execDeferredTrap k s
  | .loadReturn k => Sys2Proof.Machine.execLoadReturn k s
  | .storePerformed k => Sys2Proof.Machine.execStorePerformed k s
  | .amoExecute k => Sys2Proof.Machine.execAmoExecute k s
  | .gatherComplete k => Sys2Proof.Machine.execGatherComplete k s
  | .scatterPerformed k => Sys2Proof.Machine.execScatterPerformed k s
  | .scatterAddApply k => Sys2Proof.Machine.execScatterAddApply k s
  | .copyComplete k => Sys2Proof.Machine.execCopyComplete k s
  | .copyAbandon k cause => Sys2Proof.Machine.execCopyAbandon k cause s
  | .weightLoadComplete core => Sys2Proof.Machine.execWeightLoadComplete core s
  | .weightGranuleRefill job team granule => Sys2Proof.Machine.execWeightGranuleRefill job team granule s
  | .matrixStep core => Sys2Proof.Machine.execMatrixStep core s
  | .matZeroExecute core => Sys2Proof.Machine.execMatZeroExecute core s
  | .matDrainExecute core => Sys2Proof.Machine.execMatDrainExecute core s
  | .spTmulExecute core => Sys2Proof.Machine.execSpTmulExecute core s
  | .accDeadlockBreak core => Sys2Proof.Machine.execAccDeadlockBreak core s
  | .espalierCompile cluster => Sys2Proof.Machine.execEspalierCompile cluster s
  | .espalierCompileDone cluster => Sys2Proof.Machine.execEspalierCompileDone cluster s
  | .whetstoneDecide k => Sys2Proof.Machine.execWhetstoneDecide k s
  | .walkerReclaim job team => Sys2Proof.Machine.execWalkerReclaim job team s
  | .spPartComplete k => Sys2Proof.Machine.execSpPartComplete k s
  | .vedgeDelivery k east => Sys2Proof.Machine.execVedgeDelivery k east s
  | .translationAck k => Sys2Proof.Machine.execTranslationAck k s
  | .faultRecordWrite secure => Sys2Proof.Machine.execFaultRecordWrite secure s
  | .frespRetry secure io merge => Sys2Proof.Machine.execFrespRetry secure io merge s
  | .frespFail secure io merge => Sys2Proof.Machine.execFrespFail secure io merge s
  | .monitorWindowEnd die advice => Sys2Proof.Machine.execMonitorWindowEnd die advice s
  | .replicaCreate die page => Sys2Proof.Machine.execReplicaCreate die page s
  | .pageCollapse frame => Sys2Proof.Machine.execPageCollapse frame s
  | .bankModeWrite cluster bank v => Sys2Proof.Machine.execBankModeWrite cluster bank v s
  | .bankTransitionComplete cluster bank => Sys2Proof.Machine.execBankTransitionComplete cluster bank s
  | .qctlWrite q v => Sys2Proof.Machine.execQctlWrite q v s
  | .dqctlWrite n v => Sys2Proof.Machine.execDqctlWrite n v s
  | .qstatClear q v => Sys2Proof.Machine.execQstatClear q v s
  | .ringHeadWrite ring v => Sys2Proof.Machine.execRingHeadWrite ring v s
  | .ringBaseSizeWrite ring isSize v => Sys2Proof.Machine.execRingBaseSizeWrite ring isSize v s
  | .asidinvWrite v => Sys2Proof.Machine.execAsidinvWrite v s
  | .preemptWrite second v => Sys2Proof.Machine.execPreemptWrite second v s
  | .slcabortWrite second v => Sys2Proof.Machine.execSlcabortWrite second v s
  | .pstateEnterD3 => Sys2Proof.Machine.execPstateEnterD3 s
  | .pstateRun => Sys2Proof.Machine.execPstateRun s
  | .pcapWrite v => Sys2Proof.Machine.execPcapWrite v s
  | .attgoWrite v => Sys2Proof.Machine.execAttgoWrite v s
  | .attestationReportDone => Sys2Proof.Machine.execAttestationReportDone s
  | .errorLogClear word v => Sys2Proof.Machine.execErrorLogClear word v s
  | .registerWrite off v => Sys2Proof.Machine.execRegisterWrite off v s
  | .sensorThresholdCrossed die temp power => Sys2Proof.Machine.execSensorThresholdCrossed die temp power s
  | .p1EscalateTimeout => Sys2Proof.Machine.execP1EscalateTimeout s
  | .powerStateRelax => Sys2Proof.Machine.execPowerStateRelax s
  | .dramTempHot die temp => Sys2Proof.Machine.execDramTempHot die temp s
  | .dramCoolTimeout die temp => Sys2Proof.Machine.execDramCoolTimeout die temp s
  | .thermalTrip die => Sys2Proof.Machine.execThermalTrip die s
  | .coldReset image setup => Sys2Proof.Machine.execColdReset image setup s
  | .kalbyFlitRetry port => Sys2Proof.Machine.execKalbyFlitRetry port s
  | .kalbyPortDown port => Sys2Proof.Machine.execKalbyPortDown port s
  | .fabricIngressAccess va kind => Sys2Proof.Machine.execFabricIngressAccess va kind s
  | .fabricOpComplete k data => Sys2Proof.Machine.execFabricOpComplete k data s
  | .fabricOpAbandon k reason => Sys2Proof.Machine.execFabricOpAbandon k reason s
  | .fxReduceCombine c => Sys2Proof.Machine.execFxReduceCombine c s
  | .hostCxlMemAccess addr n write => Sys2Proof.Machine.execHostCxlMemAccess addr n write s
  | .flush job => Sys2Proof.Machine.execFlush job s
  | .illegalInstruction lane w => Sys2Proof.Machine.execIllegalInstruction lane w s
  | .solveRecordFinished k => Sys2Proof.Machine.execSolveRecordFinished k s
  | .cmoComplete k => Sys2Proof.Machine.execCmoComplete k s
  | .segmentSpillComplete job team => Sys2Proof.Machine.execSegmentSpillComplete job team s
  | .dieLinkFailure die => Sys2Proof.Machine.execDieLinkFailure die s
  | .softError place bit double => Sys2Proof.Machine.execSoftError place bit double s

end Sys2Proof.Machine
end

