-- ==== Sys2Proof/Machine/Gate.lean ====
section
/-! DEFINITION. Which stream issues next, what goes before an instruction, and the order of the device's own steps when
the schedule names none (R23, R40, R64, R97, R251, R284, R291, R309, R314, R319, R322; notes/assumptions/5.md). -/

namespace Sys2Proof.Machine

/-! ### Who may issue -/

/-- Every team of the job slice in focus is resident, leaving, or over: only then does a deterministic crew issue
(R306, R322). -/
def wholeJob (s : State) : Bool :=
  (allTeams s).all (fun t => t.job != s.job.take || t.place == .done || (placeCore t.place).isSome)

/-- The team in focus is leaving its core, and its crews are to stop; a deterministic team goes on until it may be
stopped (R296, R322). -/
def mustStop (s : State) : Bool :=
  match s.team.place with
  | .stopping _ => !isDet s || detStoppable s s.job
  | _ => false

/-- A deterministic crew of a leaving team that has reached the next flush waits for it. -/
def heldForStop (s : State) : Bool :=
  match s.team.place with
  | .stopping _ => isDet s && decide ((s.job.flushK + 1) * flushF s.job ≤ s.crew.clock)
  | _ => false

/-- A crew that draws on a budget goes no further: outside deterministic mode while its running out is still to be
noted, in deterministic mode past the end of an interval until its flush has checked the budget (R309, R310).
(DEDUCED, unsafe: notes/assumptions/28.md) -/
def budgetHolds (s : State) : Bool :=
  match findJob s s.job.budgetOwner with
  | some o =>
    if isDet s then o.rcd.budget != 0 && decide ((s.job.flushK + 1) * flushF s.job ≤ s.crew.clock)
    else budgetOut o
  | none => false

/-- The crew in focus is on a core, lives, has its token back if it held one, may draw on its budget, and is not stopped at
the entry of a trap. -/
def crewHere (s : State) : Bool :=
  s.crew.status != .complete && (placeCore s.team.place).isSome && !s.crew.hadToken && !heldForStop s && !budgetHolds s &&
    !entryWaits s.crew &&
    (!isDet s || wholeJob s) && clockOn s

/-- A blocked scalar instruction may issue again to see whether it can complete. -/
def mayRetry (s : State) : Bool :=
  let det := isDet s
  match s.crew.wait with
  | .none => true
  | .released _ | .graft _ | .barMeet _ _ | .barHold _ | .solve | .cmo => false
  | .detSync i => decide (i < s.job.flushK)
  | .token _ | .acc _ _ _ => !det
  | .remote => !s.crew.ops.any (fun o => match o.kind with
      | .remote false _ got => remLive got
      | _ => false)
  | _ => true

/-- The scalar stream of the crew in focus may issue. -/
def scalarMay (s : State) : Bool :=
  crewHere s && s.crew.status == .running && s.crew.active && s.crew.park.isNone && !mustStop s &&
    !heldAmo s.crew && mayRetry s

/-- Lanes may go on only to their switch point: the crew parks, stops, or refines (R64).
(DESIGN CHOICE, unsafe: notes/assumptions/20.md) -/
def toSwitch (s : State) : Bool :=
  leaving s.crew || mustStop s || (curRun s.crew).any (fun r => r.gangs.any refines)

/-- A gang's next instruction is no window-ending one. -/
def insideWindow (s : State) (g : Gang) : Bool :=
  match laneWordAt s g.pc with
  | .ok v => !windowWord v
  | .error _ => false

/-- A gang blocked inside an instruction, which holds the other gangs in deterministic mode (R23). -/
def gangBlocks (g : Gang) : Bool :=
  match g.wait with
  | .ready | .regang | .vedge => false
  | _ => true

/-- Accesses of the lane stream through aperture 0x3 are unanswered. -/
def laneAsks (c : Crew) : Bool :=
  c.ops.any (fun o => match o.kind with
    | .remote true _ got => remLive got
    | _ => false)

/-- A gang may issue now: ready, or again to see whether it can complete.
(DESIGN CHOICE, unsafe: notes/assumptions/20.md) -/
def gangMay (s : State) (r : ARun) (again : Bool) (g : Gang) : Bool :=
  (if again then g.wait == .stall && !laneAsks s.crew else g.wait == .ready) &&
    (!toSwitch s || insideWindow s g) &&
    (!isDet s || !r.gangs.any (fun h => gangBlocks h && h.members != g.members))

/-- The gang of the crew in focus that issues next: the first in rotation that may. -/
def nextGang (again : Bool) (s : State) : Option Gang :=
  if crewHere s && s.crew.active then
    (curRun s.crew).bind (fun r => r.gangs.find? (gangMay s r again))
  else none

/-! ### Fetch (R42, R279) -/

/-- Fetch the scalar instruction at the program counter of the crew in focus: its first word, and the word that
follows a long form's, before the first is decoded. (DESIGN CHOICE, unsafe: notes/assumptions/49.md) -/
def fetchScalar (s : State) : Res (W32 × W32) := do
  let b ← fetchBytes false s s.crew.sc.pc 4
  let w0 := BitVec.ofNat 32 (bytesToNat b)
  if isLong w0 then
    let b2 ← fetchBytes false s (s.crew.sc.pc + 4) 4
    .ok (w0, BitVec.ofNat 32 (bytesToNat b2))
  else .ok (w0, 0)

/-! ### What goes before an instruction (R97, R370) -/

/-- A scalar atomic whose value or acquire the next scalar instruction needs. -/
def needsAmo (i : Instr) (o : Op) : Bool :=
  match o.kind with
  | .amo a => a.acq != 0 || (scalarRegs i).contains a.dest
  | _ => false

/-- A load whose value the next scalar instruction needs. -/
def needsLoad (i : Instr) (o : Op) : Bool :=
  match o.kind with
  | .load d _ _ _ => (scalarRegs i).contains d
  | _ => false

/-- A partition whose results the next scalar instruction needs. -/
def needsPart (i : Instr) (o : Op) : Bool :=
  match o.kind with
  | .part d _ _ _ _ _ => (List.range 4).any (fun j => (scalarRegs i).contains (d + j))
  | _ => false

/-- An atomic of the lane stream. -/
def isVamo (o : Op) : Bool :=
  match o.kind with
  | .vamo _ _ => true
  | _ => false

/-- Values on their way to registers that the next lane instruction needs. -/
def needsLanes (i : Instr) (l : List (Nat × W32)) : Bool := l.any (fun x => (laneRegsOf i).contains (x.1 / 32))

/-- The next lane instruction writes a scalar register (vxs). -/
def writesScalar (i : Instr) : Bool := (laneFmt i).any (fun p => p.1.dscalar)

/-- A lane load whose values the next lane instruction needs, or any scalar load before vxs. -/
def needsLaneLoad (i : Instr) (o : Op) : Bool :=
  match o.kind with
  | .laneLoad l => needsLanes i l
  | .load _ _ _ _ => writesScalar i
  | _ => false

/-- A gather whose values the next lane instruction needs. -/
def needsGather (i : Instr) (o : Op) : Bool :=
  match o.kind with
  | .gather l => needsLanes i l
  | _ => false

/-! ### One step of a stream -/

/-- The oldest operation of a class of the crew in focus goes on (R182). -/
def classGo (k : OpClass) (s : State) : Host.Outcome State Fault Refusal :=
  let key := s.crew.key
  match s.crew.ops.find? (fun o => o.cls == k && opLive o && !parkedPart o) with
  | some o => match o.kind with
    | .load _ _ _ _ | .laneLoad _ => execLoadReturn key s
    | .part _ _ _ _ _ _ => execSpPartComplete key s
    | .store _ => execStorePerformed key s
    | .amo _ | .vamo _ _ => execAmoExecute key s
    | .gather _ => execGatherComplete key s
    | _ => .next s
  | none => .next s

/-- The scalar instruction i of the crew in focus comes next: what it waits for first, then itself. -/
def scalarGo (i : Instr) (s : State) : Host.Outcome State Fault Refusal :=
  if s.crew.ops.any (needsAmo i) then classGo .store s
  else if s.crew.ops.any (fun o => needsLoad i o || needsPart i o) then classGo .load s
  else if scalarParity s i then .next (parityScalar s)
  else exec i s

/-- One step of the scalar stream of the crew in focus. -/
def scalarStep (s : State) : Host.Outcome State Fault Refusal :=
  if !scalarMay s then .next s
  else if trapFirst s then execDeferredTrap s.crew.key s
  else match fetchScalar s with
    | .error e => .next (haltScalar e s)
    | .ok (w0, w1) =>
      let t := noteFetch false s.crew.sc.pc (if isLong w0 then 8 else 4) s
      match decodeScalar w0 w1 with
      | some i => scalarGo i t
      | none => execIllegalInstruction false (w0.setWidth 96) t

/-- A gang comes to the head of the rotation; those before it go behind the others. -/
def toHead (g : Gang) (r : ARun) : ARun :=
  let before := r.gangs.takeWhile (fun h => h.members != g.members)
  { r with gangs := r.gangs.drop before.length ++ before }

/-- The lane instruction i of a gang at the head, of word v, comes next: what it waits for first, then itself. -/
noncomputable def laneGo (v : W96) (i : Instr) (r : ARun) (g : Gang) (s : State) : Host.Outcome State Fault Refusal :=
  if s.crew.ops.any isVamo then classGo .store s
  else if s.crew.ops.any (needsLaneLoad i) then classGo .load s
  else if s.crew.ops.any (needsGather i) then classGo .gather s
  else if laneParity s r g i then .next (parityLane v r g s)
  else exec i s

/-- One step of the lane stream of the crew in focus; again says whether a stalled instruction tries again. -/
noncomputable def laneStep (again : Bool) (s : State) : Host.Outcome State Fault Refusal :=
  match nextGang again s, curRun s.crew with
  | some g, some r =>
    if trapFirst s then execDeferredTrap s.crew.key s
    else
      let t := modRun (toHead g) s
      match laneWordAt t g.pc with
      | .error e => .next (haltLane e 0 g (lanesMask (maskLanes r g.members)) t)
      | .ok v =>
        let u := noteFetch true g.pc 12 t
        match decodeLane v with
        | some i => laneGo v i r g u
        | none => execIllegalInstruction true v u
  | _, _ => .next s

/-- One step of the scalar stream of a crew. -/
def scalarOf (k : CrewKey) (s : State) : Host.Outcome State Fault Refusal :=
  match focus k s with
  | some t => scalarStep t
  | none => .next s

/-- One step of the lane stream of a crew. -/
noncomputable def laneOfCrew (again : Bool) (k : CrewKey) (s : State) : Host.Outcome State Fault Refusal :=
  match focus k s with
  | some t => laneStep again t
  | none => .next s

/-- The state after an outcome, s where there is none. -/
def afterOr (s : State) (o : Host.Outcome State Fault Refusal) : State :=
  match o with
  | .next t => t
  | _ => s

/-! ### Turns of the schedule -/

/-- Device time per arithmetic-clock cycle, in units of 1/21 ns: 12 in P0, 15 in P1, 20 in P2 (R354). -/
def cycleTime (s : State) : Nat :=
  match s.dev.pstate with
  | 0 => 12
  | 1 => 15
  | _ => 20

/-- Cycles pass. In D3 the arithmetic clock stands while device time goes on (R357).
(DESIGN CHOICE, safe in part: notes/assumptions/5.md, DESIGN CHOICE, safe: notes/assumptions/39.md) -/
def passTime (n : Nat) (s : State) : State :=
  { s with fine := s.fine + n * cycleTime s, cycles := if s.dev.d3 then s.cycles else s.cycles + n }

/-- A core's lines are evicted, dirty bytes going home (R172), and with them the micro-programs that its cluster has
compiled (R270, R271). (DESIGN CHOICE, unsafe: notes/assumptions/8.md, DEDUCED, safe: notes/assumptions/44.md) -/
def evictLines (core : Nat) (s : State) : State :=
  let s1 := wbLines (fun l => l.core == core) true s
  { s1 with espalier := s1.espalier.filter (fun e => !(e.cluster == clusterOf core && e.compiled)) }

/-- The line of a number of a core leaves its caches, dirty bytes going home (R172).
(DESIGN CHOICE, unsafe: notes/assumptions/8.md) -/
def evictLine (core line : Nat) (s : State) : State := wbLines (fun l => l.core == core && l.line == line) true s

/-- The cache of a core that a kind of line stands in: the scalar and the lane instruction cache, and the L1 (R5). -/
def cacheOf (k : LineKind) : Nat :=
  match k with
  | .scode => 0
  | .lcode => 1
  | _ => 2

/-- The lines of a cache: 64 KiB, 192 KiB and 192 KiB (R5). -/
def cacheLines (c : Nat) : Nat := if c = 0 then 512 else 1536

/-- The lines that do not fit, of a list with the youngest first: those with as many younger ones in their cache as it
holds. (DESIGN CHOICE, unsafe: notes/assumptions/8.md) -/
def overLines : List L1Line → List L1Line → List L1Line
  | _, [] => []
  | kept, l :: r =>
    let mine := kept.filter (fun x => x.core == l.core && cacheOf x.kind == cacheOf l.kind)
    if cacheLines (cacheOf l.kind) ≤ mine.length then l :: overLines kept r else overLines (l :: kept) r

/-- A core's caches hold no more lines than R5 gives them: the oldest leave.
(DESIGN CHOICE, unsafe: notes/assumptions/8.md) -/
def fitLines (s : State) : State :=
  if s.l1.length ≤ 512 then s
  else
    let extra := overLines [] s.l1
    wbLines extra.contains true s

/-- The entries of a kind of translation cache (R280). -/
def tlbSize (k : HolderKind) : Nat :=
  match k with
  | .core => 256
  | .cluster => 8192
  | .copy | .gather | .matrix => 32
  | .ingress => 4096
  | .espalier => 8192

/-- The translations that do not fit, of a list with the youngest first. (DESIGN CHOICE, unsafe: notes/assumptions/9.md) -/
def overTlbs : List TlbEntry → List TlbEntry → List TlbEntry
  | _, [] => []
  | kept, e :: r =>
    let mine := kept.filter (fun x => x.kind == e.kind && x.unit == e.unit)
    if tlbSize e.kind ≤ mine.length then e :: overTlbs kept r else overTlbs (e :: kept) r

/-- A translation cache holds no more entries than R280 gives it: the oldest leave once no access under them is in flight.
(DESIGN CHOICE, unsafe: notes/assumptions/9.md) -/
def fitTlbs (s : State) : State :=
  if s.tlbs.length ≤ 32 then s
  else
    let extra := overTlbs [] s.tlbs.reverse
    { s with tlbs := s.tlbs.filter (fun e => !(extra.contains e && !e.stale && ackReady s e)) }

/-- What the caches do in every step: one core's lines are evicted in every 256th, each core's in turn, so that every store is
seen by every core within a bounded number of steps (R40), and what does not fit leaves (R5, R280).
A token that an abort has freed goes to its next holder, and operations that have waited for their turn alone complete (R182).
(DESIGN CHOICE, unsafe: notes/assumptions/8.md) -/
def upkeep (s : State) : State :=
  let s1 := offerTokens (mapCrews settleOps { s with sweep := s.sweep + 1 })
  fitTlbs (fitLines (if s1.sweep % 256 = 0 then evictLines (s1.sweep / 256 % 256) s1 else s1))

/-! ### The default schedule -/

/-- The crews that have not completed or have operations in flight, in the order of R11, those after the crew in focus
first (R40). (DESIGN CHOICE, safe in part: notes/assumptions/5.md) -/
def rotation (s : State) : List CrewKey :=
  let live := sortBy (fun a b => !keyLt b a) (((allCrews s).filter (fun c => c.status != .complete || !c.ops.isEmpty)).map (·.key))
  let k := s.crew.key
  live.filter (fun x => keyLt k x) ++ live.filter (fun x => !keyLt k x)

/-- A crew whose scalar stream issues a new instruction. -/
def freshScalar (s : State) : Bool := scalarMay s && s.crew.wait == .none
/-- A crew whose lane stream issues a new instruction. -/
def freshLane (s : State) : Bool := (nextGang false s).isSome

/-- The stream that issues next, if one can: lane streams first on beats 1, 4 and 7, scalar streams first on the others.
(DESIGN CHOICE, safe in part: notes/assumptions/5.md) -/
def nextIssue (s : State) : Option (CrewKey × Bool) :=
  let sc := ((rotation s).find? (fun k => atCrew k freshScalar s)).map (fun k => (k, false))
  let ln := ((rotation s).find? (fun k => atCrew k freshLane s)).map (fun k => (k, true))
  if s.beat % 3 = 1 then ln.or sc else sc.or ln

/-- The state whatever is in focus: its crews, teams and job slices in order. -/
def settled (s : State) : State :=
  { s with
    crew := Crew.reset, crews := sortBy (fun a b => !keyLt b.key a.key) (allCrews s)
    team := Team.reset, teams := sortBy (fun a b => decide (a.job < b.job ∨ (a.job = b.job ∧ a.idx ≤ b.idx))) (allTeams s)
    job := Job.reset, jobs := sortBy (fun a b => decide (a.take ≤ b.take)) (allJobs s) }

/-- The first of some steps that changes more than the focus. -/
def firstChange : List (State → State) → State → Option State
  | [], _ => none
  | f :: r, s =>
    let t := f s
    if settled t = settled s then firstChange r s else some t

/-- The step of a meaning that answers a next state. -/
def stepOf (f : State → Host.Outcome State Fault Refusal) (s : State) : State := afterOr s (f s)

/-- A stalled lane instruction tries again; a step that only turns the rotation is none. -/
noncomputable def laneRetry (k : CrewKey) (s : State) : State :=
  let t := afterOr s (laneOfCrew true k s)
  if atCrew k (fun u => decide (some (setRun none u) = (focus k s).map (setRun none))) t then s else t

/-- What a crew's operations and waits may do next. -/
noncomputable def crewSteps (k : CrewKey) : List (State → State) :=
  [execLoadReturn k, execGatherComplete k, execSpPartComplete k, execAmoExecute k, execStorePerformed k,
    execScatterPerformed k, execScatterAddApply k, execCopyComplete k, execCopyAbandon k 0x09, execCopyAbandon k 0x15].map stepOf ++
  [execCmoComplete k, execLaneRunComplete k, execWhetstoneDecide k, execFabricOpComplete k [], execSolveRecordFinished k,
    execVedgeDelivery k false, execVedgeDelivery k true, execDeferredTrap k, scalarOf k].map stepOf ++ [laneRetry k]

/-- What the engines of a core and its cluster may do next. -/
def coreSteps (core : Nat) : List (State → State) :=
  [execWeightLoadComplete core, execMatrixStep core, execMatZeroExecute core, execMatDrainExecute core,
    execSpTmulExecute core, execAccDeadlockBreak core, execEspalierCompile (clusterOf core),
    execEspalierCompileDone (clusterOf core)].map stepOf

/-- While a crew of its core waits for something, or an engine operation for a refill, the granules of a team that are absent
come back, and with the core's buffer full others go. -/
def granuleSteps (s : State) (t : Team) : List (State → State) :=
  match placeCore t.place with
  | none => []
  | some core =>
    let wanted := (coreCrews s core).any (fun c => c.wait == .other) || (engineOps s core).any (fun x => needsRefill s x.1 x.2.2)
    if !wanted then []
    else ((if decide (128 ≤ granulesOn s core) then (usedGranules s t).filter (fun g => !t.absent.contains g) else t.absent).map
      (execWeightGranuleRefill t.job t.idx)).map stepOf

/-- What may happen to a team. -/
def teamSteps (s : State) (t : Team) : List (State → State) :=
  let cores := match findJob s t.job with
    | some j => (List.range 8).filterMap (coreFor s (canHold s j t))
    | none => []
  ([execWalkerReclaim t.job t.idx, execSegmentSpillComplete t.job t.idx, execGraftMove t.job t.idx,
    execTeamContextSave t.job t.idx] ++ cores.map (execTeamRestore t.job t.idx) ++
    (List.range 8).map (execPlaceTeam t.job t.idx) ++ [execSchedulerPreempt t.job t.idx]).map stepOf ++ granuleSteps s t

/-- What may happen to a job slice. -/
def jobSteps (j : Job) : List (State → State) :=
  [execDeadlineMiss (.taken j.take), execBudgetExhausted j.take, execFlush j.take, execGridComplete j.take,
    execDigestCompute j.take, execCompletionWordStore j.take].map stepOf

/-- What may happen to the records of the queues. -/
def queueSteps (s : State) : List (State → State) :=
  s.queues.flatMap (fun p => (List.range p.2.recs.length).flatMap (fun i =>
    [stepOf (execDeadlineMiss (.queued p.1 i)), stepOf (execPrerequisiteRead p.1 i 0), stepOf (execPrerequisiteRead p.1 i 1)])) ++
  [stepOf execSchedulerTakeRecord]

/-- What the device may do beside. -/
def deviceSteps (s : State) : List (State → State) :=
  (((List.range s.tlbs.length).filter (fun i => s.tlbs[i]?.any (·.stale))).map execTranslationAck ++
    s.dev.answers.map (fun a => (if fld a.val 17 16 = 0 then execFrespRetry else execFrespFail) a.secure (a.val.getLsbD 18)
      (fld a.val 15 0)) ++ s.replicas.map (fun r => execPageCollapse r.master) ++ s.merges.map (fun m => execPageCollapse m.entryPa) ++
    s.bankRegs.map (fun p => execBankTransitionComplete (p.1 / 64) (p.1 % 64)) ++
    [execEventRecordWrite false, execEventRecordWrite true, execFaultRecordWrite false, execFaultRecordWrite true,
      execAttestationReportDone]).map stepOf

/-- A pending crew that would do something takes an active place (R314). -/
noncomputable def switchStep (out inn : CrewKey) (s : State) : State :=
  let t := afterOr s (execCrewSwitch out inn s)
  let would := atCrew inn (fun u => freshScalar u || freshLane u) t || (firstChange [stepOf (scalarOf inn), laneRetry inn] t).isSome
  if would then t else s

/-- Crews that are to leave the active set leave it; then exchanges of crews that share a core: the pending crew that has
retired least enters first (R40). (DESIGN CHOICE, safe in part: notes/assumptions/5.md) -/
noncomputable def switchSteps (s : State) : List (State → State) :=
  let live := sortBy (fun a b => decide (a.clock < b.clock ∨ (a.clock = b.clock ∧ keyLt b.key a.key = false)))
    ((allCrews s).filter (fun c => c.status != .complete))
  (live.filter (fun c => c.active && leaving c)).map (fun c => stepOf (execCrewSwitch c.key c.key)) ++
    (live.filter (fun c => !c.active)).flatMap (fun i => (live.filter (fun c => c.active)).map (fun o => switchStep o.key i.key) ++
      [switchStep i.key i.key])

/-- The device's own steps in the order the default schedule tries them: each third of the nine beats begins with another
kind, so that no kind holds up the others.
(DESIGN CHOICE, safe in part: notes/assumptions/5.md) -/
noncomputable def ownSteps (s : State) : List (State → State) :=
  let streams := (rotation s).flatMap crewSteps
  let device := ((allTeams s).filterMap (fun t => placeCore t.place)).eraseDups.flatMap coreSteps ++
    (allTeams s).flatMap (teamSteps s) ++ (allJobs s).flatMap jobSteps ++ queueSteps s ++ deviceSteps s
  match s.beat / 3 with
  | 0 => streams ++ device ++ switchSteps s
  | 1 => device ++ switchSteps s ++ streams
  | _ => switchSteps s ++ streams ++ device

/-- Issue from a stream. -/
noncomputable def issueFrom (x : CrewKey × Bool) (s : State) : Host.Outcome State Fault Refusal :=
  if x.2 then laneOfCrew false x.1 s else scalarOf x.1 s

/-- A step when the schedule names none: an issue on two beats of three, the device's own steps first on the third; where
one of the two has nothing to do, the other. (DESIGN CHOICE, safe in part: notes/assumptions/5.md) -/
noncomputable def defaultStep (s : State) : Host.Outcome State Fault Refusal :=
  let t := { s with beat := (s.beat + 1) % 9 }
  if s.beat % 3 = 2 then
    match firstChange (ownSteps s) t with
    | some u => .next u
    | none => match nextIssue s with
      | some x => issueFrom x t
      | none => .next t
  else match nextIssue s with
    | some x => issueFrom x t
    | none => .next ((firstChange (ownSteps s) t).getD t)

/-- A turn of the schedule. (DESIGN CHOICE, safe in part: notes/assumptions/5.md) -/
noncomputable def turnStep (x : Turn) (s : State) : Host.Outcome State Fault Refusal :=
  match x with
  | .event i => exec i s
  | .scalar k => scalarOf k s
  | .lane k => laneOfCrew (!atCrew k freshLane s) k s
  | .tick n => .next (passTime n s)
  | .evict core => .next (evictLines core s)
  | .evictLine core line => .next (evictLine core line s)

/-- A turn that a tripped module takes: a cold reset (R356). (DEDUCED, safe: notes/assumptions/40.md) -/
def isColdReset (x : Turn) : Bool :=
  match x with
  | .event (.coldReset _ _) => true
  | _ => false

end Sys2Proof.Machine
end

