-- ==== Sys2Proof/Machine/Place.lean ====
section
/-! DEFINITION. A machine that runs one given instruction next: a resident team of one crew, its page tables and its
code (notes/assumptions/6.md). -/

namespace Sys2Proof.Machine

/-- The virtual address of the placed instruction. -/
def codeVa : Nat := 0x1000
/-- The frame it lies in. -/
def codePa : Nat := 0x200000
/-- The frame of the root table; the tables of levels 1 to 4 follow it. -/
def tablePa : Nat := 0x100000

/-- An entry that points to the next table (R276). -/
def tableEntry (pa : Nat) : Nat := pa + 1
/-- A leaf that grants read, write and fetch (R276, R277). -/
def leafEntry (pa : Nat) : Nat := pa + 0x1F

/-- Put an 8-byte word into memory. -/
def putWord (pa v : Nat) (m : List Host.Cell) : List Host.Cell := smSetMany 0 m pa (natToBytes 8 v)

/-- Page tables that map the code page, and the bytes of the instruction with zeros after them.
(DESIGN CHOICE, unsafe: notes/assumptions/6.md) -/
def codeMem (bytes : List Byte) (m : List Host.Cell) : List Host.Cell :=
  let m1 := (List.range 4).foldl (fun x i => putWord (tablePa + 0x1000 * i) (tableEntry (tablePa + 0x1000 * (i + 1))) x) m
  let m2 := putWord (tablePa + 0x4000) 0 m1
  let m3 := putWord (tablePa + 0x4008) (leafEntry codePa) m2
  smSetMany 0 m3 codePa bytes

/-- The bytes of an instruction of nbits bits, zeros to 16 bytes: each word little-endian, the first word lowest (R42). -/
def codeBytes (nbits w : Nat) : List Byte := natToBytes 16 (w % 2 ^ nbits)

/-- The record of the team: one team of one crew of 32 lanes with every register and all the scratchpad.
(DESIGN CHOICE, unsafe: notes/assumptions/6.md) -/
def hostRec : Rec :=
  { Rec.zero with format := 1, gx := 1, gy := 1, gz := 1, crews := 1, slices := 8, regg := 16, spad := 768, cmpl := 5,
                  entry := BitVec.ofNat 64 codeVa }

/-- The name of the crew. -/
def hostKey : CrewKey := ⟨1, 0, 0⟩

/-- The crew about to issue its instruction: the scalar stream's first, or the first of a lane run.
(DESIGN CHOICE, unsafe: notes/assumptions/6.md) -/
def hostCrew (lane : Bool) : Crew :=
  { Crew.reset with
    key := hostKey
    status := .running
    active := true
    sc := { ScalarSt.reset with pc := BitVec.ofNat 64 codeVa }
    ln := { LaneSt.reset with
      cur := if lane then some (startRun 8 ⟨BitVec.ofNat 64 codeVa, [], 0, false, 0, 0, false, false⟩) else none
      nextSeq := if lane then 1 else 0 } }

/-- Its team, resident on core 0. (DESIGN CHOICE, unsafe: notes/assumptions/6.md) -/
def hostTeam : Team := { Team.reset with job := 1, idx := 0, place := .resident 0, started := true }

/-- Its job slice, taken from queue 0. (DESIGN CHOICE, unsafe: notes/assumptions/6.md) -/
def hostJob : Job :=
  { Job.reset with take := 1, rcd := hostRec, root := BitVec.ofNat 64 tablePa, budgetOwner := 1, phase := .running }

/-- A machine whose next step issues the instruction of nbits bits w.
(DESIGN CHOICE, unsafe: notes/assumptions/6.md) -/
def placeWord (s : State) (nbits w : Nat) : State :=
  { s with
    turns := []
    beat := if nbits = 96 then 1 else 0
    sweep := 0
    crew := hostCrew (nbits == 96)
    team := hostTeam
    job := hostJob
    crews := []
    teams := []
    jobs := []
    l1 := s.l1.filter (fun l => dataKind l.kind)
    mem := codeMem (codeBytes nbits w) s.mem
    dev := { s.dev with d3 := false, tripped := false } }

end Sys2Proof.Machine
end

