-- ==== Sys2Proof/Machine/Step.lean ====
section
/-! DEFINITION. One step of the machine, and the state whose next step runs a given instruction. -/

namespace Sys2Proof.Machine

/-- One step: what the caches do in every step, and then the next turn of the schedule, or the default schedule's when it is
empty. A tripped module takes no turn but a cold reset (R356).
(DESIGN CHOICE, safe in part: notes/assumptions/5.md, DEDUCED, safe: notes/assumptions/40.md) -/
noncomputable def step (s : State) : Host.Outcome State Fault Refusal :=
  match s.turns with
  | [] => if s.dev.tripped then .fault .tripped else defaultStep (upkeep s)
  | x :: r => if s.dev.tripped && !isColdReset x then .fault .tripped else turnStep x (upkeep { s with turns := r })

/-- The state that runs the instruction of nbits bits w next. (DESIGN CHOICE, unsafe: notes/assumptions/6.md) -/
def State.withFetchWord (s : State) (nbits w : Nat) : State := placeWord s nbits w

end Sys2Proof.Machine
end

