-- ==== Sys2Proof/Safety.lean ====
section
/-! DEFINITION. What counts as a sound state and a safe run. -/

namespace Sys2Proof.Machine

/-- Physical memory in canonical form: addresses strictly rising, no entry equal to the zero that an unlisted address
reads as. -/
def Memory.wf (m : List Host.Cell) : Bool := smWf 0 m

/-- The invariant that every step keeps: memory is canonical. -/
def State.sound (s : State) : Bool := Memory.wf s.mem

/-- A run of n steps that meets no stop. -/
noncomputable def SafeRun (n : Nat) (s : State) : Prop := ∃ t, Sys2Proof.core.run n s = .next t

end Sys2Proof.Machine
end

