-- ==== Sys2Proof/Certificates/Slice0/Obligations.lean ====
section
/-! DEFINITION. The statements for the provers, and the tables of results that they are stated with: each table gives the
result of an instruction in the words of the rule it cites, apart from the meanings under Machine. -/

open Sys2Proof Sys2Proof.Machine

namespace Sys2Proof.Expect

/-! ### Integer results (R78, R79, R84, R101) -/

/-- An exact integer clamped to n bits signed, with SAT when it changes (SatS of R84). -/
def satS {n : Nat} (x : Int) : BitVec n × Flags :=
  let lo : Int := (BitVec.intMin n).toInt
  let hi : Int := (BitVec.intMax n).toInt
  if x < lo then (BitVec.intMin n, fSAT) else if hi < x then (BitVec.intMax n, fSAT) else (BitVec.ofInt n x, 0)

/-- An exact integer clamped to n bits unsigned, with SAT when it changes (SatZ of R84). -/
def satZ {n : Nat} (x : Int) : BitVec n × Flags :=
  if x < 0 then (0, fSAT) else if ((2 ^ n - 1 : Nat) : Int) < x then (BitVec.allOnes n, fSAT) else (BitVec.ofInt n x, 0)

/-- Signed quotient toward zero; division by zero gives the extreme of the dividend's sign and IDZ (R78, R79). -/
def quotS {n : Nat} (a b : BitVec n) : BitVec n × Flags :=
  if b = 0 then (if a.msb then BitVec.intMin n else BitVec.intMax n, fIDZ) else (a.sdiv b, 0)

/-- Unsigned quotient (R79). -/
def quotZ {n : Nat} (a b : BitVec n) : BitVec n × Flags := if b = 0 then (BitVec.allOnes n, fIDZ) else (a.udiv b, 0)

/-- Signed remainder (R78, R79). -/
def remS {n : Nat} (a b : BitVec n) : BitVec n × Flags := if b = 0 then (a, fIDZ) else (a.srem b, 0)

/-- Unsigned remainder (R79). -/
def remZ {n : Nat} (a b : BitVec n) : BitVec n × Flags := if b = 0 then (a, fIDZ) else (a.umod b, 0)

/-- The number of one bits. -/
def ones {n : Nat} (a : BitVec n) : BitVec n := BitVec.ofNat n ((List.range n).countP (fun i => a.getLsbD i))
/-- The number of zero bits above the highest one bit; n for zero. -/
def zerosAbove {n : Nat} (a : BitVec n) : BitVec n :=
  BitVec.ofNat n ((List.range n).takeWhile (fun i => !a.getMsbD i)).length
/-- The number of zero bits below the lowest one bit; n for zero. -/
def zerosBelow {n : Nat} (a : BitVec n) : BitVec n :=
  BitVec.ofNat n ((List.range n).takeWhile (fun i => !a.getLsbD i)).length

/-- The integer operations of R101 on n bits. -/
inductive IntOp where
  | add | sub | mul | mulh | mulhz | div | divz | rem | remz | min | max | minz | maxz
  | addSat | subSat | addzSat | subzSat | and | or | xor | andn | shl | shr | sar | rol | popc | clz | ctz
  deriving DecidableEq, Repr

/-- The result of an operation before widening, and its flags (R101). -/
def IntOp.result {n : Nat} (a b : BitVec n) : IntOp → BitVec n × Flags
  | .add => (a + b, 0)
  | .sub => (a - b, 0)
  | .mul => (a * b, 0)
  | .mulh => ((a.signExtend (n + n) * b.signExtend (n + n)).extractLsb' n n, 0)
  | .mulhz => ((a.zeroExtend (n + n) * b.zeroExtend (n + n)).extractLsb' n n, 0)
  | .div => quotS a b
  | .divz => quotZ a b
  | .rem => remS a b
  | .remz => remZ a b
  | .min => (if a.sle b then a else b, 0)
  | .max => (if a.sle b then b else a, 0)
  | .minz => (if a.ule b then a else b, 0)
  | .maxz => (if a.ule b then b else a, 0)
  | .addSat => satS (a.toInt + b.toInt)
  | .subSat => satS (a.toInt - b.toInt)
  | .addzSat => satZ ((a.toNat : Int) + b.toNat)
  | .subzSat => satZ ((a.toNat : Int) - b.toNat)
  | .and => (a &&& b, 0)
  | .or => (a ||| b, 0)
  | .xor => (a ^^^ b, 0)
  | .andn => (a &&& ~~~b, 0)
  | .shl => (a <<< (b.toNat % n), 0)
  | .shr => (a >>> (b.toNat % n), 0)
  | .sar => (a.sshiftRight (b.toNat % n), 0)
  | .rol => (a.rotateLeft (b.toNat % n), 0)
  | .popc => (ones a, 0)
  | .clz => (zerosAbove a, 0)
  | .ctz => (zerosBelow a, 0)

/-- Whether a 32-bit result is sign-extended (column Ext of R101). -/
def IntOp.signed : IntOp → Bool
  | .mulhz | .divz | .remz | .minz | .maxz | .addzSat | .subzSat | .and | .or | .xor | .andn | .shr | .rol
  | .popc | .clz | .ctz => false
  | _ => true

/-- A 32-bit result as the register holds it. -/
def IntOp.ext (o : IntOp) (r : W32) : W64 := if o.signed then r.signExtend 64 else r.zeroExtend 64

/-- The operation of an ALU register instruction, whether it is a .w form, and its registers D, A, B (R101); the unary
forms name no B. -/
def intOp : Instr → Option (IntOp × Bool × BitVec 6 × BitVec 6 × BitVec 6)
  | .add d a b => some (.add, false, d, a, b)
  | .sub d a b => some (.sub, false, d, a, b)
  | .mul d a b => some (.mul, false, d, a, b)
  | .mulh d a b => some (.mulh, false, d, a, b)
  | .mulhz d a b => some (.mulhz, false, d, a, b)
  | .div d a b => some (.div, false, d, a, b)
  | .divz d a b => some (.divz, false, d, a, b)
  | .rem d a b => some (.rem, false, d, a, b)
  | .remz d a b => some (.remz, false, d, a, b)
  | .min d a b => some (.min, false, d, a, b)
  | .max d a b => some (.max, false, d, a, b)
  | .minz d a b => some (.minz, false, d, a, b)
  | .maxz d a b => some (.maxz, false, d, a, b)
  | .addSat d a b => some (.addSat, false, d, a, b)
  | .subSat d a b => some (.subSat, false, d, a, b)
  | .addzSat d a b => some (.addzSat, false, d, a, b)
  | .subzSat d a b => some (.subzSat, false, d, a, b)
  | .and d a b => some (.and, false, d, a, b)
  | .or d a b => some (.or, false, d, a, b)
  | .xor d a b => some (.xor, false, d, a, b)
  | .andn d a b => some (.andn, false, d, a, b)
  | .shl d a b => some (.shl, false, d, a, b)
  | .shr d a b => some (.shr, false, d, a, b)
  | .sar d a b => some (.sar, false, d, a, b)
  | .rol d a b => some (.rol, false, d, a, b)
  | .popc d a => some (.popc, false, d, a, 0)
  | .clz d a => some (.clz, false, d, a, 0)
  | .ctz d a => some (.ctz, false, d, a, 0)
  | .addW d a b => some (.add, true, d, a, b)
  | .subW d a b => some (.sub, true, d, a, b)
  | .mulW d a b => some (.mul, true, d, a, b)
  | .mulhW d a b => some (.mulh, true, d, a, b)
  | .mulhzW d a b => some (.mulhz, true, d, a, b)
  | .divW d a b => some (.div, true, d, a, b)
  | .divzW d a b => some (.divz, true, d, a, b)
  | .remW d a b => some (.rem, true, d, a, b)
  | .remzW d a b => some (.remz, true, d, a, b)
  | .minW d a b => some (.min, true, d, a, b)
  | .maxW d a b => some (.max, true, d, a, b)
  | .minzW d a b => some (.minz, true, d, a, b)
  | .maxzW d a b => some (.maxz, true, d, a, b)
  | .addSatW d a b => some (.addSat, true, d, a, b)
  | .subSatW d a b => some (.subSat, true, d, a, b)
  | .addzSatW d a b => some (.addzSat, true, d, a, b)
  | .subzSatW d a b => some (.subzSat, true, d, a, b)
  | .andW d a b => some (.and, true, d, a, b)
  | .orW d a b => some (.or, true, d, a, b)
  | .xorW d a b => some (.xor, true, d, a, b)
  | .andnW d a b => some (.andn, true, d, a, b)
  | .shlW d a b => some (.shl, true, d, a, b)
  | .shrW d a b => some (.shr, true, d, a, b)
  | .sarW d a b => some (.sar, true, d, a, b)
  | .rolW d a b => some (.rol, true, d, a, b)
  | .popcW d a => some (.popc, true, d, a, 0)
  | .clzW d a => some (.clz, true, d, a, 0)
  | .ctzW d a => some (.ctz, true, d, a, 0)
  | _ => none

/-! ### Floating results (R99, R102) -/

/-- A register read as binary64. -/
def f64 (s : State) (r : BitVec 6) : Nat := (rdS s r.toNat).toNat
/-- The low word of a register read as binary32. -/
def f32 (s : State) (r : BitVec 6) : Nat := (rdS s r.toNat).toNat % 2 ^ 32
/-- A register read as s64. -/
def i64 (s : State) (r : BitVec 6) : Int := (rdS s r.toNat).toInt
/-- A converted integer as a register holds it. -/
def intBits (r : Int × Flags) : Nat × Flags := ((BitVec.ofInt 64 r.1).toNat, r.2)

/-- The floating operations of the ALU register group: destination, encoding of the result, and flags (R102). Arithmetic
rounds by the crew default mode. -/
def floatOp (s : State) : Instr → Option (BitVec 6 × Nat × Flags)
  | .faddF64 d a b => some (d, fAdd fmtF64 (rmDef s) (f64 s a) (f64 s b))
  | .fsubF64 d a b => some (d, fSub fmtF64 (rmDef s) (f64 s a) (f64 s b))
  | .fmulF64 d a b => some (d, fMul fmtF64 (rmDef s) (f64 s a) (f64 s b))
  | .fdivF64 d a b => some (d, fDiv fmtF64 (rmDef s) (f64 s a) (f64 s b))
  | .fsqrtF64 d a => some (d, fSqrt fmtF64 (rmDef s) (f64 s a))
  | .fminF64 d a b => some (d, fMinMax fmtF64 false (f64 s a) (f64 s b))
  | .fmaxF64 d a b => some (d, fMinMax fmtF64 true (f64 s a) (f64 s b))
  | .ffmaF64 d a b => some (d, fFma fmtF64 (rmDef s) (f64 s a) (f64 s b) (f64 s d))
  | .fcvtF64S64 d a => some (d, fOfInt fmtF64 (rmDef s) (i64 s a))
  | .fcvtF64Z64 d a => some (d, fOfInt fmtF64 (rmDef s) (f64 s a : Int))
  | .fcvtS64F64 d a => some (d, intBits (fToInt (rmDef s) (-2 ^ 63) (2 ^ 63 - 1) (exOf fmtF64 (f64 s a))))
  | .fcvtZ64F64 d a => some (d, intBits (fToInt (rmDef s) 0 (2 ^ 64 - 1) (exOf fmtF64 (f64 s a))))
  | .fcvtF64F32 d a => some (d, fCvt fmtF32 fmtF64 (rmDef s) (f32 s a))
  | .fabsF64 d a => some (d, f64 s a % 2 ^ 63, 0)
  | .fnegF64 d a => some (d, f64 s a ^^^ 2 ^ 63, 0)
  | .faddF32 d a b => some (d, fAdd fmtF32 (rmDef s) (f32 s a) (f32 s b))
  | .fsubF32 d a b => some (d, fSub fmtF32 (rmDef s) (f32 s a) (f32 s b))
  | .fmulF32 d a b => some (d, fMul fmtF32 (rmDef s) (f32 s a) (f32 s b))
  | .fdivF32 d a b => some (d, fDiv fmtF32 (rmDef s) (f32 s a) (f32 s b))
  | .fsqrtF32 d a => some (d, fSqrt fmtF32 (rmDef s) (f32 s a))
  | .fminF32 d a b => some (d, fMinMax fmtF32 false (f32 s a) (f32 s b))
  | .fmaxF32 d a b => some (d, fMinMax fmtF32 true (f32 s a) (f32 s b))
  | .ffmaF32 d a b => some (d, fFma fmtF32 (rmDef s) (f32 s a) (f32 s b) (f32 s d))
  | .fcvtF32S64 d a => some (d, fOfInt fmtF32 (rmDef s) (i64 s a))
  | .fcvtF32Z64 d a => some (d, fOfInt fmtF32 (rmDef s) (f64 s a : Int))
  | .fcvtS64F32 d a => some (d, intBits (fToInt (rmDef s) (-2 ^ 63) (2 ^ 63 - 1) (exOf fmtF32 (f32 s a))))
  | .fcvtZ64F32 d a => some (d, intBits (fToInt (rmDef s) 0 (2 ^ 64 - 1) (exOf fmtF32 (f32 s a))))
  | .fcvtF32F64 d a => some (d, fCvt fmtF64 fmtF32 (rmDef s) (f64 s a))
  | .fabsF32 d a => some (d, f32 s a % 2 ^ 31, 0)
  | .fnegF32 d a => some (d, f32 s a ^^^ 2 ^ 31, 0)
  | _ => none

/-! ### Immediates, constants, compares, predicates (R103 to R106) -/

/-- The immediate operations and constants: destination, value and length in bytes (R103, R104). -/
def immOp (s : State) : Instr → Option (BitVec 6 × W64 × W64)
  | .addi d a i => some (d, rdS s a.toNat + i.signExtend 64, 4)
  | .andi d a i => some (d, rdS s a.toNat &&& i.signExtend 64, 4)
  | .ori d a i => some (d, rdS s a.toNat ||| i.zeroExtend 64, 4)
  | .xori d a i => some (d, rdS s a.toNat ^^^ i.zeroExtend 64, 4)
  | .shli d a n => some (d, rdS s a.toNat <<< n.toNat, 4)
  | .shri d a n => some (d, rdS s a.toNat >>> n.toNat, 4)
  | .sari d a n => some (d, (rdS s a.toNat).sshiftRight n.toNat, 4)
  | .roli d a n => some (d, (rdS s a.toNat).rotateLeft n.toNat, 4)
  | .shliW d a n => some (d, (((rdS s a.toNat).setWidth 32) <<< n.toNat).signExtend 64, 4)
  | .shriW d a n => some (d, (((rdS s a.toNat).setWidth 32) >>> n.toNat).zeroExtend 64, 4)
  | .sariW d a n => some (d, (((rdS s a.toNat).setWidth 32).sshiftRight n.toNat).signExtend 64, 4)
  | .roliW d a n => some (d, (((rdS s a.toNat).setWidth 32).rotateLeft n.toNat).zeroExtend 64, 4)
  | .li d i => some (d, i.signExtend 64, 4)
  | .liW d i => some (d, i.signExtend 64, 8)
  | .liWz d i => some (d, i.zeroExtend 64, 8)
  | .liWh d i => some (d, i ++ (rdS s d.toNat).extractLsb' 0 32, 8)
  | _ => none

/-- The integer tests of R105. -/
def intTest (c : BitVec 4) (a b : W64) : Bool :=
  match c.toNat with
  | 0 => decide (a = b)
  | 1 => decide (a ≠ b)
  | 2 => decide (a.toInt < b.toInt)
  | 3 => decide (a.toInt ≤ b.toInt)
  | 4 => decide (b.toInt < a.toInt)
  | 5 => decide (b.toInt ≤ a.toInt)
  | 6 => decide (a.toNat < b.toNat)
  | 7 => decide (a.toNat ≤ b.toNat)
  | 8 => decide (b.toNat < a.toNat)
  | 9 => decide (b.toNat ≤ a.toNat)
  | 10 => decide (a &&& b ≠ 0)
  | _ => decide (a &&& b = 0)

/-- The second operand of cmpi (R105). -/
def cmpiOperand (c : BitVec 4) (i : BitVec 10) : W64 :=
  if c = 6 ∨ c = 7 ∨ c = 8 ∨ c = 9 then i.zeroExtend 64 else i.signExtend 64

/-- The compares and the predicate logic that write a predicate: its name, the test, and flags (R105, R106). -/
def predOp (s : State) : Instr → Option (BitVec 4 × Bool × Flags)
  | .cmp d a b c => some (d, intTest c (rdS s a.toNat) (rdS s b.toNat), 0)
  | .cmpi d a c i => some (d, intTest c (rdS s a.toNat) (cmpiOperand c i), 0)
  | .cmpF64 d a b c => some (d, fCmp fmtF64 c.toNat (f64 s a) (f64 s b))
  | .cmpF32 d a b c => some (d, fCmp fmtF32 c.toNat (f32 s a) (f32 s b))
  | .predAnd d a b => some (d, rdC s a.toNat && rdC s b.toNat, 0)
  | .predOr d a b => some (d, rdC s a.toNat || rdC s b.toNat, 0)
  | .predXor d a b => some (d, rdC s a.toNat ^^ rdC s b.toNat, 0)
  | .predAndn d a b => some (d, rdC s a.toNat && !rdC s b.toNat, 0)
  | .predOrn d a b => some (d, rdC s a.toNat || !rdC s b.toNat, 0)
  | .predNand d a b => some (d, !(rdC s a.toNat && rdC s b.toNat), 0)
  | .predNor d a b => some (d, !(rdC s a.toNat || rdC s b.toNat), 0)
  | .predXnor d a b => some (d, !(rdC s a.toNat ^^ rdC s b.toNat), 0)
  | .predMov d a => some (d, rdC s a.toNat, 0)
  | .predNot d a => some (d, !rdC s a.toNat, 0)
  | .predSet d => some (d, true, 0)
  | .predClr d => some (d, false, 0)
  | .predNz d a => some (d, decide (rdS s a.toNat ≠ 0), 0)
  | _ => none

/-! ### Control transfer (R107 to R109) -/

/-- A conditional transfer is taken: cC XOR N. -/
def goes (s : State) (c : BitVec 4) (n : BitVec 1) : Bool := rdC s c.toNat ^^ decide (n = 1)

/-- Where the register transfers go, and the link register they write with the address after them (R108); registers
are read before the link is written. -/
def transfer (s : State) : Instr → Option (Option (BitVec 6) × W64)
  | .jr a n c => some (none, if goes s c n then rdS s a.toNat else s.crew.sc.pc + 4)
  | .ret n c => some (none, if goes s c n then rdS s 63 else s.crew.sc.pc + 4)
  | .calli d a n c => some (if goes s c n then some d else none,
      if goes s c n then rdS s a.toNat else s.crew.sc.pc + 4)
  | _ => none

/-- The register target of a transfer that is taken (R108). -/
def target (s : State) : Instr → Option W64
  | .jr a n c => if goes s c n then some (rdS s a.toNat) else none
  | .ret n c => if goes s c n then some (rdS s 63) else none
  | .calli _ a n c => if goes s c n then some (rdS s a.toNat) else none
  | _ => none

/-- A code address in the apertures 0x0 to 0x2 with bits [59:56] zero (R42). -/
def inCode (p : W64) : Bool := decide ((p >>> 60).toNat ≤ 2) && decide (p.extractLsb' 56 4 = 0)

/-- An aligned code address (R42). -/
def onWord (p : W64) : Bool := decide (p.extractLsb' 0 2 = 0)

/-- Write a link register with the address after the instruction. -/
def link (r : Option (BitVec 6)) (s : State) : State :=
  match r with
  | some d => wrS d.toNat (s.crew.sc.pc + 4) s
  | none => s

/-- A one-word scalar instruction that is done: the machine as its effect leaves it, the next word next, one instruction
retired. -/
def goesOn (s t : State) : Host.Outcome State Fault Refusal := .next (finish (s.crew.sc.pc + 4) t)

/-- A scalar instruction that traps with a cause and trap.info, precisely; outside deterministic mode its issue slot is
charged (R308). -/
def traps (s : State) (cause : Nat) (info : W64) : Host.Outcome State Fault Refusal :=
  .next (trapScalar cause info s.crew.sc.pc (useSlot s))

/-- A scalar instruction that waits: nothing but the wait is noted, and the stream stays at the instruction. -/
def waits (s : State) (w : Wait) : Host.Outcome State Fault Refusal := .next { s with crew := { s.crew with wait := w } }

end Sys2Proof.Expect

/-! ## The scalar stream -/

/-- R101, R78, R79, R84: every integer operation of the ALU register group, on all operand values, writes the result of
the table into sD, widened as its Ext column says, ORs its flags into astat, and goes on at the next word. -/
def Obligations.IntegerOperations : Prop :=
  ∀ (s : State) (i : Instr) (o : Expect.IntOp) (w : Bool) (d a b : BitVec 6),
    Expect.intOp i = some (o, w, d, a, b) → liveIn s d.toNat = false →
    exec i s = .next (finish (s.crew.sc.pc + 4)
      (if w then
        addFlags (o.result ((rdS s a.toNat).setWidth 32) ((rdS s b.toNat).setWidth 32)).2
          (wrS d.toNat (o.ext (o.result ((rdS s a.toNat).setWidth 32) ((rdS s b.toNat).setWidth 32)).1) s)
      else
        addFlags (o.result (rdS s a.toNat) (rdS s b.toNat)).2
          (wrS d.toNat (o.result (rdS s a.toNat) (rdS s b.toNat)).1 s)))

/-- R99, R102: every scalar floating operation rounds by the crew default mode in force, writes its result into sD, a
binary32 one zero-extended, ORs its flags into astat, and goes on at the next word. -/
def Obligations.FloatOperations : Prop :=
  ∀ (s : State) (i : Instr) (d : BitVec 6) (v : Nat) (f : Flags),
    Expect.floatOp s i = some (d, v, f) → liveIn s d.toNat = false →
    exec i s = .next (finish (s.crew.sc.pc + 4) (addFlags f (wrS d.toNat (BitVec.ofNat 64 v) s)))

/-- R83, R80, R81: a code that stands for a number is what RoundTo gives for that number, in every format and rounding
mode, and no flag is raised. -/
def Obligations.RepresentableValuesRoundToThemselves : Prop :=
  ∀ (f : Fmt), f ∈ [fmtF64, fmtF32, fmtF16, fmtBf16, fmtF8a, fmtF8b] → ∀ (rm : Rm) (code : Nat),
    code < 2 ^ (1 + f.e + f.m) → isNanC f code = false → roundTo f rm (exOf f code) = (code, 0)

/-- R103, R104: every immediate operation and constant writes its value into sD, raises no flag, and goes on after its
own words. R105, R106: every compare and every predicate operation that writes a predicate writes its test into cD; a
floating compare ORs its flags into astat. pred.get writes 1 or 0 into its register. -/
def Obligations.ImmediatesAndPredicates : Prop :=
  (∀ (s : State) (i : Instr) (d : BitVec 6) (v len : W64),
    Expect.immOp s i = some (d, v, len) → liveIn s d.toNat = false →
    exec i s = .next (finish (s.crew.sc.pc + len) (wrS d.toNat v s))) ∧
  ((∀ (s : State) (i : Instr) (d : BitVec 4) (v : Bool) (f : Flags), Expect.predOp s i = some (d, v, f) →
    exec i s = .next (finish (s.crew.sc.pc + 4) (addFlags f (wrC d.toNat v s)))) ∧
  (∀ (s : State) (d : BitVec 6) (a : BitVec 4), liveIn s d.toNat = false →
    exec (.predGet d a) s = .next (finish (s.crew.sc.pc + 4) (wrS d.toNat (if rdC s a.toNat then 1 else 0) s))))

/-- R108, R42: jr, ret and calli with a predicate that holds go to the register's value as it stood before the link was
written, and calli writes its link; with one that does not, they do nothing. A target outside the apertures 0x0 to 0x2, or
with a bit in [59:56], traps 0x06, and then one with bits [1:0] non-zero traps 0x07, each with the target in trap.info, the
address of the transfer in trap.pc, and no link written. -/
def Obligations.RegisterTransfers : Prop :=
  (∀ (s : State) (i : Instr) (r : Option (BitVec 6)) (pc : W64),
    Expect.transfer s i = some (r, pc) →
    (∀ p, Expect.target s i = some p → Expect.inCode p = true ∧ Expect.onWord p = true) →
    (∀ d, r = some d → liveIn s d.toNat = false) → exec i s = .next (finish pc (Expect.link r s))) ∧
  (∀ (s : State) (i : Instr) (p : W64), Expect.target s i = some p →
    (Expect.inCode p = false → exec i s = Expect.traps s 0x06 p) ∧
    (Expect.inCode p = true → Expect.onWord p = false → exec i s = Expect.traps s 0x07 p))

/-- R107: bra and call in SB format. A word of OP 0x0B or 0x0C is the branch of its C, N and OFF fields. When cC XOR N
holds, a call writes s63 with the address after it, and the stream goes to pc + 4 × Sext(OFF, 21); otherwise it goes on at
the next word and nothing is written. bra !c0 is never taken. A call in a region that declared s63 is not meant here. -/
def Obligations.BranchAndCall : Prop :=
  (∀ (c : BitVec 4) (n : BitVec 1) (o : BitVec 21) (w : W32),
    decodeScalar (0x0B#6 ++ c ++ n ++ o) w = some (.bra c n o) ∧ decodeScalar (0x0C#6 ++ c ++ n ++ o) w = some (.call c n o)) ∧
  (∀ (s : State) (c : BitVec 4) (n : BitVec 1) (o : BitVec 21), (rdC s c.toNat ^^ decide (n = 1)) = true →
    exec (.bra c n o) s = .next (finish (s.crew.sc.pc + 4 * o.signExtend 64) s) ∧
    (liveIn s 63 = false →
      exec (.call c n o) s = .next (finish (s.crew.sc.pc + 4 * o.signExtend 64) (wrS 63 (s.crew.sc.pc + 4) s)))) ∧
  (∀ (s : State) (c : BitVec 4) (n : BitVec 1) (o : BitVec 21), (rdC s c.toNat ^^ decide (n = 1)) = false →
    exec (.bra c n o) s = .next (finish (s.crew.sc.pc + 4) s) ∧
    exec (.call c n o) s = .next (finish (s.crew.sc.pc + 4) s)) ∧
  (∀ (s : State) (o : BitVec 21), exec (.bra 0 1 o) s = .next (finish (s.crew.sc.pc + 4) s))

/-- R109: loop in SI format with OP 0x0E and A zero. It subtracts one modulo 2^64 and goes to pc + 4 × Sext(IMM, 14) unless
the result is zero; then it goes on at the next word. A count of 0 becomes 2^64 - 1 and the branch is taken. A word with
another A is illegal. A loop in a region that declared sD is not meant here. -/
def Obligations.LoopCounts : Prop :=
  (∀ (d a : BitVec 6) (i : BitVec 14) (w : W32),
    decodeScalar (0x0E#6 ++ d ++ a ++ i) w = if a = 0 then some (.loop d i) else none) ∧
  (∀ (s : State) (d : BitVec 6) (i : BitVec 14), liveIn s d.toNat = false →
    (rdS s d.toNat ≠ 1 → exec (.loop d i) s =
      .next (finish (s.crew.sc.pc + 4 * i.signExtend 64) (wrS d.toNat (rdS s d.toNat - 1) s))) ∧
    (rdS s d.toNat = 1 → exec (.loop d i) s = .next (finish (s.crew.sc.pc + 4) (wrS d.toNat 0 s))) ∧
    (rdS s d.toNat = 0 → exec (.loop d i) s =
      .next (finish (s.crew.sc.pc + 4 * i.signExtend 64) (wrS d.toNat 0xFFFFFFFFFFFFFFFF s))))

namespace Sys2Proof.Expect

/-- The readable selectors of R115 and what each holds for the crew in focus. -/
def selector (s : State) : Nat → Option W64
  | 0x00 => some (BitVec.ofNat 64 (if isDet s then s.crew.clock else s.cycles - s.crew.entryCycle))
  | 0x01 => some (if isDet s then 0 else BitVec.ofNat 64 (devTime s))
  | 0x02 => some (s.crew.sc.astat.zeroExtend 64)
  | 0x03 => some (BitVec.ofNat 64 (s.crew.sc.rmdef + if s.crew.sc.fmte then 8 else 0))
  | 0x04 => some s.crew.sc.rseed
  | 0x05 => some (match budgetLeft s s.job with
      | some n => BitVec.ofNat 64 n
      | none => 0xFFFFFFFFFFFFFFFF)
  | 0x06 => some (if isDet s then 0 else BitVec.ofNat 64 s.job.deadline)
  | 0x07 => some (BitVec.ofNat 64 s.job.rcd.depth)
  | 0x08 => some (BitVec.ofNat 64 s.job.queue)
  | 0x09 => some s.job.rcd.doneseq
  | 0x0A => some (BitVec.ofNat 64 (s.job.rcd.gx + 2 ^ 32 * s.job.rcd.gy + 2 ^ 48 * s.job.rcd.gz))
  | 0x0B => some (BitVec.ofNat 64
      (s.job.rcd.crews + 2 ^ 8 * (4 * s.job.rcd.slices) + 2 ^ 16 * s.job.rcd.regg + 2 ^ 24 * s.job.rcd.accb))
  | 0x10 => some s.crew.sc.trap.cause
  | 0x11 => some s.crew.sc.trap.pc
  | 0x12 => some s.crew.sc.trap.lpc
  | 0x13 => some s.crew.sc.trap.mask
  | 0x14 => some s.crew.sc.trap.info
  | _ => none

/-- What a write of a selector leaves in the scalar stream (R85, R115, R116). -/
def selectorWrite (v : W64) (c : ScalarSt) : Nat → Option ScalarSt
  | 0x02 => some { c with astat := v.extractLsb' 0 10 }
  | 0x03 => some { c with
      fmte := v.getLsbD 3
      rmdef := if (v.extractLsb' 0 3).toNat ≤ 4 then (v.extractLsb' 0 3).toNat else c.rmdef }
  | 0x04 => some { c with rseed := v }
  | 0x10 => some { c with trap := { c.trap with cause := v } }
  | 0x11 => some { c with trap := { c.trap with pc := v } }
  | 0x12 => some { c with trap := { c.trap with lpc := v } }
  | _ => none

/-- Where a run is to begin, and the length of the instruction that enqueues it (R110). -/
def runTarget (s : State) : Instr → Option (W64 × W64)
  | .lrun i => some (s.crew.sc.pc + 4 * i.signExtend 64, 4)
  | .lrunFar i => some (s.crew.sc.pc + i.signExtend 64, 8)
  | .lrunFarReg a i => some (rdS s a.toNat + i.signExtend 64, 8)
  | _ => none

/-- The run that R110 enqueues now. -/
def newRun (s : State) (target : W64) : QRun where
  target := target
  snaps := s.crew.sc.snaps
  rm := s.crew.sc.rmdef
  fmte := s.crew.sc.fmte
  rseed := s.crew.sc.rseed
  seq := s.crew.ln.nextSeq
  handler := false
  region := s.crew.region.isSome

/-- The engine class that R27 makes an instruction depend on. -/
def engineClass : Instr → Option EngClass
  | .lrun _ | .lrunFar _ | .lrunFarReg _ _ => some .lanes
  | .cpIssue _ _ | .cpIssueBar _ _ _ | .cpIssueRing _ _ | .cpYield _ _ => some .copy
  | .matWload _ _ | .mloop _ _ _ _ _ _ | .matZeroFx _ _ | .matZeroFp _ | .matDrain _ _ _ => some .matrix
  | .spTload _ _ | .spTstat _ _ | .spPart _ _ _ | .spTmul _ _ _ _ => some .spt
  | .svLu _ | .svChol _ | .svTrs _ | .svRef _ | .svStat _ => some .solve
  | _ => none

/-- The crew in focus can take a trap: it has a usable handler and is not in it. -/
def canTrap (s : State) : Prop :=
  s.job.rcd.handler ≠ 0 ∧ codeBad s.job.rcd.handler = false ∧ s.crew.handler = none

/-- Nothing that a trap entry would first deliver, take or wait for: no returning value, no solve command, no pending
deferred trap (R97, R341, R370). -/
def quiet (s : State) : Prop :=
  s.crew.ptraps = [] ∧ returnsOut s.crew = false ∧ ∀ o ∈ s.crew.ops, (match o.kind with
    | .load _ _ _ _ => false
    | _ => true) = true

/-- The crew in focus has its team and its job slice in focus with it. -/
def inFocus (s : State) : Prop :=
  s.team.job = s.crew.key.job ∧ s.team.idx = s.crew.key.team ∧ s.job.take = s.crew.key.job

end Sys2Proof.Expect

/-- R110, R111: lrun and lrun.far in a crew whose role may use the lanes, with an aligned target in code and room in the
queue, enqueue a run that begins at the target and records the snapshot slots, the rounding mode and the seed as they stand,
and actl.FMTE (R116), which R110 does not name: that is the model's choice (log entry 10). It waits behind a run in execution;
with none it begins at once, every slice live and unmasked, standing at the target as one gang, and all latches are invalid.
R112, R113: lsnap writes one slot or two and nothing else; lwait and lwait.le complete once at most their number of runs is
enqueued or executing, and deliver the flags of the complete runs they cover into astat. -/
def Obligations.LaneRuns : Prop :=
  (∀ (s : State) (i : Instr) (target len : W64), Expect.runTarget s i = some (target, len) →
    roleMay (roleOf s) .lanes = true → Expect.inCode target = true → Expect.onWord target = true → s.crew.handler = none →
    (∀ r, s.crew.ln.cur = some r → s.crew.ln.queue.length < 15 →
      exec i s = .next (finish (s.crew.sc.pc + len) (onLn (fun l =>
        { l with queue := l.queue ++ [Expect.newRun s target], nextSeq := l.nextSeq + 1 }) s))) ∧
    (s.crew.ln.cur = none → s.crew.ln.queue = [] →
      exec i s = .next (finish (s.crew.sc.pc + len) (dropLatches (onLn (fun l =>
        { l with
          cur := some ⟨Expect.newRun s target, [⟨target, List.range s.job.rcd.slices, .ready⟩],
            List.replicate s.job.rcd.slices ⟨0b1111, [], true⟩, 0, false⟩
          nextSeq := l.nextSeq + 1 }) s))))) ∧
  ((∀ (s : State) (a : BitVec 6) (k : BitVec 4), exec (.lsnap a k) s =
    .next (finish (s.crew.sc.pc + 4)
      (onSc (fun c => { c with snaps := smSet 0 c.snaps k.toNat (rdS s a.toNat) }) s))) ∧
  (∀ (s : State) (a b : BitVec 6) (k : BitVec 4), exec (.lsnapPair a b k) s =
    .next (finish (s.crew.sc.pc + 4) (onSc (fun c => { c with
      snaps := smSet 0 (smSet 0 c.snaps k.toNat (rdS s a.toNat)) (k.toNat + 1) (rdS s b.toNat) }) s))) ∧
  (∀ (s : State), runsOut s.crew = 0 → exec .lwait s = .next (finish (s.crew.sc.pc + 4) (deliverFlags 0 s))) ∧
  (∀ (s : State) (n : BitVec 4), runsOut s.crew ≤ n.toNat →
    exec (.lwaitLe n) s = .next (finish (s.crew.sc.pc + 4) (deliverFlags n.toNat s))) ∧
  (∀ (s : State) (n : BitVec 4), n.toNat < runsOut s.crew →
    exec (.lwaitLe n) s = .next { s with crew := { s.crew with wait := .lanes } }))

/-- R114 to R116: xrd reads every selector of the table into sD; xwr writes every writable one and changes nothing else.
R117, R119: nop has no effect but its own retirement; yield has none either in deterministic mode or while no ready crew
is pending, and otherwise offers the crew's issue slot. -/
def Obligations.SpecialRegisters : Prop :=
  ((∀ (s : State) (d : BitVec 6) (sel : BitVec 14) (v : W64), Expect.selector s sel.toNat = some v →
    liveIn s d.toNat = false → exec (.xrd d sel) s = .next (finish (s.crew.sc.pc + 4) (wrS d.toNat v s))) ∧
  (∀ (s : State) (a : BitVec 6) (sel : BitVec 14) (c : ScalarSt),
    Expect.selectorWrite (rdS s a.toNat) s.crew.sc sel.toNat = some c →
    exec (.xwr a sel) s = .next (finish (s.crew.sc.pc + 4) (onSc (fun _ => c) s)))) ∧
  ((∀ s : State, exec .nop s = .next (finish (s.crew.sc.pc + 4) s)) ∧
  (∀ s : State, isDet s = true ∨ pendingReady s = false → exec .yield s = .next (finish (s.crew.sc.pc + 4) s)) ∧
  (∀ s : State, isDet s = false → pendingReady s = true →
    exec .yield s = .next (finish (s.crew.sc.pc + 4) { s with crew := { s.crew with offered := true } })))

/-- R118, R291, R292: trap and brk complete and then enter the handler: the instruction retires, the stream goes to the
handler's address, trap.cause is the code (0x18 for brk), trap.pc the address of the following instruction, trap.lpc,
trap.mask and trap.info are zero, and registers and predicates are as they were. R27, R98: an instruction of an engine
class that the crew's role may not use traps 0x13 with the role in trap.info, and has no other effect. -/
def Obligations.TrapsByInstruction : Prop :=
  (∀ (s : State) (i : Instr) (cause : Nat), Expect.canTrap s → Expect.quiet s →
    ((∃ c : BitVec 8, i = .trap c ∧ cause = c.toNat) ∨ (i = .brk ∧ cause = 0x18)) →
    ∃ t, exec i s = .next t ∧ t.crew.sc.pc = s.job.rcd.handler ∧
      t.crew.sc.trap = ⟨BitVec.ofNat 64 cause, s.crew.sc.pc + 4, 0, 0, 0⟩ ∧
      t.crew.handler = some ⟨[], false⟩ ∧ t.crew.sc.regs = s.crew.sc.regs ∧ t.crew.sc.preds = s.crew.sc.preds ∧
      t.crew.clock = s.crew.clock + 1 ∧ t.crew.ln.regs.latches = [] ∧ t.mem = s.mem) ∧
  (∀ (s : State) (i : Instr) (k : EngClass), Expect.engineClass i = some k → roleMay (roleOf s) k = false →
    exec i s = Expect.traps s 0x13 (BitVec.ofNat 64 (roleOf s)))

/-- R291, R292, R295: taking a trap. With a usable handler and outside one, the stream goes to the handler with the five
trap registers written, the latches invalid and registers and predicates kept; with HANDLER 0, or in the handler, the job
slice fails with REASON 6 and the cause. -/
def Obligations.TrapEntry : Prop :=
  ∀ (s : State) (cause : Nat) (info pc lpc mask : W64) (slices : List Nat) (lane : Bool),
    (Expect.canTrap s → ∃ t, enterTrap cause info pc lpc mask slices lane s = t ∧
      t.crew.sc.pc = s.job.rcd.handler ∧ t.crew.sc.trap = ⟨BitVec.ofNat 64 cause, pc, lpc, mask, info⟩ ∧
      t.crew.handler = some ⟨slices, lane⟩ ∧ t.crew.ln.regs.latches = [] ∧ t.crew.sc.regs = s.crew.sc.regs ∧
      t.crew.sc.preds = s.crew.sc.preds ∧ t.crew.sc.astat = s.crew.sc.astat ∧ t.mem = s.mem) ∧
    (s.job.rcd.handler = 0 ∨ s.crew.handler.isSome = true →
      enterTrap cause info pc lpc mask slices lane s = abortJob s.crew.key.job 6 cause s)

/-- R121, R294: resume in a handler whose runs are done, with trap.pc (and trap.lpc, when it is not zero) aligned code
addresses, ends the handler and continues at trap.pc; for a lane trap the slices that trapped continue at trap.lpc.
Registers and predicates keep what the handler left. R121: resume outside a handler traps 0x01. -/
def Obligations.Resume : Prop :=
  (∀ (s : State) (h : Handler), s.crew.handler = some h → s.crew.ln.hcur = none → s.crew.ln.hqueue = [] →
    codeBad s.crew.sc.trap.pc = false → (s.crew.sc.trap.lpc = 0 ∨ codeBad s.crew.sc.trap.lpc = false) →
    ∃ t, exec .resume s = .next (finish s.crew.sc.trap.pc t) ∧ t.crew.handler = none ∧
      t.crew.sc = s.crew.sc ∧ t.mem = s.mem ∧
      t.crew.ln.cur = (if h.laneTrap then s.crew.ln.cur.map (redirect h.slices s.crew.sc.trap.lpc) else s.crew.ln.cur)) ∧
  (∀ s : State, s.crew.handler = none → exec .resume s = Expect.traps s 0x01 0x5C000005)

namespace Sys2Proof.Expect

/-- No crew but the one in focus waits for accumulator banks or the matrix token. -/
def nobodyWaits (s : State) : Prop := ∀ c ∈ s.crews, accNeed c = 0 ∧ wantsToken c = false

/-- The event of R32 of a level, if the record asks for it. -/
def levelOf (s : State) (level team crew : Nat) : List Event :=
  if s.job.rcd.flags.testBit (12 + level) then [mkEvent s s.job level 0 0 0 team crew] else []

/-- The crew c, in focus, completes (R32, R85, R217, R219, R238): its held flags reach astat, its banks, tile bindings, tags
and the token are given up, and its event is raised; with it its team, when no other crew of the team is left or has
anything outstanding. -/
def crewDone (c : Crew) (s t : State) : Prop :=
  t.crew = { c with
    status := .complete
    active := false
    banks := []
    spilled := []
    tiles := []
    ptraps := []
    barKept := none
    graftKept := none
    sc := { c.sc with astat := c.sc.astat ||| c.ln.held.foldl (fun a f => a ||| f.flags) 0 }
    ln := { c.ln with held := [], regs := { c.ln.regs with htags := [] } } } ∧
  (coreAt t (coreOf s)).token ≠ some c.key ∧ t.job.crewsDone = s.job.crewsDone + 1 ∧ t.mem = s.mem ∧
  ((∃ x ∈ teamCrews s, x.key ≠ c.key ∧ (x.status ≠ .complete ∨ x.ops ≠ [])) →
    t.team.place = s.team.place ∧ t.job.teamsDone = s.job.teamsDone ∧ t.events = s.events ++ levelOf s 0 c.key.team c.key.crew) ∧
  ((∀ x ∈ teamCrews s, x.key ≠ c.key → x.status = .complete ∧ x.ops = []) → c.ops = [] → c.key.crew < 16 →
    (placeCore s.team.place).isSome = true → s.job.phase = .running →
    t.team.place = .done ∧ t.team.handles = [] ∧ t.team.barriers = [] ∧ t.team.pins = [] ∧
      t.job.teamsDone = s.job.teamsDone + 1 ∧
      t.events = s.events ++ levelOf s 0 c.key.team c.key.crew ++ levelOf s 1 s.team.idx 0)

/-- The lane stream has no run left, of the stream's own or of the handler's. -/
def noRuns (l : LaneSt) : Prop := l.cur = none ∧ l.queue = [] ∧ l.hcur = none ∧ l.hqueue = []

end Sys2Proof.Expect

/-- R312: a job slice that is aborted with a reason and has not failed before takes the reason and goes on to its
completion store. None of its crews runs: each is complete, with no bank, park, Sieve entry or pending trap left, and of its
operations only those that complete by themselves (log entry 24, the model's choice) are still in flight; its teams give up
their handles, barriers and pins. A job slice that it spawned fails with REASON 4 in the same way. R120: exit waits until
every counter is at zero; then, outside an idempotent region and with a lane run left, it ends the scalar stream and nothing
else, the token not being held. R32: with no run left, the crew completes, and its team with its last crew. -/
def Obligations.EndingStreams : Prop :=
  (∀ (s : State) (reason cause : Nat), s.job.phase ≠ .done → s.job.failReason = 0 → s.crew.key.job = s.job.take →
    ∃ t, abortJob s.job.take reason cause s = t ∧ t.job.failReason = reason ∧ t.job.failCause = cause ∧
      t.job.phase = .storing ∧ t.crew.status = .complete ∧ t.crew.ops = s.crew.ops.filter outlives ∧ t.mem = s.mem) ∧
  (∀ (s : State) (take reason cause : Nat), ∃ t, abortJob take reason cause s = t ∧
    (∀ c ∈ allCrews t, c.key.job = take → c.status = .complete ∧ c.active = false ∧ c.wait = .none ∧ c.park = none ∧
      c.sieve = [] ∧ c.banks = [] ∧ c.ptraps = [] ∧ c.ops.all outlives = true) ∧
    (∀ x ∈ allTeams t, x.job = take → x.handles = [] ∧ x.barriers = [] ∧ x.pins = []) ∧
    (∀ j ∈ allJobs s, j.parent = some take → j.phase ≠ .done → j.failReason = 0 → j.take ≠ take →
      (∃ j' ∈ allJobs t, j'.take = j.take ∧ j'.failReason = 4 ∧ j'.phase = .storing) ∧
      ∀ c ∈ allCrews t, c.key.job = j.take → c.status = .complete ∧ c.ops.all outlives = true)) ∧
  (∀ s : State, Expect.inFocus s → s.crew.region = none → anyOps s.crew = false → s.crew.handler = none →
    Expect.noRuns s.crew.ln → s.crew.hadToken = false → Expect.nobodyWaits s →
    ∃ t, exec .exit s = .next t ∧ Expect.crewDone { s.crew with wait := .none, clock := s.crew.clock + 1 } s t) ∧
  (∀ s : State, s.crew.region = none →
    (anyOps s.crew = true → exec .exit s = .next { s with crew := { s.crew with wait := .other } }) ∧
    (anyOps s.crew = false → s.crew.handler = none → s.crew.ln.cur.isSome = true →
      (coreAt s (coreOf s)).token ≠ some s.crew.key →
      exec .exit s = .next (retire { s with crew := { s.crew with status := .exited, wait := .none } })))

/-- R308, R315, R97, R85: what the operations do that the results of scalar instructions are stated with. Retirement: the
stream goes to its next address, no wait is left, the logical clock rises by one, one unit is charged to the owner of the
budget when it has one and to the open idempotent region, and nothing else but the accounts of job slices changes in the
machine. An instruction that traps or parks takes its issue slot: outside deterministic mode that is charged in the same way,
and in it nothing changes. Log entry 28 says where the model chooses what a region and a flush interval are charged. A write
of a register changes that register alone, of all registers; the same for predicates, of which c0 reads true; flags are ORed
into astat. -/
def Obligations.RetirementAndRegisters : Prop :=
  (∀ (s : State) (pc : W64), ∃ job jobs, finish pc s = { s with
      crew := { s.crew with
        sc := { s.crew.sc with pc := pc }
        wait := .none
        clock := s.crew.clock + 1
        region := s.crew.region.map (fun g => { g with charged := g.charged + 1 }) }
      job := job
      jobs := jobs } ∧
    (s.job.budgetOwner = s.job.take → job.charged =
      if s.job.rcd.budget = 0 then s.job.charged else s.job.charged + 1)) ∧
  (∀ s : State, (isDet s = true → useSlot s = s) ∧ (isDet s = false → ∃ job jobs, useSlot s = { s with
      crew := { s.crew with region := s.crew.region.map (fun g => { g with charged := g.charged + 1 }) }
      job := job
      jobs := jobs } ∧
    (s.job.budgetOwner = s.job.take → job.charged =
      if s.job.rcd.budget = 0 then s.job.charged else s.job.charged + 1))) ∧
  (∀ (s : State) (d n : Nat) (v : W64), rdS (wrS d v s) n = if n = d then v else rdS s n) ∧
  (∀ (s : State) (d : Nat) (v : W64), ∃ regs parity, wrS d v s =
    { s with crew := { s.crew with sc := { s.crew.sc with regs := regs, parity := parity } } }) ∧
  (∀ (s : State) (d n : Nat) (v : Bool), 0 < n → n < 16 → rdC (wrC d v s) n = if n = d then v else rdC s n) ∧
  (∀ (s : State) (d : Nat) (v : Bool), ∃ preds, wrC d v s =
    { s with crew := { s.crew with sc := { s.crew.sc with preds := preds } } }) ∧
  (∀ s : State, rdC s 0 = true) ∧
  (∀ (s : State) (f : Flags), addFlags f s =
    { s with crew := { s.crew with sc := { s.crew.sc with astat := s.crew.sc.astat ||| f } } })

namespace Sys2Proof.Expect

/-- What a lane fence of a scope finds nothing of: operations that it orders, Sieve entries, and, once the lines that
a release sends home are there, unacknowledged invalidations (R182, R187, R320; what it orders is log entry 11's). -/
def drained (s : State) (scope : Nat) (rel acq : Bool) : Prop :=
  (∀ x ∈ s.crew.ops, fenceHolds scope rel acq x = false) ∧ s.crew.sieve = [] ∧
    ackWaits (if rel && decide (2 ≤ scope) then releaseLines s else s) = []

/-- A scalar fence also finds no lane run (R175). -/
def settled (s : State) (scope : Nat) (rel acq : Bool) : Prop := runsOut s.crew = 0 ∧ drained s scope rel acq

/-- An order of 0 asks for nothing; another finds nothing to wait for. -/
def ordered (s : State) (scope : Nat) (rel acq : Bool) : Prop := scope = 0 ∨ settled s scope rel acq

end Sys2Proof.Expect

/-- R28, R122, R123, R179: spawn.try in crew 0, with a readable record and a queue its world may name, pushes the child and
sets cN when the queue has room and the release at device scope, which the push is, has nothing to wait for; it clears cN
when the depth is 10 or the queue is disabled, and outside deterministic mode when the queue is full. In deterministic mode it
waits while the queue is full, or while another crew waits for its room before it (R40). Elsewhere than in crew 0 it traps
0x01. R29, R30: the record that a child push appends holds the pusher's DEPTH + 1, the earlier of
the two deadlines that are not zero, and the parent's name; every other queue is as it was. -/
def Obligations.ChildPushes : Prop :=
  (∀ (s t : State) (c : BitVec 4) (a b : BitVec 6) (r : Rec) (q : Nat), s.crew.key.crew = 0 → s.crew.region = none →
    readRec (rdS s a.toNat) s = .ok (r, t) → q = (rdS s b.toNat).toNat % 64 →
    (qSecure (sliceQ t q).qctl = false ∨ t.job.secure = true) →
    ((t.job.rcd.depth = 10 ∨ qEn (sliceQ t q).qctl = false) →
      exec (.spawnTry c a b) s = .next (finish (s.crew.sc.pc + 4) (wrC c.toNat false t))) ∧
    (t.job.rcd.depth ≠ 10 → qEn (sliceQ t q).qctl = true → qFull t q = false → Expect.settled t 5 true false →
      (isDet t = false ∨ firstOfAll (.qPush (2 ^ 15 + q)) t = true) →
      exec (.spawnTry c a b) s =
        .next (finish (s.crew.sc.pc + 4) (wrC c.toNat true (pushChild q r (releaseLines t))))) ∧
    (t.job.rcd.depth ≠ 10 → qEn (sliceQ t q).qctl = true → qFull t q = true → isDet t = false →
      exec (.spawnTry c a b) s = .next (finish (s.crew.sc.pc + 4) (wrC c.toNat false t))) ∧
    (t.job.rcd.depth ≠ 10 → qEn (sliceQ t q).qctl = true → isDet t = true →
      (qFull t q = true ∨ firstOfAll (.qPush (2 ^ 15 + q)) t = false) →
      exec (.spawnTry c a b) s = Expect.waits s (.qPush (2 ^ 15 + q)))) ∧
  (∀ (s : State) (c : BitVec 4) (a b : BitVec 6), s.crew.key.crew ≠ 0 →
    exec (.spawnTry c a b) s = Expect.traps s 0x01 ((0x80#8 ++ c ++ a ++ b ++ 0#8 : BitVec 32).zeroExtend 64)) ∧
  (∀ (s : State) (q : Nat) (r : Rec),
    ∃ x : QRec, (sliceQ (pushChild q r s) q).recs = (sliceQ s q).recs ++ [x] ∧
      x.rcd = { r with
        depth := s.job.rcd.depth + 1
        deadline :=
          if r.deadline = 0 then BitVec.ofNat 64 s.job.deadline
          else if s.job.deadline = 0 then r.deadline
          else BitVec.ofNat 64 (min r.deadline.toNat s.job.deadline) } ∧
      x.parent = some s.job.take ∧ x.secure = s.job.secure ∧
      ∀ q', q' ≠ q → sliceQ (pushChild q r s) q' = sliceQ s q')

/-- R38, R39, R124: graft outside a region, with no run left, arrives: the crew waits with its hint. When every crew of the
team has arrived, their counters are zero, no handle is filling and no other core is to take the team, the move leaves the
team where it is and each crew goes on after its graft. Where another core is to take it, the team is resident there after the
move, with its weight space and its accumulator banks, and each crew goes on after its graft with its registers and no latch.
Here for a team of one crew outside deterministic mode, and for the move of one that has nothing in flight, from a core with
no dirty line to one with room for its banks, with nobody waiting for banks or the token. Which core takes a team is the
model's choice (log entries 23, 45). -/
def Obligations.GraftArrivesAndGoesOn : Prop :=
  (∀ (s : State) (a : BitVec 6), s.crew.region = none → runsOut s.crew = 0 → (∀ h, s.crew.wait ≠ .graft h) →
    s.crew.graftKept = none →
    exec (.graft a) s = .next { s with crew := { s.crew with wait := .graft (rdS s a.toNat) } }) ∧
  (∀ (s : State) (core : Nat), Expect.inFocus s → s.crew.key.crew = 0 → s.team.place = .resident core → clockOn s = true →
    teamCrews s = [s.crew] → graftReady s = true → isDet s = false → s.crew.graftKept = none →
    (graftTarget core s = none → exec (.graftMove s.team.job s.team.idx) s = .next (finish (s.crew.sc.pc + 4) s)) ∧
    (∀ c : Nat, graftTarget core s = some c → s.l1 = [] → s.crew.ops = [] → s.crew.spilled = [] →
      banksUsed s c + s.crew.banks.length ≤ 16 →
      s.crew.ptraps = [] → s.crew.status = .running → s.crew.hadToken = false → (coreAt s core).token ≠ some s.crew.key →
      Expect.nobodyWaits s →
      ∃ t, exec (.graftMove s.team.job s.team.idx) s = .next t ∧ t.team.place = .resident c ∧
        t.team.weights = s.team.weights ∧ t.crew.key = s.crew.key ∧ t.crew.wait = .none ∧
        t.crew.banks = s.crew.banks ∧ t.crew.spilled = [] ∧
        t.crew.sc = { s.crew.sc with pc := s.crew.sc.pc + 4 } ∧ t.crew.clock = s.crew.clock + 1 ∧
        t.crew.ln.regs.latches = [] ∧ t.crew.ln.regs.vregs = s.crew.ln.regs.vregs ∧ t.mem = s.mem))

namespace Sys2Proof.Expect

/-- The size in bytes of a load width, and the value that the register takes (R191). -/
def loadSize (w : BitVec 3) : Nat :=
  match w.toNat with
  | 0 | 1 => 1
  | 2 | 3 => 2
  | 4 | 5 => 4
  | _ => 8

/-- A loaded value widened as its width says. -/
def loadValue (w : BitVec 3) (b : List Byte) : W64 :=
  let v := bytesToNat b
  match w.toNat with
  | 0 => (BitVec.ofNat 8 v).signExtend 64
  | 1 => (BitVec.ofNat 8 v).zeroExtend 64
  | 2 => (BitVec.ofNat 16 v).signExtend 64
  | 3 => (BitVec.ofNat 16 v).zeroExtend 64
  | 4 => (BitVec.ofNat 32 v).signExtend 64
  | 5 => (BitVec.ofNat 32 v).zeroExtend 64
  | _ => BitVec.ofNat 64 v

/-- A place on this device. -/
def isLocal : Loc → Bool
  | .remote _ _ => false
  | _ => true

/-- No line of a core's L1 lies over n bytes at a physical address. -/
def noLine (s : State) (core pa n : Nat) : Prop := ∀ l ∈ s.l1, l.core = core → (linesOf pa n).contains l.line = false

/-- An operation of the crew in focus. -/
def op (s : State) (cls : OpClass) (kind : OpKind) (pages : List Nat) : Op :=
  ⟨cls, kind, pages, s.crew.region.isSome, false, false, s.crew.sieveOrder⟩

/-- A value applied by an atomic: the new value and its flags; none where cas finds another value (R193). -/
def applied (op : Nat) (wide : Bool) (old b cmp : W64) : Option Nat × Flags :=
  let lo := fun (x : W64) => if wide then x else (x.setWidth 32).zeroExtend 64
  let sg := fun (x : W64) => if wide then x.toInt else (x.setWidth 32).toInt
  match op with
  | 0 => (some (lo (old + b)).toNat, 0)
  | 1 => (some (lo (old &&& b)).toNat, 0)
  | 2 => (some (lo (old ||| b)).toNat, 0)
  | 3 => (some (lo (old ^^^ b)).toNat, 0)
  | 4 => (some (if sg old ≤ sg b then old else lo b).toNat, 0)
  | 5 => (some (if sg old ≤ sg b then lo b else old).toNat, 0)
  | 6 => (some (min old.toNat (lo b).toNat), 0)
  | 7 => (some (max old.toNat (lo b).toNat), 0)
  | 8 => (some (lo b).toNat, 0)
  | 9 => if old = lo cmp then (some (lo b).toNat, 0) else (none, 0)
  | _ =>
    let r := fAdd (if wide then fmtF64 else fmtF32) .rne old.toNat (lo b).toNat
    (some r.1, r.2)

/-- The scope of an ORD code, whether it acquires and whether it releases (R180): relaxed, acquire, release or both at device
scope, then the same three at system scope. -/
def ordOf (o : Nat) : Nat × Bool × Bool :=
  match o with
  | 0 => (0, false, false)
  | 1 => (5, true, false)
  | 2 => (5, false, true)
  | 3 => (5, true, true)
  | 4 => (6, true, false)
  | 5 => (6, false, true)
  | _ => (6, true, true)

/-- The atomic that amo issues (R193): aux the scope of its acquire. -/
def amoOf (s : State) (l : Place) (d a b : BitVec 6) (o : BitVec 4) (w : BitVec 1) (sc : BitVec 3) : AmoOp :=
  ⟨o.toNat, if w = 1 then 8 else 4, BitVec.ofNat 64 (vaOf s 32 (rdS s a.toNat)), l.loc, rdS s b.toNat, rdS s d.toNat, 32,
    d.toNat, if (ordOf sc.toNat).2.1 then (ordOf sc.toNat).1 else 0⟩

/-- An access of the scalar stream through aperture 0x3 goes to its peer, and the stream waits for the reply (R188). -/
def sends (s t : State) (x : RemAcc) : Host.Outcome State Fault Refusal :=
  .next (onC (fun c => { c with wait := .remote, ops := c.ops ++ [op s .fabric (.remote false [x] none) []] }) t)

/-- A barrier after one arrival more (R207). -/
def arrived (x : Barrier) (interval : Nat) : Barrier := { x with arrs := x.arrs ++ [interval] }

end Sys2Proof.Expect

/-! ## Scalar memory, copies, handles, barriers, queues -/

/-- R97, R191: a load whose address is checked and translated, with room in its counter, reads its bytes and puts the
widened value in flight; the register is written when the value returns. Both forms, every width. R192: a store whose
address is checked and translated, with room in its counter, writes the low bytes of sD at its place and puts a store in
flight. Every width. R188: through aperture 0x3 the access goes to the peer once, with room in the fabric counter, and the
stream waits. That a load takes its value, and a store its place, at issue is the model's choice (log entry 7). -/
def Obligations.LoadsAndStoresIssue : Prop :=
  (∀ (s t : State) (d a : BitVec 6) (w : BitVec 3) (o : BitVec 10) (l : Place) (b : List Byte) (bad ro : Bool) (p : W64),
    w ≠ 7 → p = rdS s a.toNat + o.signExtend 64 * BitVec.ofNat 64 (Expect.loadSize w) → liveIn s d.toNat = false →
    locate s 32 p (Expect.loadSize w) 0 = .ok l → Expect.isLocal l.loc = true → outstanding s.crew .load < 4095 →
    rdLoc l.loc (Expect.loadSize w) ro (notePlace l s) = (b, bad, t) →
    exec (if ro then .ldRo d a w o else .ld d a w o) s = Expect.goesOn s
      (onC (fun c => { c with ops := c.ops ++ [Expect.op s .load
        (.load d.toNat (Expect.loadValue w b) bad (BitVec.ofNat 64 (vaOf s 32 p))) [l.page]] }) t)) ∧
  (∀ (s : State) (d a : BitVec 6) (w : BitVec 3) (o : BitVec 10) (l : Place) (ro : Bool) (p : W64),
    w ≠ 7 → p = rdS s a.toNat + o.signExtend 64 * BitVec.ofNat 64 (Expect.loadSize w) → liveIn s d.toNat = false →
    locate s 32 p (Expect.loadSize w) 0 = .ok l → Expect.isLocal l.loc = false → outstanding s.crew .fabric < 4095 →
    sentScalar ⟨p, .read (Expect.loadSize w), 32⟩ s = false →
    exec (if ro then .ldRo d a w o else .ld d a w o) s = Expect.sends s s ⟨p, .read (Expect.loadSize w), 32⟩) ∧
  (∀ (s : State) (d a : BitVec 6) (w : BitVec 2) (o : BitVec 12) (l : Place) (p : W64),
    p = rdS s a.toNat + o.signExtend 64 * BitVec.ofNat 64 (2 ^ w.toNat) →
    locate s 32 p (2 ^ w.toNat) 1 = .ok l → Expect.isLocal l.loc = true → outstanding s.crew .store < 4095 →
    exec (.st d a w o) s = Expect.goesOn s (wrLoc l.loc (natToBytes (2 ^ w.toNat) (rdS s d.toNat).toNat)
      (onC (fun c => { c with ops := c.ops ++ [Expect.op s .store (.store [l.loc]) [l.page]] }) (notePlace l s)))) ∧
  (∀ (s : State) (d a : BitVec 6) (w : BitVec 2) (o : BitVec 12) (l : Place) (p : W64),
    p = rdS s a.toNat + o.signExtend 64 * BitVec.ofNat 64 (2 ^ w.toNat) →
    locate s 32 p (2 ^ w.toNat) 1 = .ok l → Expect.isLocal l.loc = false → outstanding s.crew .fabric < 4095 →
    sentScalar ⟨p, .write (natToBytes (2 ^ w.toNat) (rdS s d.toNat).toNat), 32⟩ s = false →
    exec (.st d a w o) s = Expect.sends s s ⟨p, .write (natToBytes (2 ^ w.toNat) (rdS s d.toNat).toNat), 32⟩)

/-- R180, R184, R193: an atomic outside an idempotent region, of any order, whose order has nothing to wait for, checked and
translated. Outside deterministic mode, on this device and with room in its counter, it goes to its home: the lines that a
release sends home are there, it is in flight and the stream goes on. Through aperture 0x3, outside deterministic mode, it is
sent to its peer after that release. R316: in deterministic mode, with room in the Sieve for its interval, it waits there for
its flush. R273: in a region it traps 0x02. R193: the operations of atomics: what each writes for an old value below 2^(8n),
whether cas writes, and the flags. -/
def Obligations.Atomics : Prop :=
  (∀ (s : State) (d a b : BitVec 6) (o : BitVec 4) (w : BitVec 1) (sc : BitVec 3) (l : Place) (scope : Nat) (acq rel : Bool),
    s.crew.region = none → sc ≠ 7 → Expect.ordOf sc.toNat = (scope, acq, rel) → Expect.ordered s scope rel acq →
    locate s 32 (rdS s a.toNat) (if w = 1 then 8 else 4) 2 = .ok l →
    (isDet s = false → Expect.isLocal l.loc = true → outstanding s.crew .store < 4095 →
      exec (.amo d a b o w sc) s = Expect.goesOn s (onC (fun c => { c with ops := c.ops ++ [Expect.op s .store
        (.amo (Expect.amoOf s l d a b o w sc)) [l.page]] }) (notePlace l (if rel then releaseLines s else s)))) ∧
    (isDet s = true → (s.crew.sieve.filter (fun e => e.flush == intervalOf s)).length < 1024 →
      exec (.amo d a b o w sc) s = Expect.goesOn s (onC (fun c => { c with
          sieve := c.sieve ++ [⟨c.clock / flushF s.job, 32, c.sieveOrder, .amo (Expect.amoOf s l d a b o w sc)⟩]
          sieveOrder := c.sieveOrder + 1 })
        (notePlace l (if rel then releaseLines s else s)))) ∧
    (∀ x : RemAcc, x = ⟨rdS s a.toNat, .amo o.toNat (if w = 1 then 8 else 4) (rdS s b.toNat) (rdS s d.toNat), 32⟩ →
      isDet s = false → Expect.isLocal l.loc = false → sentScalar x s = false → outstanding s.crew .fabric < 4095 →
      exec (.amo d a b o w sc) s = Expect.sends s (if rel then releaseLines s else s) x)) ∧
  (∀ (s : State) (d a b : BitVec 6) (o : BitVec 4) (w : BitVec 1) (sc : BitVec 3), s.crew.region.isSome = true →
    exec (.amo d a b o w sc) s = Expect.traps s 0x02 0) ∧
  (∀ (op : Nat) (wide : Bool) (old b cmp : W64), op ≤ 10 → (wide = false → old.toNat < 2 ^ 32) →
    amoApply op (if wide then 8 else 4) old.toNat b.toNat cmp.toNat =
      match Expect.applied op wide old b cmp with
      | (some v, f) => (v, true, f)
      | (none, f) => (old.toNat, false, f))

/-- R175, R179, R180, R187, R198: a fence completes once the crew's runs are done and nothing it waits for is outstanding;
it then brings the core's lines to its scope: after a release of core scope or wider no software-coherent line of the core
is dirty, and after an acquire the core holds no software-coherent line and no read-only copy. R162, R177: a release of die
scope or wider performs the stores to hardware-coherent pages that the core holds, and a fence of core or cluster scope none
of them. One that finds an operation
to wait for waits. Which operations a fence waits for, and the lines that show, are the model's choice (log entries 7, 8,
11). R183, R199: ewait goes on when at most its threshold of operations of its class is outstanding, and waits otherwise;
here with nothing of the crew in the Sieve. R320: one on the store or scatter counter waits first, in deterministic mode,
for the crew's own lane runs. R213: a cmo on an empty range is done at once; one on a range that passes its
checks starts, and the stream waits for it. -/
def Obligations.FencesAndCaches : Prop :=
  (∀ (s : State) (o : BitVec 2) (sc : BitVec 3),
    (Expect.settled s sc.toNat (o ≠ 0) (o ≠ 1) →
      exec (.fence o sc) s = Expect.goesOn s (fenceLines sc.toNat (o ≠ 0) (o ≠ 1) s)) ∧
    (runsOut s.crew = 0 →
      (∃ x ∈ s.crew.ops, fenceHolds sc.toNat (o ≠ 0) (o ≠ 1) x = true ∧ behindSieve s.crew x = false) →
      exec (.fence o sc) s = Expect.waits s .other)) ∧
  (∀ (s : State) (sc : Nat) (rel acq : Bool), 2 ≤ sc →
    (rel = true → ∀ l ∈ (fenceLines sc rel acq s).l1, l.core = coreOf s → l.kind = .swc → l.dirty = 0) ∧
    (acq = true → ∀ l ∈ (fenceLines sc rel acq s).l1, l.core = coreOf s → l.kind ≠ .swc ∧ l.kind ≠ .ro) ∧
    (rel = true → 4 ≤ sc → ∀ l ∈ (fenceLines sc rel acq s).l1, l.core = coreOf s → l.kind ≠ .hwc) ∧
    (sc ≤ 3 → ∀ l ∈ s.l1, l.kind = .hwc → l ∈ (fenceLines sc rel acq s).l1) ∧
    (fenceLines sc rel acq s).crew = s.crew ∧ (fenceLines sc rel acq s).crews = s.crews) ∧
  (∀ (s : State) (n : BitVec 12) (c : BitVec 3), isDet s = true → c ∈ [1#3, 5#3] → runsOut s.crew ≠ 0 →
    exec (.ewait n c) s = Expect.waits s .lanes) ∧
  (∀ (s : State) (n : BitVec 12) (c : BitVec 3), s.crew.sieve = [] → (isDet s = true → c ∈ [1#3, 5#3] → runsOut s.crew = 0) →
    (opCount s.crew (classOf c.toNat) ≤ n.toNat → exec (.ewait n c) s = Expect.goesOn s s) ∧
    (n.toNat < opCount s.crew (classOf c.toNat) → exec (.ewait n c) s = Expect.waits s .other)) ∧
  (∀ (s : State) (i : Instr) (k : Nat) (a b : BitVec 6) (sc : BitVec 3),
    (i, k) ∈ [(Instr.cmoWb a b sc, 0), (.cmoWbinv a b sc, 1), (.cmoInv a b sc, 2), (.cmoIinv a b sc, 3), (.cmoRodrop a b sc, 4)] →
    (rdS s b.toNat = 0 → exec i s = Expect.goesOn s s) ∧
    (rdS s b.toNat ≠ 0 → s.crew.wait ≠ .cmo → cmoCheck k (rdS s a.toNat) (rdS s b.toNat).toNat s = .ok () →
      exec i s = .next { s with crew := { s.crew with
        wait := .cmo, cmo := some ⟨k, sc.toNat, rdS s a.toNat, (rdS s b.toNat).toNat⟩ } }))

/-- R200, R201: a copy command that meets the conditions of R200 and stays in its apertures, on a bound free handle that
no earlier crew waits for and whose buffer holds its rows, makes the handle filling and puts the copy in flight. With a
bound barrier named, the barrier counts the copy. A ring form takes the handle that the descriptor names. R203: cp.yield
on a full handle goes to its target at once; on any other bound handle the crew waits for the handle, and is not ready
until it is full. -/
def Obligations.Copies : Prop :=
  (∀ (s : State) (d : BitVec 6) (a : BitVec 4) (h : Nat) (x : Handle) (c : CopyCmd), c = copyCmd s (4 * a.toNat) →
    roleMay (roleOf s) .copy = true → s.crew.region = none → copyOk c = true →
    badRow s c.src c.sstride c.rows c.len = none → badRow s c.dst c.dstride c.rows c.len = none →
    handleOf s h = some x → x.st = .free → firstOfTeam (.handleFree h) s = true → inBuffer c x = true →
    outstanding s.crew .copy < 4095 →
    (h = d.toNat → exec (.cpIssue d a) s = Expect.goesOn s
      (onC (fun y => { y with ops := y.ops ++ [Expect.op s .copy
        (.copy ⟨c.src, c.dst, c.rows, c.len, c.sstride, c.dstride, h, none, none⟩) []] }) (setHandle h .filling s))) ∧
    (∀ (b : BitVec 5) (y : Barrier), h = d.toNat → barrierOf s b.toNat = some y →
      exec (.cpIssueBar d a b) s = Expect.goesOn s
        (onT (fun t => { t with barriers := smSet none t.barriers b.toNat (some { y with copies := y.copies + 1 }) })
          (onC (fun z => { z with ops := z.ops ++ [Expect.op s .copy
            (.copy ⟨c.src, c.dst, c.rows, c.len, c.sstride, c.dstride, h, some b.toNat, none⟩) []] })
            (setHandle h .filling s)))) ∧
    (∀ r : RingDesc, ringDesc (rdS s d.toNat) = .ok r → h = r.first + r.idx →
      exec (.cpIssueRing d a) s = Expect.goesOn s
        (onC (fun y => { y with ops := y.ops ++ [Expect.op s .copy
          (.copy ⟨c.src, c.dst, c.rows, c.len, c.sstride, c.dstride, h, none, none⟩) []] }) (setHandle h .filling s)))) ∧
  (∀ (s : State) (d : BitVec 6) (i : BitVec 32) (x : Handle), roleMay (roleOf s) .copy = true → s.crew.region = none →
    handleOf s d.toNat = some x →
    (x.st = .full → exec (.cpYield d i) s = .next (finish (s.crew.sc.pc + i.signExtend 64) s)) ∧
    (x.st ≠ .full → exec (.cpYield d i) s = Expect.waits s (.cpYield d.toNat (s.crew.sc.pc + i.signExtend 64)))) ∧
  (∀ (s : State) (c : Crew) (h : Nat) (target : W64), c.wait = .cpYield h target → crewReady s c = false)

/-- R204, R205: each handle operation in the state that it is for: bind an unbound name to an aligned buffer inside the
allocation, unbind a free handle, claim a full one (h.try clears cN on any other bound one), release a draining one that
no matrix operation reads, all that the release orders being done, wait for a full one, and read a state. R206: h.radv
advances a well-formed descriptor's index, round the ring, and inverts its lap bit when it wraps; h.rclaim claims the full
handle that the descriptor names when its lap bit agrees. A descriptor that breaks the table traps 0x10. What h.claim,
h.try, h.rclaim and h.release wait for, lane runs not counted, is the model's choice (log entry 11). -/
def Obligations.HandlesAndStages : Prop :=
  ((∀ (s : State) (d a : BitVec 6) (c : BitVec 4) (base size : Nat), size * 2 ^ 32 + base = (rdS s a.toNat).toNat →
    base < 2 ^ 32 → handleOf s d.toNat = none → base % 16 = 0 → size % 16 = 0 → base + size ≤ s.job.rcd.spad * 1024 →
    (handlesUsed s (coreOf s) < 64 → exec (.hBind d a c) s = Expect.goesOn s (wrC c.toNat true
      (onT (fun t => { t with handles := smSet none t.handles d.toNat (some ⟨base, size, .free, 0, false⟩) }) s))) ∧
    (64 ≤ handlesUsed s (coreOf s) → exec (.hBind d a c) s = Expect.goesOn s (wrC c.toNat false s))) ∧
  (∀ (s : State) (d : BitVec 6) (x : Handle), handleOf s d.toNat = some x → x.st = .free →
    exec (.hUnbind d) s = Expect.goesOn s (onT (fun t => { t with handles := smDel t.handles d.toNat }) s)) ∧
  (∀ (s : State) (d : BitVec 6) (x : Handle), s.crew.region = none → handleOf s d.toNat = some x → x.st = .full →
    s.crew.ops.any (fenceHolds 2 false true) = false →
    exec (.hClaim d) s = Expect.goesOn s (acquireLines (setHandle d.toNat .draining s))) ∧
  (∀ (s : State) (d : BitVec 6) (c : BitVec 4) (x : Handle), s.crew.region = none → handleOf s d.toNat = some x →
    s.crew.ops.any (fenceHolds 2 false true) = false →
    exec (.hTry d c) s = Expect.goesOn s (if x.st = .full then wrC c.toNat true (acquireLines (setHandle d.toNat .draining s))
      else wrC c.toNat false s)) ∧
  (∀ (s : State) (d : BitVec 6) (x : Handle), s.crew.region = none → handleOf s d.toNat = some x → x.st = .draining →
    (∀ c ∈ teamCrews s, c.ops.any (readsHandle d.toNat) = false) → releaseReady x s = true →
    exec (.hRelease d) s = Expect.goesOn s (setHandle d.toNat .free (releaseCore s))) ∧
  (∀ (s : State) (d : BitVec 6) (x : Handle), handleOf s d.toNat = some x →
    exec (.hWait d) s = if x.st = .full then Expect.goesOn s s else Expect.waits s (.handleFull d.toNat false none)) ∧
  (∀ (s : State) (d a : BitVec 6), liveIn s d.toNat = false →
    exec (.hState d a) s = Expect.goesOn s (wrS d.toNat (match handleOf s a.toNat with
      | none => 0
      | some x => BitVec.ofNat 64 ((match x.st with
          | .free => 0
          | .filling => 1
          | .full => 2
          | .draining => 3) + (if x.flap then 4 else 0) + 8)) s))) ∧
  ((∀ (s : State) (d a : BitVec 6) (r : RingDesc), ringDesc (rdS s a.toNat) = .ok r → liveIn s d.toNat = false →
    exec (.hRadv d a) s = Expect.goesOn s (wrS d.toNat (BitVec.ofNat 64
      ((if r.idx + 1 = r.n then 0 else r.idx + 1) * 2 ^ 14 +
        (if (if r.idx + 1 = r.n then !r.ph else r.ph) then 2 ^ 13 else 0) + r.n * 2 ^ 6 + r.first)) s)) ∧
  (∀ (s : State) (a : BitVec 6) (r : RingDesc) (x : Handle), s.crew.region = none → ringDesc (rdS s a.toNat) = .ok r →
    handleOf s (r.first + r.idx) = some x → x.st = .full → x.flap = r.ph →
    s.crew.ops.any (fenceHolds 2 false true) = false →
    exec (.hRclaim a) s = Expect.goesOn s (acquireLines (setHandle (r.first + r.idx) .draining s))) ∧
  (∀ (s : State) (d a : BitVec 6) (idx n first : Nat), idx = (rdS s a.toNat).toNat / 2 ^ 14 % 64 →
    n = (rdS s a.toNat).toNat / 2 ^ 6 % 128 → first = (rdS s a.toNat).toNat % 64 →
    ((rdS s a.toNat).toNat ≥ 2 ^ 20 ∨ n ≤ idx ∨ 64 < n ∨ 64 < first + n) →
    exec (.hRadv d a) s = Expect.traps s 0x10 (BitVec.ofNat 64 (first + idx))))

/-- R207 to R209: each barrier operation on a barrier that it is for: allocation of an unbound name, an arrival that does
not complete the phase, a first arrival that waits, a hold whose phase is over or still on, a pending count, freeing
without waiters or copies, and reading the phase. The last arrival of a phase with nothing pending completes it: PH
inverts, ARR and PEND are zero, and a crew that waits for the phase goes on after its instruction, the last to arrive with
it; here in a team of two crews, outside deterministic mode or on a barrier that a copy or bar.pend touched. Here with no
line in an L1 and no load or atomic outstanding that the operation waits for; what such an operation waits for is the
model's choice (log entry 11). -/
def Obligations.BarrierOperations : Prop :=
  (∀ (s : State) (c : BitVec 4) (a : BitVec 6) (b : BitVec 5) (n : Nat), n = (rdS s a.toNat).toNat % 2 ^ 16 →
    barrierOf s b.toNat = none → n ≠ 0 →
    (barsUsed s (coreOf s) < 32 → exec (.barAlloc c a b) s = Expect.goesOn s (wrC c.toNat true
      (onT (fun t => { t with barriers := smSet none t.barriers b.toNat (some ⟨n, [], 0, false, false, 0⟩) }) s))) ∧
    (32 ≤ barsUsed s (coreOf s) → exec (.barAlloc c a b) s = Expect.goesOn s (wrC c.toNat false s))) ∧
  (∀ (s : State) (b : BitVec 5) (x : Barrier), s.crew.region = none → s.l1 = [] → barrierOf s b.toNat = some x →
    x.arrs.length + 1 < x.exp → s.crew.ops.any (fenceHolds 2 true false) = false →
    exec (.barMark b) s = Expect.goesOn s (onT (fun t => { t with
      barriers := smSet none t.barriers b.toNat (some (Expect.arrived x (intervalOf s))) }) s)) ∧
  (∀ (s : State) (b : BitVec 5) (x : Barrier), s.crew.region = none → s.l1 = [] → barrierOf s b.toNat = some x →
    s.crew.wait = .none → s.crew.barKept = none → barWaiters b.toNat s < 16 → x.arrs.length + 1 < x.exp →
    s.crew.ops.any (fenceHolds 2 true true) = false →
    exec (.barMeet b) s = .next (onT (fun t => { t with
      barriers := smSet none t.barriers b.toNat (some (Expect.arrived x (intervalOf s))) })
      { s with crew := { s.crew with wait := .barMeet b.toNat 0 } })) ∧
  (∀ (s : State) (b : BitVec 5) (x : Barrier) (c : Crew), Expect.inFocus s → s.crew.region = none → s.l1 = [] →
    barrierOf s b.toNat = some x → x.arrs.length + 1 = x.exp → x.pend = 0 → (isDet s = false ∨ x.touched = true) →
    s.crew.barKept = none → s.crew.ops.any (fenceHolds 2 true true) = false →
    (teamCrews s = [s.crew, c] ∨ teamCrews s = [c, s.crew]) → c.key ≠ s.crew.key → c.barKept = none →
    (c.wait = .barHold b.toNat ∨ c.wait = .barMeet b.toNat 0) → s.crew.wait = .none →
    ∀ i, i ∈ [Instr.barMark b, .barMeet b] → ∃ t, exec i s = .next t ∧
      barrierOf t b.toNat = some { x with ph := !x.ph, arrs := [], pend := 0, touched := false } ∧
      t.crew.wait = .none ∧ t.crew.sc.pc = s.crew.sc.pc + 4 ∧ t.crew.clock = s.crew.clock + 1 ∧
      ∃ d ∈ t.crews, d.key = c.key ∧ d.wait = .none ∧ d.sc.pc = c.sc.pc + 4 ∧ d.clock = c.clock + 1) ∧
  (∀ (s : State) (p : BitVec 1) (b : BitVec 5) (x : Barrier), barrierOf s b.toNat = some x →
    s.crew.ops.any (fenceHolds 2 false true) = false →
    (x.ph ≠ decide (p = 1) → exec (.barHold p b) s = Expect.goesOn s (acquireLines s)) ∧
    (x.ph = decide (p = 1) → barWaiters b.toNat s < 16 → exec (.barHold p b) s = Expect.waits s (.barHold b.toNat))) ∧
  (∀ (s : State) (a : BitVec 6) (b : BitVec 5) (x : Barrier), barrierOf s b.toNat = some x → x.arrs.length < x.exp →
    exec (.barPend a b) s = Expect.goesOn s (onT (fun t => { t with
      barriers := smSet none t.barriers b.toNat
        (some { x with pend := x.pend + ((rdS s a.toNat).setWidth 32).toInt, touched := true }) }) s)) ∧
  (∀ (s : State) (b : BitVec 5) (x : Barrier), barrierOf s b.toNat = some x → barWaiters b.toNat s = 0 → x.copies = 0 →
    exec (.barFree b) s = Expect.goesOn s (onT (fun t => { t with barriers := smDel t.barriers b.toNat }) s)) ∧
  (∀ (s : State) (d : BitVec 6) (b : BitVec 5) (x : Barrier), barrierOf s b.toNat = some x → liveIn s d.toNat = false →
    exec (.barPhase d b) s = Expect.goesOn s (wrS d.toNat (if x.ph then 1 else 0) s))

/-- R210 to R212: a push to an enabled data queue of the crew's world with room, nobody waiting for it before, appends the
value; a pop takes the oldest entry into sD. The try forms clear cN on a full or an empty queue and change nothing else, and
the blocking forms wait. With an order, and nothing that the order waits for, a push first sends the core's lines home, and a
pop that took an entry ends as an acquire. A push to a slice queue pushes the record that sB points to as a child (R29). In
deterministic mode, with room in the Sieve, a push or a pop is held there for its flush (R316, R317). In a region they trap
0x02 (R273). An entry that is uncorrectable is not meant here (log entry 58). -/
def Obligations.DataQueues : Prop :=
  (∀ (s : State) (a : BitVec 6) (n : Nat) (sc : BitVec 3), s.crew.region = none →
    queueName (rdS s a.toNat) = some (.data n) → qEn (dataQ s n).ctl = true →
    (qSecure (dataQ s n).ctl = false ∨ s.job.secure = true) →
    (isDet s = false → Expect.ordered s sc.toNat true false →
      (∀ b : BitVec 6, dqFull s n = false → firstOfAll (.qPush (fld (rdS s a.toNat) 15 0)) s = true →
        ∀ u, u = modDQ n (fun q => { q with entries := q.entries ++ [rdS s b.toNat] }) (fenceLines sc.toNat true false s) →
        exec (.qPush a b sc) s = Expect.goesOn s u ∧
        ∀ c : BitVec 4, exec (.qPushTry c a b sc) s = Expect.goesOn s (wrC c.toNat true u)) ∧
      (∀ b : BitVec 6, dqFull s n = true →
        exec (.qPush a b sc) s = Expect.waits s (.qPush (fld (rdS s a.toNat) 15 0)) ∧
        ∀ c : BitVec 4, exec (.qPushTry c a b sc) s = Expect.goesOn s (wrC c.toNat false s))) ∧
    (isDet s = false → Expect.ordered s sc.toNat false true →
      (∀ (d : BitVec 6) (v : W64) (r : List W64), (dataQ s n).entries = v :: r → (dataQ s n).bad.contains 0 = false →
        qRefused s (dataQ s n).ctl 8 = false → firstOfAll (.qPop (fld (rdS s a.toNat) 15 0)) s = true →
        ∀ u, u = wrS d.toNat v (modDQ n (fun q => { q with entries := r, bad := (q.bad.filter (· != 0)).map (· - 1) }) s) →
        exec (.qPop d a sc) s = Expect.goesOn s (fenceLines sc.toNat false true u) ∧
        ∀ c : BitVec 4, exec (.qPopTry d a c sc) s = Expect.goesOn s (wrC c.toNat true (fenceLines sc.toNat false true u))) ∧
      (∀ d : BitVec 6, (dataQ s n).entries = [] →
        exec (.qPop d a sc) s = Expect.waits s (.qPop (fld (rdS s a.toNat) 15 0)) ∧
        ∀ c : BitVec 4, exec (.qPopTry d a c sc) s = Expect.goesOn s (wrC c.toNat false s))) ∧
    (isDet s = true → (s.crew.sieve.filter (fun e => e.flush == intervalOf s)).length < 1024 →
      ∀ held : SieveKind → State → State, (∀ k u, held k u = onC (fun c => { c with
          sieve := c.sieve ++ [⟨c.clock / flushF s.job, 32, c.sieveOrder, k⟩], sieveOrder := c.sieveOrder + 1 }) u) →
      (Expect.ordered s sc.toNat true false → ∀ b : BitVec 6,
        exec (.qPush a b sc) s = Expect.goesOn s (held (.push n (rdS s b.toNat)) (fenceLines sc.toNat true false s)) ∧
        ∀ c : BitVec 4, exec (.qPushTry c a b sc) s =
          Expect.goesOn s (wrC c.toNat true (held (.push n (rdS s b.toNat)) (fenceLines sc.toNat true false s)))) ∧
      (Expect.ordered s sc.toNat false true → ∀ d : BitVec 6,
        exec (.qPop d a sc) s = Expect.goesOn s (held (.pop n d.toNat 0 sc.toNat) s) ∧
        ∀ c : BitVec 4, exec (.qPopTry d a c sc) s = Expect.goesOn s (held (.pop n d.toNat c.toNat sc.toNat) s)))) ∧
  (∀ (s t : State) (a b : BitVec 6) (q : Nat) (sc : BitVec 3) (r : Rec), s.crew.region = none →
    queueName (rdS s a.toNat) = some (.slice q) → qEn (sliceQ s q).qctl = true →
    (qSecure (sliceQ s q).qctl = false ∨ s.job.secure = true) → Expect.ordered s sc.toNat true false →
    readRec (rdS s b.toNat) (fenceLines sc.toNat true false s) = .ok (r, t) → s.job.rcd.depth < 10 → qFull t q = false →
    firstOfAll (.qPush (fld (rdS s a.toNat) 15 0)) s = true →
    exec (.qPush a b sc) s = Expect.goesOn s (pushChild q r t) ∧
    ∀ c : BitVec 4, exec (.qPushTry c a b sc) s = Expect.goesOn s (wrC c.toNat true (pushChild q r t))) ∧
  (∀ (s : State) (i : Instr) (a b : BitVec 6) (c : BitVec 4) (sc : BitVec 3), s.crew.region.isSome = true →
    i ∈ [Instr.qPush a b sc, .qPushTry c a b sc, .qPop b a sc, .qPopTry b a c sc] → exec i s = Expect.traps s 0x02 0)

namespace Sys2Proof.Expect

/-- The crew in focus holds its core's matrix token. -/
def holdsToken (s : State) : Prop := (coreAt s (coreOf s)).token = some s.crew.key

/-- What every instruction that hands work to the matrix engine asks of the crew: its role, no region, the token, and room
in the counter (R27, R219, R272). -/
def mayIssue (s : State) (k : EngClass) : Prop :=
  roleMay (roleOf s) k = true ∧ s.crew.region = none ∧ holdsToken s ∧ outstanding s.crew .matrix < 4095

/-- An operation handed to the engine: it is in flight and comes last in the core's order (R220). -/
def handed (s : State) (k : OpKind) (t : State) : State :=
  modCore (coreOf t) (fun x => { x with engine := x.engine ++ [t.crew.key] })
    (onC (fun c => { c with ops := c.ops ++ [op s .matrix k []] }) t)

/-- The image that an mloop names is a whole one of its format, holds the block range, and its header and bitmap have no parity
error (R223, R225, R226, R363). -/
def imageFits (s : State) (woff fmt jb kb n f : Nat) : Prop :=
  let h := imageOf (wtRd s woff 32)
  imageOk h = true ∧ woff % 16 = 0 ∧ woff + imageLen h (wtRd s (woff + 32) (bitmapBytes h)) ≤ 0x80000 ∧ h.efmt = fmt ∧
    kb + n * mDepth fmt ≤ 16 * h.kblk ∧ jb + shCols f ≤ h.ncol ∧ jb % 16 = 0 ∧ kb % mDepth fmt = 0 ∧
    weightSound s woff 32 = true ∧ weightSound s (woff + 32) (bitmapBytes h) = true

/-- A transfer's command registers are in order and its bytes stay in their apertures (R345). -/
def transferFits (s : State) (a : Nat) (sig : Bool) : Prop :=
  s.crew.region = none ∧ transferOk s a sig = true ∧
    transferOut s (rdS s a) (rdS s (a + 1)) (fld (rdS s (a + 2)) 31 0) = none ∧ outstanding s.crew .fabric < 4095

/-- The number of the next run of the stream in use (R293, R347). -/
def nextRunOf (s : State) : Nat := if s.crew.handler.isSome then s.crew.ln.nextHSeq else s.crew.ln.nextSeq

/-- A fabric operation in flight (R346, R347). -/
def sent (s : State) (f : FabOp) : State :=
  onC (fun c => { c with ops := c.ops ++ [op s .fabric (.fabric f) []] }) s

end Sys2Proof.Expect

/-! ## Matrix, sparse, solve, fabric, slices -/

/-- R219: mat.token.take by the holder, or of a free token that no earlier crew waits for, is done at once; of a token
that another crew holds, it waits. mat.token.pass with nobody waiting frees the token, in deterministic mode for the flush of
its interval to settle who takes it (the model's choice, log entry 27); with one crew of the team waiting, that crew takes
it and goes on. mat.token.query reads whether the
crew holds it. R219, R220: passing a token, or issuing to the engine, without holding it traps 0x12; here for the forms
that check it first. R216, R217: acc.alloc of names not bound, when the core has room and no other crew waits for banks,
binds n fresh banks to the names and goes on; acc.free of bound names that no operation uses takes the bindings away. -/
def Obligations.MatrixTokenAndBanks : Prop :=
  ((∀ s : State, Expect.holdsToken s → exec .matTokenTake s = Expect.goesOn s s) ∧
  (∀ s : State, (coreAt s (coreOf s)).token = none → (coreAt s (coreOf s)).passer = none → isDet s = false →
    (∀ c ∈ coreCrews s (coreOf s), wantsToken c = false) →
    exec .matTokenTake s = Expect.goesOn s (modCore (coreOf s) (fun x => { x with token := some s.crew.key }) s)) ∧
  (∀ (s : State) (k : CrewKey), (coreAt s (coreOf s)).token = some k → k ≠ s.crew.key →
    exec .matTokenTake s = Expect.waits s (.token (s.crew.clock / flushF s.job))) ∧
  (∀ s : State, Expect.holdsToken s → isDet s = false → (∀ c ∈ coreCrews s (coreOf s), wantsToken c = false) →
    exec .matTokenPass s = Expect.goesOn s (modCore (coreOf s) (fun x => { x with token := none, passer := none }) s)) ∧
  (∀ s : State, Expect.holdsToken s → isDet s = true → exec .matTokenPass s = Expect.goesOn s (modCore (coreOf s) (fun x =>
      { x with token := none, freedAt := s.crew.clock / flushF s.job, passer := some s.crew.key }) s)) ∧
  (∀ (s : State) (c : Crew), Expect.inFocus s → Expect.holdsToken s → isDet s = false → c.key ≠ s.crew.key →
    c.key.job = s.crew.key.job → c.key.team = s.crew.key.team → c.hadToken = false → findCrew s c.key = some c →
    (coreCrews s (coreOf s)).filter wantsToken = [c] →
    ∃ t, exec .matTokenPass s = .next t ∧ (coreAt t (coreOf s)).token = some c.key ∧ t.crew.wait = .none ∧
      t.crew.sc = { s.crew.sc with pc := s.crew.sc.pc + 4 } ∧
      ∃ d ∈ t.crews, d.key = c.key ∧ d.wait = .none ∧ d.sc.pc = c.sc.pc + 4) ∧
  (∀ (s : State) (c : BitVec 4), exec (.matTokenQuery c) s =
    Expect.goesOn s (wrC c.toNat (decide ((coreAt s (coreOf s)).token = some s.crew.key)) s))) ∧
  ((∀ s : State, ¬ Expect.holdsToken s → exec .matTokenPass s = Expect.traps s 0x12 0) ∧
  (∀ (s : State) (a b : BitVec 6), roleMay (roleOf s) .matrix = true → ¬ Expect.holdsToken s →
    exec (.matWload a b) s = Expect.traps s 0x12 0) ∧
  (∀ (s : State) (d : BitVec 4), roleMay (roleOf s) .matrix = true → s.crew.region = none → ¬ Expect.holdsToken s →
    exec (.matZeroFp d) s = Expect.traps s 0x12 0)) ∧
  ((∀ (s : State) (d : BitVec 4) (n : BitVec 5) (core : Nat), Expect.inFocus s → s.team.place = .resident core →
    s.crew.region = none → isDet s = false → 1 ≤ n.toNat → s.crew.spilled = [] → (∀ c ∈ s.crews, accNeed c = 0) →
    (∀ i, d.toNat ≤ i → i < d.toNat + n.toNat → bankOf s i = none) → banksUsed s core + n.toNat ≤ 16 →
    ∃ t, exec (.accAlloc d n) s = .next t ∧ t.crew.sc = { s.crew.sc with pc := s.crew.sc.pc + 4 } ∧ t.crew.wait = .none ∧
      ∀ i, bankOf t i = if d.toNat ≤ i ∧ i < d.toNat + n.toNat then some ⟨.fp, 0, none, 0, 0, []⟩ else bankOf s i) ∧
  (∀ (s : State) (d : BitVec 4) (n : BitVec 5), s.crew.region = none → isDet s = false →
    (∀ c ∈ allCrews s, accNeed c = 0) → (∀ i, d.toNat ≤ i → i < d.toNat + n.toNat → (bankOf s i).isSome = true) →
    (∀ o ∈ s.crew.ops, ∀ b, opBank o = some b → b < d.toNat ∨ d.toNat + n.toNat ≤ b) →
    ∃ t, exec (.accFree d n) s = Expect.goesOn s t ∧
      t = { s with crew := { s.crew with banks := ((List.range n.toNat).map (· + d.toNat)).foldl smDel s.crew.banks } } ∧
      ∀ i, bankOf t i = if d.toNat ≤ i ∧ i < d.toNat + n.toNat then none else bankOf s i))

/-- R224: mat.wload with a readable image that matches R223 and fits the weight space, which no operation in flight uses, and
whose granules are in the core's weight buffer or find room in it (R222; which count is the model's choice, log entry 48),
writes its header and bitmap there and hands the load of its blocks to the engine. R225, R226, R230: an mloop without a handle
whose A rows lie in the scratchpad, aligned, whose image fits and whose bank has the kind of its format and a free or equal
shape, is handed to the engine with its step count; the stream goes on after its two words. R363: with a parity error in a
granule of the image's header it traps 0x15 with all ones in trap.info instead. R228, R229: mat.zero of a bound bank, with an
exponent from -512 to 511 for the exact form, and mat.drain of a bank with a shape to aligned rows in the scratchpad, are
handed to the engine. That actl.FMTE is read here is the model's choice (log entry 10). -/
def Obligations.MatrixOperationsIssue : Prop :=
  (∀ (s t1 t2 : State) (a b : BitVec 6) (hb bm : List Byte) (p : W64) (woff : Nat) (h : Image),
    p = rdS s a.toNat → woff = (rdS s b.toNat).toNat → h = imageOf hb →
    roleMay (roleOf s) .matrix = true → Expect.holdsToken s → (isGlobal p = true ∨ isSpad p = true) →
    apBad s 32 p 32 = false → p.toNat % 16 = 0 → memRead 32 p 32 s = .ok (hb, t1) → imageOk h = true →
    memRead 32 (p + 32) (bitmapBytes h) t1 = .ok (bm, t2) → woff < 2 ^ 19 → woff % 16 = 0 →
    woff + imageLen h bm ≤ 0x80000 → (apRange s p).1 ≤ p.toNat → (p.toNat : Int) + imageLen h bm ≤ (apRange s p).2 →
    (∀ q ∈ weightUsers s, overlaps q.1 q.2 woff (imageLen h bm) = false) → outstanding s.crew .matrix < 4095 →
    (∀ g ∈ wtGranules woff (imageLen h bm), s.team.absent.contains g = false) →
    granulesOn s (coreOf s) +
      ((wtGranules woff (imageLen h bm)).filter (fun g => !(usedGranules s s.team).contains g)).length ≤ 128 →
    ∀ u, u = wtWr woff (hb ++ bm) t2 → exec (.matWload a b) s =
      Expect.goesOn s (Expect.handed u (.wload p woff (32 + bitmapBytes h) (imageLen h bm)) u)) ∧
  (∀ (s : State) (d : BitVec 4) (a : BitVec 6) (rm fmt : BitVec 3) (f : BitVec 2) (i : BitVec 32) (x : Bank)
    (ptr c1 c2 : W64), ptr = rdS s a.toNat → c1 = rdS s (a.toNat + 1) → c2 = rdS s (a.toNat + 2) →
    Expect.mayIssue s .matrix → bankOf s d.toNat = some x → s.crew.spilled.contains d.toNat = false →
    c1.getLsbD 25 = false → fld c1 31 19 = 0 →
    isSpad ptr = true → mbzBad ptr = false →
    aInside ⟨fld ptr 19 0, 0, spadBytes s⟩ (sVal 32 (fld c2 63 32)) (fld c2 31 0) (shRows f.toNat) (mChunk fmt.toNat) i.toNat = true →
    (∀ unit, unit = (if fmt.toNat = 6 then 2 else mChunk fmt.toNat) →
      ptr.toNat % unit = 0 ∧ sVal 32 (fld c2 63 32) % unit = 0 ∧ fld c2 31 0 % unit = 0) →
    Expect.imageFits s (fld c1 18 0) fmt.toNat (fld c1 63 48) (fld c1 47 32) i.toNat f.toNat →
    (bankView s.crew d.toNat x).kind = (if fmt.toNat ≤ 1 then .fp else .fx) →
    ((bankView s.crew d.toNat x).shape = none ∨ (bankView s.crew d.toNat x).shape = some f.toNat) →
    exec (.mloop d a rm fmt f i) s = .next (finish (s.crew.sc.pc + 8) (Expect.handed s
      (.mloop ⟨d.toNat, fmt.toNat, f.toNat, rmAt s rm.toNat, fld ptr 19 0, sVal 32 (fld c2 63 32), fld c2 31 0,
        fld c1 63 48, fld c1 47 32, fld c1 18 0, none, i.toNat, 0, 0, s.crew.sc.fmte⟩) s))) ∧
  (∀ (s : State) (d : BitVec 4) (a : BitVec 6) (rm fmt : BitVec 3) (f : BitVec 2) (i : BitVec 32) (x : Bank)
    (ptr c1 c2 : W64), ptr = rdS s a.toNat → c1 = rdS s (a.toNat + 1) → c2 = rdS s (a.toNat + 2) →
    Expect.mayIssue s .matrix → bankOf s d.toNat = some x → s.crew.spilled.contains d.toNat = false →
    c1.getLsbD 25 = false → isSpad ptr = true → mbzBad ptr = false →
    aInside ⟨fld ptr 19 0, 0, spadBytes s⟩ (sVal 32 (fld c2 63 32)) (fld c2 31 0) (shRows f.toNat) (mChunk fmt.toNat) i.toNat = true →
    (∀ unit, unit = (if fmt.toNat = 6 then 2 else mChunk fmt.toNat) →
      ptr.toNat % unit = 0 ∧ sVal 32 (fld c2 63 32) % unit = 0 ∧ fld c2 31 0 % unit = 0) →
    weightSound s (fld c1 18 0) 32 = false →
    exec (.mloop d a rm fmt f i) s = Expect.traps s 0x15 (BitVec.allOnes 64)) ∧
  ((∀ (s : State) (d : BitVec 4) (x : Bank), Expect.mayIssue s .matrix → bankOf s d.toNat = some x →
    s.crew.spilled.contains d.toNat = false →
    exec (.matZeroFp d) s = Expect.goesOn s (Expect.handed s (.mzero d.toNat none) s) ∧
    ∀ a : BitVec 6, -512 ≤ (rdS s a.toNat).toInt → (rdS s a.toNat).toInt ≤ 511 →
      exec (.matZeroFx d a) s = Expect.goesOn s (Expect.handed s (.mzero d.toNat (some (rdS s a.toNat).toInt)) s)) ∧
  (∀ (s : State) (d : BitVec 4) (a b : BitVec 6) (x : Bank) (p w : W64) (f : Nat), Expect.mayIssue s .matrix →
    bankOf s d.toNat = some x → s.crew.spilled.contains d.toNat = false → p = rdS s a.toNat → w = rdS s b.toNat →
    (bankView s.crew d.toNat x).shape = some f →
    isSpad p = true → mbzBad p = false → p.toNat % 16 = 0 → fld w 31 0 % 16 = 0 → fld w 63 48 = 0 → fld w 40 32 = 0 →
    fld w 47 45 ≤ 5 → fld w 44 42 ≤ 5 → shWidth f * mSize (fld w 47 45) ≤ fld w 31 0 →
    fld p 19 0 + (1024 / shWidth f - 1) * fld w 31 0 + shWidth f * mSize (fld w 47 45) ≤ spadBytes s →
    exec (.matDrain d a b) s = Expect.goesOn s (Expect.handed s
      (.mdrain ⟨d.toNat, fld p 19 0, fld w 31 0, fld w 47 45, rmAt s (fld w 44 42), w.getLsbD 41⟩) s)))

namespace Sys2Proof.Expect

/-- The scalar instructions that trap 0x02 inside an idempotent region, each with the engine class that its role check
asks for first (R27, R273). -/
def barred : Instr → Option (Option EngClass)
  | .amo _ _ _ _ _ _ | .qPush _ _ _ | .qPushTry _ _ _ _ | .qPop _ _ _ | .qPopTry _ _ _ _ | .spawnTry _ _ _ | .barMark _
  | .barMeet _ | .hClaim _ | .hTry _ _ | .hRclaim _ | .hRelease _ | .accAlloc _ _ | .accFree _ _ | .fxPut _ | .fxPutSet _ _
  | .fxPutAdd _ _ | .fxGet _ | .fxSignalSet _ _ | .fxSignalAdd _ _ | .fxWait _ _ | .fxWaitTry _ _ _ | .fxReduce _
  | .tabLoad _ _ _ | .graft _ | .exit | .irBegin _ _ => some none
  | .cpIssue _ _ | .cpIssueBar _ _ _ | .cpIssueRing _ _ | .cpYield _ _ => some (some .copy)
  | .mloop _ _ _ _ _ _ | .matDrain _ _ _ | .matZeroFx _ _ | .matZeroFp _ => some (some .matrix)
  | .spTmul _ _ _ _ => some (some .spt)
  | _ => none

/-- The forms that write one scalar register whatever state they find (R100 to R104, R106, R109, R114, R191, R205, R327). -/
def plainDest (s : State) (i : Instr) (d : BitVec 6) : Prop :=
  (∃ o w a b, intOp i = some (o, w, d, a, b)) ∨ (∃ v f, floatOp s i = some (d, v, f)) ∨ (∃ v n, immOp s i = some (d, v, n)) ∨
  (∃ a, i = .predGet d a) ∨ (∃ n, i = .loop d n) ∨ (∃ n, i = .xrd d n) ∨ (∃ a, i = .hState d a) ∨ i = .detFlush d ∨
  (∃ a w o, i = .ld d a w o ∨ i = .ldRo d a w o)

end Sys2Proof.Expect

/-- R272, R273: ir.begin outside a region opens one with its live-ins; ir.end closes it once its runs, gathers and
scatters are done, those that the Sieve holds included. Inside a region a write of a live-in traps 0x02, and so does every
scalar instruction of the list of R273, its role allowing it, with no effect; so do a second ir.begin and an ir.end
outside one. The lane instructions of the list are among the lane statements. R139, R140: tab.load of a readable record,
with no run left, loads the table of its bank and sets cN when the record is a good one, and empties it and clears cN when
it is not. -/
def Obligations.RegionsAndTables : Prop :=
  ((∀ (s : State) (a b : BitVec 6) (w : W64), w = rdS s b.toNat → s.crew.region = none → fld w 63 21 = 0 →
    fld w 20 10 ≤ 1024 → fld w 9 0 + fld w 20 10 ≤ 1024 →
    exec (.irBegin a b) s = Expect.goesOn s { s with crew := { s.crew with
      region := some ⟨rdS s a.toNat, fld w 9 0, fld w 20 10, s.crew.sc.pc, s.crew.clock, 0, s.crew.ln.nextSeq⟩ } }) ∧
  (∀ s : State, s.crew.region.isSome = true → regionRuns s.crew = false → opCount s.crew .gather = 0 →
    opCount s.crew .scatter = 0 → sieveOf .scatter s.crew = [] →
    exec .irEnd s = Expect.goesOn s { s with crew := { s.crew with region := none } }) ∧
  (∀ (s : State) (i : Instr) (d : BitVec 6), Expect.plainDest s i d → liveIn s d.toNat = true →
    exec i s = Expect.traps s 0x02 0) ∧
  (∀ (s : State) (c : BitVec 4) (n : BitVec 1) (o : BitVec 21), Expect.goes s c n = true → liveIn s 63 = true →
    exec (.call c n o) s = Expect.traps s 0x02 0) ∧
  (∀ (s : State) (d a : BitVec 6) (n : BitVec 1) (c : BitVec 4), Expect.goes s c n = true →
    Expect.inCode (rdS s a.toNat) = true → Expect.onWord (rdS s a.toNat) = true → liveIn s d.toNat = true →
    exec (.calli d a n c) s = Expect.traps s 0x02 0) ∧
  (∀ (s : State) (d : BitVec 6), liveIn s d.toNat = true →
    (∀ (b : BitVec 5) (x : Barrier), barrierOf s b.toNat = some x → exec (.barPhase d b) s = Expect.traps s 0x02 0) ∧
    (∀ (a : BitVec 6) (r : RingDesc), ringDesc (rdS s a.toNat) = .ok r → exec (.hRadv d a) s = Expect.traps s 0x02 0) ∧
    (roleMay (roleOf s) .solve = true → exec (.svStat d) s = Expect.traps s 0x02 0)) ∧
  (∀ (s : State) (i : Instr) (k : Option EngClass), Expect.barred i = some k → s.crew.region.isSome = true →
    (∀ c, k = some c → roleMay (roleOf s) c = true) → (∀ c a b, i = .spawnTry c a b → s.crew.key.crew = 0) →
    exec i s = Expect.traps s 0x02 0) ∧
  (∀ s : State, s.crew.region = none → exec .irEnd s = Expect.traps s 0x02 0)) ∧
  (∀ (s t : State) (c : BitVec 4) (a : BitVec 6) (b : BitVec 1) (bytes : List Byte), s.crew.region = none →
    (isGlobal (rdS s a.toNat) = true ∨ isSpad (rdS s a.toNat) = true) → apBad s 32 (rdS s a.toNat) 1040 = false →
    (rdS s a.toNat).toNat % 16 = 0 → runsOut s.crew = 0 → memRead 32 (rdS s a.toNat) 1040 s = .ok (bytes, t) →
    exec (.tabLoad c a b) s = Expect.goesOn s (wrC c.toNat (tabRec bytes).isSome
      (if b = 1 then { t with team := { t.team with tab1 := tabRec bytes } }
       else { t with team := { t.team with tab0 := tabRec bytes } })))

/-- R312, R327, R328: in a handler slc.extend adds to the budget what the queue's cap leaves, and sets cN when that is all it
asked for; with BUDGET 0 it only sets cN. That the queue is that of the executing job slice, and when an exhausted budget is
one no longer, is the model's choice (log entries 38, 28). slc.abort aborts the job slice with REASON 3; slc.qfree reads the
free places of a queue, all of them in deterministic mode. R325, R327, R329: det.digest with nothing to wait for acquires and
reads the queue's chain value into four registers; det.out declares a region of the output set; det.flush reads the interval,
0 outside deterministic mode; det.sync waits for the flush of the interval in deterministic mode and is done at once outside
it. -/
def Obligations.SliceAndDeterministic : Prop :=
  ((∀ (s : State) (c : BitVec 4) (a : BitVec 6) (o : Job) (g : Nat), s.crew.handler.isSome = true →
    findJob s s.job.budgetOwner = some o → o.rcd.budget ≠ 0 →
    g = min (rdS s a.toNat).toNat ((sliceQ s s.job.queue).xcap.toNat - o.extended) →
    exec (.slcExtend c a) s = Expect.goesOn s (wrC c.toNat (decide (g = (rdS s a.toNat).toNat))
      (modJob o.take (fun j => { j with
        extended := j.extended + g
        exhausted := j.exhausted && decide (j.rcd.budget.toNat + j.extended + g ≤ j.charged) }) s))) ∧
  (∀ (s : State) (c : BitVec 4) (a : BitVec 6) (o : Job), s.crew.handler.isSome = true →
    findJob s s.job.budgetOwner = some o → o.rcd.budget = 0 →
    exec (.slcExtend c a) s = Expect.goesOn s (wrC c.toNat true s)) ∧
  (∀ (s : State) (c : BitVec 4) (a : BitVec 6), s.crew.handler = none →
    exec (.slcExtend c a) s = Expect.traps s 0x01 (BitVec.ofNat 64 (0x84000000 + c.toNat * 2 ^ 20 + a.toNat * 2 ^ 14))) ∧
  (∀ s : State, exec .slcAbort s = .next (abortJob s.crew.key.job 3 0 s)) ∧
  (∀ (s : State) (d a : BitVec 6) (q : SliceQueue), q = sliceQ s ((rdS s a.toNat).toNat % 64) →
    (qSecure q.qctl = false ∨ s.job.secure = true) → liveIn s d.toNat = false →
    exec (.slcQfree d a) s = Expect.goesOn s (wrS d.toNat (BitVec.ofNat 64
      (if isDet s then fld q.qctl 16 0 else fld q.qctl 16 0 - q.recs.length)) s))) ∧
  ((∀ (s : State) (d : BitVec 4) (a : BitVec 6) (q : SliceQueue), q = sliceQ s ((rdS s a.toNat).toNat % 64) →
    (qSecure q.qctl = false ∨ s.job.secure = true) → s.crew.region = none → s.crew.ops = [] → s.crew.sieve = [] →
    runsOut s.crew = 0 → ackWaits s = [] →
    exec (.detDigest d a) s = Expect.goesOn s
      (wrS (4 * d.toNat + 3) (BitVec.ofNat 64 (bytesToNat ((q.digest.drop 24).take 8)))
        (wrS (4 * d.toNat + 2) (BitVec.ofNat 64 (bytesToNat ((q.digest.drop 16).take 8)))
          (wrS (4 * d.toNat + 1) (BitVec.ofNat 64 (bytesToNat ((q.digest.drop 8).take 8)))
            (wrS (4 * d.toNat) (BitVec.ofNat 64 (bytesToNat (q.digest.take 8))) (fenceLines 5 false true s)))))) ∧
  (∀ (s : State) (a b : BitVec 6) (p : W64) (n : Nat), p = rdS s a.toNat → n = (rdS s b.toNat).toNat →
    isGlobal p = true → mbzBad p = false →
    (n = 0 → exec (.detOut a b) s = Expect.goesOn s s) ∧
    (n ≠ 0 → n ≤ 2 ^ 40 → s.job.regionCount < 64 → exec (.detOut a b) s = Expect.goesOn s { s with job := { s.job with
      regionCount := s.job.regionCount + 1
      regions := if isDet s then s.job.regions ++ [(fld p 55 0, n)] else s.job.regions } })) ∧
  (∀ (s : State) (d : BitVec 6), liveIn s d.toNat = false → exec (.detFlush d) s = Expect.goesOn s (wrS d.toNat
    (if isDet s then BitVec.ofNat 64 (s.crew.clock / 2 ^ s.job.rcd.detexp) else 0) s)) ∧
  (∀ s : State, isDet s = false → exec .detSync s = Expect.goesOn s s) ∧
  (∀ s : State, isDet s = true → exec .detSync s = Expect.waits s (.released (s.crew.clock / 2 ^ s.job.rcd.detexp))))

/-- R344 to R347: a transfer or a signal whose command registers are in order is put in flight, with its signal. R348:
fx.wait on a readable word that is at least sB, as unsigned numbers, with nothing for its acquire to wait for, acquires
at system scope and goes on; on a smaller word it waits. fx.wait.try writes the test to cN and acquires only when it is
true. R349, R350: fx.reduce with a good plan that lists this device, and operands in their apertures, reads its inputs,
puts the reduction in flight and its own contribution on its way; here for a plan of one element. R350: the first
contribution to an identity and epoch begins the reduction; another one joins it, one of a rank that is in changes nothing,
and one that disagrees on the plan spoils it, which is the model's choice (log entry 37). -/
def Obligations.FabricInstructions : Prop :=
  ((∀ (s : State) (a : BitVec 4), Expect.transferFits s (4 * a.toNat) false →
    exec (.fxPut a) s = Expect.goesOn s (Expect.sent s ⟨false, rdS s (4 * a.toNat), rdS s (4 * a.toNat + 1),
      fld (rdS s (4 * a.toNat + 2)) 31 0, none, Expect.nextRunOf s, s.crew.handler.isSome, s.crew.sieveOrder⟩) ∧
    exec (.fxGet a) s = Expect.goesOn s (Expect.sent s ⟨true, rdS s (4 * a.toNat), rdS s (4 * a.toNat + 1),
      fld (rdS s (4 * a.toNat + 2)) 31 0, none, Expect.nextRunOf s, s.crew.handler.isSome, s.crew.sieveOrder⟩)) ∧
  (∀ (s : State) (a : BitVec 4) (b : BitVec 6), Expect.transferFits s (4 * a.toNat) true →
    exec (.fxPutSet a b) s = Expect.goesOn s (Expect.sent s ⟨false, rdS s (4 * a.toNat), rdS s (4 * a.toNat + 1),
      fld (rdS s (4 * a.toNat + 2)) 31 0, some (rdS s (4 * a.toNat + 3), rdS s b.toNat, false), Expect.nextRunOf s,
      s.crew.handler.isSome, s.crew.sieveOrder⟩) ∧
    exec (.fxPutAdd a b) s = Expect.goesOn s (Expect.sent s ⟨false, rdS s (4 * a.toNat), rdS s (4 * a.toNat + 1),
      fld (rdS s (4 * a.toNat + 2)) 31 0, some (rdS s (4 * a.toNat + 3), rdS s b.toNat, true), Expect.nextRunOf s,
      s.crew.handler.isSome, s.crew.sieveOrder⟩)) ∧
  (∀ (s : State) (a b : BitVec 6), s.crew.region = none → remoteOk (rdS s a.toNat) = true →
    fld (rdS s a.toNat) 47 0 + 8 ≤ 2 ^ 48 → outstanding s.crew .fabric < 4095 →
    exec (.fxSignalSet a b) s = Expect.goesOn s (Expect.sent s ⟨false, 0, rdS s a.toNat, 0,
      some (rdS s a.toNat, rdS s b.toNat, false), Expect.nextRunOf s, s.crew.handler.isSome, s.crew.sieveOrder⟩) ∧
    exec (.fxSignalAdd a b) s = Expect.goesOn s (Expect.sent s ⟨false, 0, rdS s a.toNat, 0,
      some (rdS s a.toNat, rdS s b.toNat, true), Expect.nextRunOf s, s.crew.handler.isSome, s.crew.sieveOrder⟩))) ∧
  (∀ (s t : State) (a b : BitVec 6) (bytes : List Byte), s.crew.region = none →
    (isGlobal (rdS s a.toNat) = true ∨ isSpad (rdS s a.toNat) = true) →
    memRead 32 (rdS s a.toNat) 8 s = .ok (bytes, t) → bytesToNat bytes < 2 ^ 64 →
    ((rdS s b.toNat).toNat ≤ bytesToNat bytes → Expect.settled s 6 false true →
      exec (.fxWait a b) s = Expect.goesOn s (fenceLines 6 false true t) ∧
      ∀ c : BitVec 4, exec (.fxWaitTry c a b) s = Expect.goesOn s (wrC c.toNat true (fenceLines 6 false true t))) ∧
    (bytesToNat bytes < (rdS s b.toNat).toNat →
      exec (.fxWait a b) s = Expect.waits s .other ∧
      ∀ c : BitVec 4, exec (.fxWaitTry c a b) s = Expect.goesOn s (wrC c.toNat false t))) ∧
  (∀ (s s1 s2 s3 : State) (a : BitVec 4) (pb pl v : List Byte) (x : Plan) (peers : List Nat) (rank n : Nat)
    (plan inp out epoch : W64), plan = rdS s (4 * a.toNat) → inp = rdS s (4 * a.toNat + 1) → out = rdS s (4 * a.toNat + 2) →
    epoch = rdS s (4 * a.toNat + 3) → s.crew.region = none → isGlobal plan = true → mbzBad plan = false →
    plan.toNat % 64 = 0 → memRead 32 plan 64 s = .ok (pb, s1) → x = planOf pb → planOk x = true → x.count = 1 →
    memRead 32 (plan + 64) (2 * x.p) s1 = .ok (pl, s2) → planPeers pl x.p = some peers →
    peers.findIdx? (· == fxSelf s) = some rank → n = tyWidth (tyOf x.ty) / 8 →
    (∀ p ∈ [inp, out], (isGlobal p = true ∨ isSpad p = true) ∧ mbzBad p = false ∧ p.toNat % n = 0 ∧ apBad s 32 p n = false) →
    outstanding s.crew .fabric < 4095 → memRead 32 inp n s2 = .ok (v, s3) →
    exec (.fxReduce a) s = Expect.goesOn s
      (onC (fun c => { c with ops := c.ops ++ [Expect.op s .fabric
        (.reduce ⟨x.id, epoch, x.p, x.ty, x.op, 1, rank, peers, out⟩) []] })
        (putContribution ⟨x.id, epoch, rank, x.p, x.ty, x.op, 1, [BitVec.ofNat 64 (bytesToNat v)]⟩ s3))) ∧
  (∀ (s : State) (c : Contribution),
    ((∀ r ∈ s.reduces, r.planid ≠ c.planid ∨ r.epoch ≠ c.epoch) →
      putContribution c s = { s with reduces := s.reduces ++ [⟨c.planid, c.epoch, [c], false⟩] }) ∧
    ((∃ r ∈ s.reduces, r.planid = c.planid ∧ r.epoch = c.epoch) →
      putContribution c s = { s with reduces := s.reduces.map (fun r =>
        if r.planid = c.planid ∧ r.epoch = c.epoch ∧ r.got.all (fun x => x.rank != c.rank) = true then
          { r with
            got := r.got ++ [c]
            bad := r.bad || r.got.any (fun x => x.p != c.p || x.ty != c.ty || x.op != c.op || x.count != c.count) }
        else r) }))

/-- R262, R265, R268, R269, R271: sp.tload of a tile that the cluster's cache holds binds the register, as a hit if it is
compiled; of one that it does not hold, with a well-formed structure, it appends an entry for Espalier to compile and binds
the register without a hit. While the tile is not compiled, or behind another matrix operation in flight, it is counted.
sp.tstat reads a binding and whether its compile is pending, in deterministic mode with no hit and only once nothing is
pending, or 3 where there is none; sp.part with a range and shares in order puts the partition in flight; sp.tmul of a bound
tile is handed to the engine. That lines of structure and page tables make an entry invalid, and that actl.FMTE is read here,
are the model's choice (log entries 9, 10). R332, R333, R339: each command of the solve unit whose descriptor meets R332,
aligned and inside the scratchpad, starts and blocks the stream until the unit has finished; sv.ref asks for mixed arithmetic.
sv.stat reads the last command's summary, in a role that may solve (R27). -/
def Obligations.SparseAndSolveCommands : Prop :=
  ((∀ (s t : State) (n : BitVec 3) (a : BitVec 6) (hb : List Byte) (p : W64) (gen : W32), p = rdS s a.toNat →
    roleMay (roleOf s) .spt = true → isGlobal p = true → mbzBad p = false → p.toNat % 64 = 0 →
    memRead 32 p 64 s = .ok (hb, t) → tileHdrOk (tileHdr hb) = true → outstanding s.crew .matrix < 4095 →
    gen = BitVec.ofNat 32 (tileHdr hb).gen →
    ∀ bound : Tile → State → State,
      (∀ y u, bound y u = onC (fun c => { c with tiles := smSet none c.tiles n.toNat (some y) }) u) →
    ∀ loading : State → State,
      (∀ u, loading u = onC (fun c => { c with ops := c.ops ++ [Expect.op u .matrix (.tload p gen) []] }) u) →
    (∀ e, espFind t p gen = some e →
      (e.compiled = true → t.crew.ops.any isTload = false →
        ((∀ o ∈ t.crew.ops, o.cls = .matrix → opLive o = false) →
          exec (.spTload n a) s = Expect.goesOn s (bound ⟨p, gen, e.efmt, e.path, e.nnz, e.u, true⟩ t)) ∧
        ((∃ o ∈ t.crew.ops, o.cls = .matrix ∧ opLive o = true) → ∃ y, y = bound ⟨p, gen, e.efmt, e.path, e.nnz, e.u, true⟩ t ∧
          exec (.spTload n a) s = Expect.goesOn s (onC (fun c => { c with ops := c.ops ++ [Expect.op y .matrix .ended []] }) y))) ∧
      (e.compiled = false ∨ t.crew.ops.any isTload = true →
        exec (.spTload n a) s = Expect.goesOn s (loading (bound ⟨p, gen, e.efmt, e.path, e.nnz, e.u, e.compiled⟩ t)))) ∧
    (∀ (h : TileHdr) (sb : List Byte) (u : State) (rows : List (List Nat)), espFind t p gen = none → h = tileHdr hb →
      memRead 32 h.sptr (structBytes h) t = .ok (sb, u) → tileRows h sb = some rows →
      exec (.spTload n a) s = Expect.goesOn s (loading (bound
        ⟨p, gen, h.efmt, (tilePath h.nnz h.efmt rows).2, h.nnz, (tilePath h.nnz h.efmt rows).1, false⟩
        { u with espalier := u.espalier ++ [⟨clusterOf (coreOf u), u.job.secure, asidOf u.job.root, p, gen, h.efmt,
          (tilePath h.nnz h.efmt rows).2, h.nnz, (tilePath h.nnz h.efmt rows).1, rows, h.vptr,
          heldLines u (fld p 55 0) 64 ++ heldLines u (fld h.sptr 55 0) (structBytes h),
          builtAtHome u p hb h.sptr sb, false, false⟩] })))) ∧
  (∀ (s : State) (d : BitVec 6) (n : BitVec 3), roleMay (roleOf s) .spt = true → liveIn s d.toNat = false →
    smGet none s.crew.tiles n.toNat = none → exec (.spTstat d n) s = Expect.goesOn s (wrS d.toNat 3 s)) ∧
  (∀ (s : State) (d : BitVec 6) (n : BitVec 3) (x : Tile), roleMay (roleOf s) .spt = true → liveIn s d.toNat = false →
    smGet none s.crew.tiles n.toNat = some x →
    (isDet s = false → exec (.spTstat d n) s = Expect.goesOn s (wrS d.toNat (BitVec.ofNat 64
      (x.path + (if espPending s x.addr x.gen then 4 else 0) + (if x.hit then 8 else 0) + 16 * x.efmt + 2 ^ 8 * x.nnz +
        2 ^ 24 * x.u)) s)) ∧
    (isDet s = true → espPending s x.addr x.gen = false → exec (.spTstat d n) s = Expect.goesOn s (wrS d.toNat
      (BitVec.ofNat 64 (x.path + 16 * x.efmt + 2 ^ 8 * x.nnz + 2 ^ 24 * x.u)) s)) ∧
    (isDet s = true → espPending s x.addr x.gen = true → exec (.spTstat d n) s = Expect.waits s .other)) ∧
  (∀ (s : State) (d : BitVec 4) (a b : BitVec 6) (ptr w : W64) (l0 l1 : Place), ptr = rdS s a.toNat → w = rdS s b.toNat →
    roleMay (roleOf s) .spt = true → (∀ i, i < 4 → liveIn s (4 * d.toNat + i) = false) → fld w 47 32 ≠ 0 →
    fld w 63 48 < fld w 47 32 → (isGlobal ptr = true ∨ isSpad ptr = true) → locate s 32 ptr 4 0 = .ok l0 →
    isGlobal (rpAt ptr (fld w 31 0)) = isGlobal ptr → isSpad (rpAt ptr (fld w 31 0)) = isSpad ptr →
    locate s 32 (rpAt ptr (fld w 31 0)) 4 0 = .ok l1 → outstanding s.crew .load < 4095 →
    exec (.spPart d a b) s = Expect.goesOn s (onC (fun c => { c with ops := c.ops ++ [Expect.op s .load
      (.part (4 * d.toNat) ptr (fld w 31 0) (fld w 47 32) (fld w 63 48) false) [l0.page, l1.page]] }) s)) ∧
  (∀ (s : State) (d : BitVec 4) (a : BitVec 6) (n r : BitVec 3) (x : Bank) (y : Tile) (p w : W64),
    p = rdS s a.toNat → w = rdS s (a.toNat + 1) → Expect.mayIssue s .spt → bankOf s d.toNat = some x →
    s.crew.spilled.contains d.toNat = false →
    smGet none s.crew.tiles n.toNat = some y → isSpad p = true → mbzBad p = false →
    fld p 19 0 + 63 * fld w 31 0 + denseRow y.efmt ≤ spadBytes s →
    p.toNat % (if y.efmt = 6 then 2 else 16) = 0 → fld w 31 0 % (if y.efmt = 6 then 2 else 16) = 0 → fld w 63 32 = 0 →
    (bankView s.crew d.toNat x).kind = (if y.efmt ≤ 1 then .fp else .fx) →
    ((bankView s.crew d.toNat x).shape = none ∨ (bankView s.crew d.toNat x).shape = some 2) → (y.efmt ≤ 1 ∨ r = 0) →
    exec (.spTmul d a n r) s = Expect.goesOn s (Expect.handed s
      (.tmul ⟨d.toNat, n.toNat, y, fld p 19 0, fld w 31 0, rmAt s r.toNat, s.crew.sc.fmte⟩) s))) ∧
  ((∀ (s : State) (i : Instr) (k : Nat) (a : BitVec 6) (c : SolveCmd),
    (i, k) ∈ [(Instr.svLu a, 0), (.svChol a, 1), (.svTrs a, 2), (.svRef a, 3)] → c = svCmd s k a.toNat →
    roleMay (roleOf s) .solve = true → svOk s a.toNat c = true → (k = 3 → c.arith = 1) → svOutside s c = false →
    c.mptr.toNat % 16 = 0 → s.crew.solve = none →
    exec i s = .next { s with crew := { s.crew with solve := some c, wait := .solve } }) ∧
  (∀ (s : State) (d : BitVec 6), roleMay (roleOf s) .solve = true → liveIn s d.toNat = false →
    exec (.svStat d) s = Expect.goesOn s (wrS d.toNat s.crew.svStat s)))

namespace Sys2Proof.Expect

/-! ### Lane operations (R129 to R132, R143 to R146) -/

/-- The head gang of the crew in focus may issue a lane instruction: the word keeps the rules of R47, its registers are in
the budget, no active lane reads an invalid latch, and D is no declared live-in (R52, R65, R273). -/
def issues (s : State) (i : Instr) (f : LaneFmt) (w : LaneWord) (r : ARun) (g : Gang) : Prop :=
  laneFmt i = some (f, w) ∧ headGang s = some (r, g) ∧ g.members ≠ [] ∧ laneOk f w = true ∧
  laneTop f w ≤ 64 * s.job.rcd.regg ∧
  (∀ b ∈ latchesOf f w, ∀ l ∈ activeLanes s r g w, (latch s l b).isSome = true) ∧
  (f.dn = 0 ∨ f.dpred = true ∨ liveInV s r w.d.toNat f.dn = false)

/-- The run after its head gang has gone on to the next lane instruction: the gang comes last in the rotation (R23). -/
def goneOn (r : ARun) (g : Gang) : ARun := { r with gangs := r.gangs.tail ++ [⟨g.pc + 12, g.members, .ready⟩] }

/-- The flags of the active lanes. -/
def laneFlags (l : List Nat) (val : Nat → Flags) : Flags := (l.map val).foldl (· ||| ·) 0

/-- The flags of widening a 32-bit immediate to binary64, which each active lane does (R56, R86). -/
def wideFlags (w : LaneWord) : Flags := if w.imm = true ∧ w.t = .f64 then (fCvt fmtF32 fmtF64 .rne (imm32 w)).2 else 0

/-- What a lane instruction leaves that gives a value in each active lane: D holds it unless NW, b0 holds it and b0 to b2
have moved up, every other lane and register is as before, the flags are gathered in the run, the gang has gone on, and
the scalar stream, operations in flight and, when no certified quad was overwritten, team and memory are as
before (R53, R54, R62). -/
structure Wrote (s t : State) (f : LaneFmt) (w : LaneWord) (r : ARun) (g : Gang) (val : Nat → Nat × Flags) : Prop where
  regs : ∀ v l, l < 32 → rdV t v l =
    if l ∈ activeLanes s r g w ∧ w.nw = 0 ∧ w.d.toNat ≤ v ∧ v < w.d.toNat + f.dn
    then (val l).1 / 2 ^ (32 * (v - w.d.toNat)) % 2 ^ 32 else rdV s v l
  latches : ∀ l b, l < 32 → b < 4 → latch t l b =
    if l ∈ activeLanes s r g w ∧ f.cert = false
    then (if b = 0 then some (BitVec.ofNat 64 (val l).1) else latch s l (b - 1)) else latch s l b
  run : curRun t.crew = some { goneOn r g with
    flags := r.flags ||| laneFlags (activeLanes s r g w) (fun l => (val l).2 ||| wideFlags w) }
  rest : t.crew.sc = s.crew.sc ∧ t.crew.ops = s.crew.ops ∧
    t.crew.clock = s.crew.clock + 1 ∧ t.crews = s.crews
  place : (∀ l ∈ activeLanes s r g w, ∀ v, w.d.toNat ≤ v → v < w.d.toNat + f.dn → hTag s v l = false) →
    t.team = s.team ∧ t.mem = s.mem

/-- The same for a predicate destination; registers and latches are as before (R143, R145). -/
structure WrotePred (s t : State) (w : LaneWord) (r : ARun) (g : Gang) (val : Nat → Bool × Flags) : Prop where
  preds : ∀ p l, l < 32 → rdP t p l =
    if l ∈ activeLanes s r g w ∧ p = w.d.toNat then (val l).1 else rdP s p l
  run : curRun t.crew = some { goneOn r g with
    flags := r.flags ||| laneFlags (activeLanes s r g w) (fun l => (val l).2 ||| wideFlags w) }
  rest : t.crew.ln.regs.vregs = s.crew.ln.regs.vregs ∧ t.crew.ln.regs.latches = s.crew.ln.regs.latches ∧
    t.crew.sc = s.crew.sc ∧ t.crew.ops = s.crew.ops ∧ t.crew.clock = s.crew.clock + 1 ∧ t.team = s.team ∧
    t.mem = s.mem ∧ t.crews = s.crews

/-- A result of n bits as a number. -/
def res {n : Nat} (x : BitVec n × Flags) : Nat × Flags := (x.1.toNat, x.2)

/-- An exact integer narrowed to a type: modulo 2^n, or clamped under the saturating modifier (R84, R130). -/
def narrow (t : Ty) (sat : Bool) (x : Int) : Nat × Flags :=
  if sat then (if tySigned t then res (satS (n := tyWidth t) x) else res (satZ (n := tyWidth t) x))
  else res ((BitVec.ofInt (tyWidth t) x, 0) : BitVec (tyWidth t) × Flags)

/-- The integer that an operand of a type stands for. -/
def int (t : Ty) (a : Nat) : Int :=
  if tySigned t then (BitVec.ofNat (tyWidth t) a).toInt else ((BitVec.ofNat (tyWidth t) a).toNat : Int)

/-- One of the operations of R101 at a type. -/
def intAt (t : Ty) (a b : Nat) (o : IntOp) : Nat × Flags :=
  res (o.result (BitVec.ofNat (tyWidth t) a) (BitVec.ofNat (tyWidth t) b))

/-- The integer and logic operations of R129 on the operands of a lane. -/
def laneInt (t : Ty) (sat : Bool) (a b c : Nat) : Instr → Option (Nat × Flags)
  | .vadd _ => some (narrow t sat (int t a + int t b))
  | .vsub _ => some (narrow t sat (int t a - int t b))
  | .vmulLo _ => some (narrow t sat (int t a * int t b))
  | .vmulHi _ => some (intAt t a b (if tySigned t then .mulh else .mulhz))
  | .vmad _ => some (narrow t sat (int t a * int t b + int t c))
  | .vdiv _ => some (if int t b = 0 then intAt t a b (if tySigned t then .div else .divz)
      else narrow t sat ((int t a).tdiv (int t b)))
  | .vrem _ => some (intAt t a b (if tySigned t then .rem else .remz))
  | .vmin _ => some (intAt t a b (if tySigned t then .min else .minz))
  | .vmax _ => some (intAt t a b (if tySigned t then .max else .maxz))
  | .vabs _ => some (narrow t sat (if int t a < 0 then -int t a else int t a))
  | .vneg _ => some (narrow t sat (-int t a))
  | .vand _ => some (intAt t a b .and)
  | .vor _ => some (intAt t a b .or)
  | .vxor _ => some (intAt t a b .xor)
  | .vandn _ => some (intAt t a b .andn)
  | .vnot _ => some (res ((~~~(BitVec.ofNat (tyWidth t) a), 0) : BitVec (tyWidth t) × Flags))
  | .vshl _ => some (intAt t a b .shl)
  | .vshr _ => some (intAt t a b (if tySigned t then .sar else .shr))
  | .vrol _ => some (intAt t a b .rol)
  | .vpopc _ => some (intAt t a b .popc)
  | .vclz _ => some (intAt t a b .clz)
  | .vctz _ => some (intAt t a b .ctz)
  | _ => none

/-- The rounding mode in force for a lane word: 101 is the crew default that the run recorded (R54, R125). -/
def laneRm (w : LaneWord) (r : ARun) : Rm :=
  match (if w.rm = 5 then r.run.rm else w.rm.toNat) with
  | 0 => .rne
  | 1 => .rz
  | 2 => .rdn
  | 3 => .rup
  | 4 => .rna
  | _ => .rne

/-- The floating operations of R131 and R132 on the operands of a lane. -/
def laneFloat (f : Fmt) (n : Nat) (rm : Rm) (a b c : Nat) : Instr → Option (Nat × Flags)
  | .vaddF _ => some (fAdd f rm a b)
  | .vsubF _ => some (fSub f rm a b)
  | .vmul _ => some (fMul f rm a b)
  | .vdivF _ => some (fDiv f rm a b)
  | .vfma _ => some (fFma f rm a b c)
  | .vfnma _ => some (fFma f rm (a ^^^ 2 ^ (n - 1)) b c)
  | .vfms _ => some (fFma f rm a b (c ^^^ 2 ^ (n - 1)))
  | .vminF _ => some (fMinMax f false a b)
  | .vmaxF _ => some (fMinMax f true a b)
  | .vabsF _ => some (a % 2 ^ (n - 1), 0)
  | .vnegF _ => some (a ^^^ 2 ^ (n - 1), 0)
  | .vsqrt _ => some (fSqrt f rm a)
  | .vround _ => some (fRound f rm a)
  | .vrcp _ => some (fRcp f rm a)
  | .vrsqrt _ => some (fRsqrt f rm a)
  | .vexp2 _ => some (fExp2 f rm a)
  | .vlog2 _ => some (fLog2 f rm a)
  | .vsin _ => some (fSin f rm a)
  | .vcos _ => some (fCos f rm a)
  | .vtanh _ => some (fTanh f rm a)
  | _ => none

/-- The lane tests of R143 on integer operands. -/
def laneTest (t : Ty) (c : BitVec 3) (a b : Nat) : Bool :=
  match c.toNat with
  | 0 => decide (int t a = int t b)
  | 1 => decide (int t a ≠ int t b)
  | 2 => decide (int t a < int t b)
  | 3 => decide (int t a ≤ int t b)
  | 4 => decide (int t b < int t a)
  | 5 => decide (int t b ≤ int t a)
  | _ => decide (BitVec.ofNat (tyWidth t) a &&& BitVec.ofNat (tyWidth t) b ≠ 0)

/-- A predicate source: the low six bits of the field name it. -/
def pr (s : State) (f : BitVec 12) (l : Nat) : Bool := rdP s (f.toNat % 64) l

/-- The lane compares and predicate operations: the bit of a lane, and its flags (R143 to R146). -/
def lanePred (s : State) (w : LaneWord) (l : Nat) : Instr → Option (Bool × Flags)
  | .vcmp c _ => some (match tyFmt w.t with
      | some f => fCmp f c.toNat (opA s w l) (opB s w l)
      | none => (laneTest w.t c (opA s w l) (opB s w l), 0))
  | .vpand _ => some (pr s w.a l && pr s w.b l, 0)
  | .vpor _ => some (pr s w.a l || pr s w.b l, 0)
  | .vpxor _ => some (pr s w.a l ^^ pr s w.b l, 0)
  | .vpandn _ => some (pr s w.a l && !pr s w.b l, 0)
  | .vpnot _ => some (!pr s w.a l, 0)
  | .vpmov _ => some (pr s w.a l, 0)
  | .vpset _ => some (true, 0)
  | .vpclr _ => some (false, 0)
  | .vpnz _ => some (decide (opA s w l ≠ 0), 0)
  | _ => none

/-! ### Data between formats and lanes (R133 to R154, R258 to R261) -/

/-- The accumulator of a scan before lane l, and after its segment test (R152). -/
def scanAcc (s : State) (w : LaneWord) (rm : Rm) (act : List Nat) (start : Nat) : Nat → Nat
  | 0 => start
  | l + 1 =>
    let op := laneX w % 8
    let a := scanAcc s w rm act start l
    let b := if laneX w / 16 % 2 = 1 ∧ rdP s (laneX w / 32 % 64) l = true then identityOf w.t op else a
    if l ∈ act then (combine w.t rm (w.md.toNat % 2 == 1) op b (opA s w l)).1 else b

/-- The value that a scan has met at lane l: the accumulator, or the identity at a segment's start. -/
def scanAt (s : State) (w : LaneWord) (rm : Rm) (act : List Nat) (start l : Nat) : Nat :=
  if laneX w / 16 % 2 = 1 ∧ rdP s (laneX w / 32 % 64) l = true then identityOf w.t (laneX w % 8)
  else scanAcc s w rm act start l

/-- The result of a lane exchange with lane p: its operand, or the boundary value outside the crew (R151). -/
def lent (s : State) (w : LaneWord) (l : Nat) (p : Int) : Nat × Flags :=
  (if 0 ≤ p ∧ p < lanesOf s then opA s w p.toNat else if w.md.toNat % 2 = 1 then 0 else opA s w l, 0)

/-- The moves and lane combinations that give a value in each active lane. -/
def laneMoves (s : State) (w : LaneWord) (r : ARun) (act : List Nat) (l : Nat) : Instr → Option (Nat × Flags)
  | .vmov _ => some (if w.imm then opB s w l else opA s w l, 0)
  | .vcvt _ => some (convert (laneRm w r) (w.md.toNat % 2 == 1) (tyOf (laneX w % 16)) w.t
      (srcTy s (tyOf (laneX w % 16)) w.a l))
  | .vpack _ =>
    let ts := tyOf (laneX w % 16)
    let a := convert (laneRm w r) (w.md.toNat % 2 == 1) ts w.t (srcTy s ts w.a l)
    let b := convert (laneRm w r) (w.md.toNat % 2 == 1) ts w.t (srcTy s ts w.b l)
    let old := BitVec.ofNat 32 (rdV s w.d.toNat l)
    some (if tyWidth w.t = 16 then (BitVec.ofNat 16 b.1 ++ BitVec.ofNat 16 a.1).toNat
      else if laneX w / 16 % 2 = 0 then (old.extractLsb' 16 16 ++ BitVec.ofNat 8 b.1 ++ BitVec.ofNat 8 a.1).toNat
      else (BitVec.ofNat 8 b.1 ++ BitVec.ofNat 8 a.1 ++ old.extractLsb' 0 16).toNat, a.2 ||| b.2)
  | .vunpk _ =>
    let ts := tyOf (laneX w % 16)
    some (convert (laneRm w r) (w.md.toNat % 2 == 1) ts w.t
      ((BitVec.ofNat 32 (srcVal s 1 w.a l)).extractLsb' (tyWidth ts * (laneX w / 16 % 4)) (tyWidth ts)).toNat)
  | .vtab _ => some (tabVal s w l)
  | .vsel _ => some (if (rdP s (laneX w % 64) l ^^ decide (laneX w / 64 % 2 = 1)) = true then opA s w l else opB s w l, 0)
  | .vpget _ => some (if pr s w.a l then 1 else 0, 0)
  | .vballot _ => some ((act.filter (fun i => pr s w.a i)).foldl (fun m i => m ||| 2 ^ i) 0, 0)
  | .vlaneFrom _ => some (lent s w l (srcVal s 1 w.b l))
  | .vlaneSwap _ => some (lent s w l (l ^^^ (laneX w % 32) : Nat))
  | .vlaneLag _ => some (lent s w l ((l : Int) - (laneX w % 32 : Nat)))
  | .vlaneLead _ => some (lent s w l ((l : Int) + (laneX w % 32 : Nat)))
  | .vscan _ =>
    let start := if laneX w / 2048 % 2 = 1 then s.crew.ln.regs.ew.toNat % 2 ^ tyWidth w.t else identityOf w.t (laneX w % 8)
    let a := scanAt s w (laneRm w r) act start l
    let x := combine w.t (laneRm w r) (w.md.toNat % 2 == 1) (laneX w % 8) a (opA s w l)
    some (if laneX w / 8 % 2 = 1 then a else x.1, x.2)
  | .vred _ => some (crewReduce w.t (laneRm w r) (laneX w % 8)
      ((List.range 32).map (fun i => if i ∈ act then some (opA s w i) else none)))
  | .vpfx _ =>
    let n := fun (i : Nat) => (List.range 32).countP (fun k => (BitVec.ofNat 32 (srcVal s 1 w.a i)).getLsbD k)
    some (((act.filter (fun i => decide (i < l ∨ (i = l ∧ laneX w / 8 % 2 = 1)))).map n).sum, 0)
  | .vbmapAnd _ => some (opA s w l &&& opB s w l, 0)
  | .vbmapAndn _ => some ((BitVec.ofNat 32 (opA s w l) &&& ~~~(BitVec.ofNat 32 (opB s w l))).toNat, 0)
  | .vbmapOr _ => some (opA s w l ||| opB s w l, 0)
  | .vbmapKeep _ => some (opA s w l % 2 ^ min 32 (opB s w l), 0)
  | .vbmapRank _ => some ((List.range 32).countP (fun k => decide (k < opB s w l) && (opA s w l).testBit k), 0)
  | .vbmapSel _ => some ((((List.range 32).filter (fun k => (opA s w l).testBit k)).drop (opB s w l)).headD 32, 0)
  | .emid _ => some ((readQuad s w.a l).mid, 0)
  | .erad _ => some ((readQuad s w.a l).rad, 0)
  | _ => none

end Sys2Proof.Expect

/-! ## The lane stream -/

/-- R49, R50, R51, R56, R147: what a source field shows a lane: a register or an even pair, a latch, a snapshot slot of the
run, each lane constant, the registers of the next lower and the next higher lane with the edge registers at the ends, and the
immediate at each kind of type. -/
def Obligations.OperandForms : Prop :=
  (∀ (s : State) (n : Nat) (v : BitVec 10) (l : Nat), srcVal s n ((0#2 ++ v : BitVec 12)) l = rdVs s l n v.toNat ∧
    srcVal s n ((2#2 ++ v : BitVec 12)) l =
      (if l = 0 then s.crew.ln.regs.ew.toNat % 2 ^ (32 * n) else rdVs s (l - 1) n v.toNat) ∧
    srcVal s n ((3#2 ++ v : BitVec 12)) l =
      (if l + 1 = 4 * s.job.rcd.slices then s.crew.ln.regs.ee.toNat % 2 ^ (32 * n) else rdVs s (l + 1) n v.toNat)) ∧
  (∀ (s : State) (n l : Nat) (b : BitVec 2) (x : W64), latch s l b.toNat = some x →
    srcVal s n ((1024#12 ||| b.zeroExtend 12)) l = x.toNat % 2 ^ (32 * n)) ∧
  (∀ (s : State) (n l : Nat) (k : BitVec 4) (r : ARun), curRun s.crew = some r →
    srcVal s n ((1280#12 ||| k.zeroExtend 12)) l = (smGet 0 r.run.snaps k.toNat).toNat % 2 ^ (32 * n)) ∧
  (∀ (s : State) (n l : Nat), l < 32 → s.crew.key.crew < 2 ^ 32 → s.crew.key.team < 2 ^ 32 → s.job.rcd.slices ≤ 8 →
    s.job.rcd.crews < 2 ^ 32 →
    [1536#12, 1537, 1538, 1539, 1540, 1541, 1542, 1543, 1544, 1545].map (fun f => srcVal s n f l) =
      [l, l / 4, l % 4, s.crew.key.crew, s.crew.key.team, s.crew.key.team % s.job.rcd.gx,
        s.crew.key.team / s.job.rcd.gx % s.job.rcd.gy, s.crew.key.team / (s.job.rcd.gx * s.job.rcd.gy),
        4 * s.job.rcd.slices, s.job.rcd.crews]) ∧
  (∀ (s : State) (w : LaneWord) (i : W32) (l : Nat), w.imm = true → imm32 w = i.toNat →
    opB s w l = match w.t with
      | .s64 => (i.signExtend 64).toNat
      | .z64 => i.toNat
      | .f64 => (fCvt fmtF32 fmtF64 .rne i.toNat).1
      | .q4x => i.toNat % 2 ^ 80
      | .s32 | .z32 | .f32 | .b32 => i.toNat
      | .s16 | .z16 | .f16 | .bf16 => (i.extractLsb' 0 16).toNat
      | .s8 | .z8 | .f8a | .f8b => (i.extractLsb' 0 8).toNat)

/-- R129, R130, R53, R62: every integer and logic lane operation, in every type it has, saturating or not, with a register,
special, neighbour or immediate operand: each active lane gets its result, and nothing else changes. -/
def Obligations.LaneIntegerOperations : Prop :=
  ∀ (s : State) (i : Instr) (f : LaneFmt) (w : LaneWord) (r : ARun) (g : Gang) (val : Nat → Nat × Flags),
    Expect.issues s i f w r g →
    (∀ l, Expect.laneInt w.t (w.md.toNat % 2 == 1) (opA s w l) (opB s w l) (opC s w l) i = some (val l)) →
    ∃ t, exec i s = .next t ∧ Expect.Wrote s t f w r g val ∧ t.crew.ln.regs.preds = s.crew.ln.regs.preds

/-- R79: integer division by zero never traps. It sets IDZ and gives the table's quotient and remainder: on the 64 and the
32 bits of the scalar forms, and in every integer type of vdiv and vrem, saturating or not. -/
def Obligations.DivisionByZero : Prop :=
  (∀ (s : State) (d a b : BitVec 6), liveIn s d.toNat = false →
    (rdS s b.toNat = 0 →
      exec (.divz d a b) s = .next (finish (s.crew.sc.pc + 4) (addFlags fIDZ (wrS d.toNat (BitVec.allOnes 64) s))) ∧
      exec (.div d a b) s = .next (finish (s.crew.sc.pc + 4) (addFlags fIDZ (wrS d.toNat
        (if 0 ≤ (rdS s a.toNat).toInt then 0x7FFFFFFFFFFFFFFF else 0x8000000000000000) s))) ∧
      exec (.rem d a b) s = .next (finish (s.crew.sc.pc + 4) (addFlags fIDZ (wrS d.toNat (rdS s a.toNat) s))) ∧
      exec (.remz d a b) s = .next (finish (s.crew.sc.pc + 4) (addFlags fIDZ (wrS d.toNat (rdS s a.toNat) s)))) ∧
    ((rdS s b.toNat).setWidth 32 = 0#32 →
      exec (.divzW d a b) s = .next (finish (s.crew.sc.pc + 4) (addFlags fIDZ (wrS d.toNat 0x00000000FFFFFFFF s))) ∧
      exec (.divW d a b) s = .next (finish (s.crew.sc.pc + 4) (addFlags fIDZ (wrS d.toNat
        (if 0 ≤ ((rdS s a.toNat).setWidth 32).toInt then 0x7FFFFFFF else 0xFFFFFFFF80000000) s))) ∧
      exec (.remW d a b) s = .next (finish (s.crew.sc.pc + 4) (addFlags fIDZ (wrS d.toNat
        (((rdS s a.toNat).setWidth 32).signExtend 64) s))) ∧
      exec (.remzW d a b) s = .next (finish (s.crew.sc.pc + 4) (addFlags fIDZ (wrS d.toNat
        (((rdS s a.toNat).setWidth 32).zeroExtend 64) s))))) ∧
  (∀ (s : State) (f : LaneFmt) (w : LaneWord) (r : ARun) (g : Gang), Expect.issues s (.vdiv w) f w r g →
    (∀ l, BitVec.ofNat (tyWidth w.t) (opB s w l) = 0) →
    ∃ t, exec (.vdiv w) s = .next t ∧ t.crew.ln.regs.preds = s.crew.ln.regs.preds ∧ Expect.Wrote s t f w r g (fun l =>
      (if tySigned w.t = false then 2 ^ tyWidth w.t - 1
        else if (BitVec.ofNat (tyWidth w.t) (opA s w l)).msb then 2 ^ (tyWidth w.t - 1) else 2 ^ (tyWidth w.t - 1) - 1,
        fIDZ))) ∧
  (∀ (s : State) (f : LaneFmt) (w : LaneWord) (r : ARun) (g : Gang), Expect.issues s (.vrem w) f w r g →
    (∀ l, BitVec.ofNat (tyWidth w.t) (opB s w l) = 0) →
    ∃ t, exec (.vrem w) s = .next t ∧ t.crew.ln.regs.preds = s.crew.ln.regs.preds ∧ Expect.Wrote s t f w r g (fun l =>
      ((BitVec.ofNat (tyWidth w.t) (opA s w l)).toNat, fIDZ)))

/-- R131, R132, R54, R125: every floating lane operation and special function, rounding by the word's mode or by the crew
default that its run recorded. -/
def Obligations.LaneFloatOperations : Prop :=
  ∀ (s : State) (i : Instr) (f : LaneFmt) (w : LaneWord) (r : ARun) (g : Gang) (k : Fmt) (val : Nat → Nat × Flags),
    Expect.issues s i f w r g → tyFmt w.t = some k →
    (∀ l, Expect.laneFloat k (tyWidth w.t) (Expect.laneRm w r) (opA s w l) (opB s w l) (opC s w l) i = some (val l)) →
    ∃ t, exec i s = .next t ∧ Expect.Wrote s t f w r g val ∧ t.crew.ln.regs.preds = s.crew.ln.regs.preds

/-- R143 to R146: the lane compares and predicate operations write their bit in every active lane of pD, and nothing else. -/
def Obligations.LanePredicates : Prop :=
  ∀ (s : State) (i : Instr) (f : LaneFmt) (w : LaneWord) (r : ARun) (g : Gang) (val : Nat → Bool × Flags),
    Expect.issues s i f w r g → (∀ l, Expect.lanePred s w l i = some (val l)) →
    ∃ t, exec i s = .next t ∧ Expect.WrotePred s t w r g val

/-- R130, R133, R134, R141, R144, R146, R151 to R153, R249, R259, R260: moves, conversions, packing, tables, selection,
ballots, lane exchanges, scans, crew reductions, prefix counts, bitmaps, and the parts of certified values. The model's
readings here are NV of a signalling immediate (log entry 18), the rounding codes of vscan and vred min and max (46) and of
conversions between equal types (47), and a table with two equal knots (52). -/
def Obligations.LaneMovesAndCombinations : Prop :=
  ∀ (s : State) (i : Instr) (f : LaneFmt) (w : LaneWord) (r : ARun) (g : Gang) (val : Nat → Nat × Flags),
    Expect.issues s i f w r g →
    (∀ l, Expect.laneMoves s w r (activeLanes s r g w) l i = some (val l)) →
    ∃ t, exec i s = .next t ∧ Expect.Wrote s t f w r g val ∧ t.crew.ln.regs.preds = s.crew.ln.regs.preds

namespace Sys2Proof.Expect

/-- The active lanes of the head gang as a mask. -/
def maskOf (l : List Nat) : W64 := BitVec.ofNat 64 (l.foldl (fun m i => m ||| 2 ^ i) 0)

/-- A lane instruction that traps, precisely, at its own address; outside deterministic mode its issue slot is charged (R126,
R308). -/
def trapsLane (s : State) (cause : Nat) (info : W64) (g : Gang) (act : List Nat) : Host.Outcome State Fault Refusal :=
  .next (trapLane cause info g.pc (maskOf act) g.members (useSlot s))

/-- How far vinter advances each list (R261): up to the smaller of the two last keys; over all of a list whose partner is
empty. -/
def advance (a b : List Nat) : Nat × Nat :=
  if a = [] ∨ b = [] then (a.length, b.length)
  else (a.countP (fun v => decide (v ≤ min (a.getLastD 0) (b.getLastD 0))),
    b.countP (fun v => decide (v ≤ min (a.getLastD 0) (b.getLastD 0))))

/-- A slice stands at an address, in a gang that may issue. -/
def standsAt (r : ARun) (j : Nat) (pc : W64) : Prop := ∃ g ∈ r.gangs, j ∈ g.members ∧ g.pc = pc ∧ g.wait = .ready

/-- A lane takes the branch. -/
def took (s : State) (w : LaneWord) (l : Nat) : Bool := rdP s (w.a.toNat % 64) l ^^ decide (w.a.toNat / 64 % 2 = 1)

/-- The lanes of a slice that take the branch, as four bits of its mask. -/
def tookMask (s : State) (w : LaneWord) (j m : Nat) : Nat :=
  ((List.range 4).filter (fun k => m.testBit k && took s w (4 * j + k))).foldl (fun x k => x ||| 2 ^ k) 0

/-- A divergent branch's mask stack: the entry for its join and fall-through is joined or pushed (R156). -/
def pushed (pc j : W64) (m tk : Nat) : List MaskEntry → List MaskEntry
  | [] => [⟨j, pc + 12, m &&& (15 - tk), m, false⟩]
  | e :: l =>
    if e.join = j ∧ e.fall = pc + 12 ∧ e.phase = false then { e with rest := e.rest ||| (m &&& (15 - tk)) } :: l
    else ⟨j, pc + 12, m &&& (15 - tk), m, false⟩ :: e :: l

end Sys2Proof.Expect

/-- R135 to R138, R154, R261, R273: Q4X blocks, random numbers, list intersection and lane extraction; a vxs to a live-in of
its run's region traps 0x02. That vqdec traps by the FMTE that its run recorded is the model's choice (log entry 10), as is
which encodings are inexact (51). -/
def Obligations.LaneBlocksAndStreams : Prop :=
  (∀ (s : State) (f : LaneFmt) (w : LaneWord) (r : ARun) (g : Gang) (k : Fmt) (dec : Nat → List Ex × Bool),
    Expect.issues s (.vqdec w) f w r g → tyFmt w.t = some k → (∀ l, dec l = q4Decode (rdVs s l 3 w.a.toNat % 2 ^ 80)) →
    ((r.run.fmte = false ∨ ∀ l ∈ activeLanes s r g w, (dec l).2 = false) →
      ∃ t, exec (.vqdec w) s = .next t ∧ Expect.Wrote s t f w r g (fun l =>
        let x := roundTo k (Expect.laneRm w r) ((dec l).1.getD (laneX w % 16) (.fin false 0 0))
        (x.1, x.2 ||| if (dec l).2 then fFMT else 0))) ∧
    (r.run.fmte = true → (∃ l ∈ activeLanes s r g w, (dec l).2 = true) →
      exec (.vqdec w) s = Expect.trapsLane s 0x14 9 g (activeLanes s r g w))) ∧
  (∀ (s : State) (f : LaneFmt) (w : LaneWord) (r : ARun) (g : Gang) (act : List Nat), Expect.issues s (.vqenc w) f w r g →
    act = activeLanes s r g w →
    ∃ t, exec (.vqenc w) s = .next t ∧ Expect.Wrote s t f w r g (fun l =>
      q4Encode (Expect.laneRm w r)
        ((List.range 16).map (fun i => if 16 * (l / 16) + i ∈ act then srcTy s .f32 w.a (16 * (l / 16) + i) else 0))
        (srcVal s 1 w.b ((act.filter (fun i => i / 16 == l / 16)).headD 0) % 256))) ∧
  (∀ (s : State) (f : LaneFmt) (w : LaneWord) (r : ARun) (g : Gang), Expect.issues s (.vrand w) f w r g →
    ∃ t, exec (.vrand w) s = .next t ∧
      Expect.Wrote s t f w r g (fun l => (randValue w.t (mix (smGet 0 s.crew.ln.regs.vrand l).toNat
        (randKey r.run.rseed s.crew.key.team s.crew.key.crew l)), 0)) ∧
      ∀ l, smGet 0 t.crew.ln.regs.vrand l = if l ∈ activeLanes s r g w
        then smGet 0 s.crew.ln.regs.vrand l + 1 else smGet 0 s.crew.ln.regs.vrand l) ∧
  (∀ (s : State) (f : LaneFmt) (w : LaneWord) (r : ARun) (g : Gang) (act : List Nat) (m : Nat) (a b : List Nat),
    Expect.issues s (.vinter w) f w r g → act = activeLanes s r g w → act.head? = some m →
    a = (List.range (min (srcVal s 1 w.c m % 65536) (4 * s.job.rcd.slices))).map (srcVal s 1 w.a) →
    b = (List.range (min (srcVal s 1 w.c m / 65536) (4 * s.job.rcd.slices))).map (srcVal s 1 w.b) →
    ∃ t, exec (.vinter w) s = .next t ∧
      Expect.Wrote s t f w r g (fun l =>
        ((match a[l]? with
          | some x => b.countP (fun v => decide (v < x))
          | none => 0) + 2 ^ 32 * ((Expect.advance a b).1 + 2 ^ 16 * (Expect.advance a b).2), 0)) ∧
      ∀ p l, l < 32 → rdP t p l = if l ∈ act ∧ p = laneX w
        then (match a[l]? with
          | some x => b.contains x
          | none => false) else rdP s p l) ∧
  (∀ (s : State) (f : LaneFmt) (w : LaneWord) (r : ARun) (g : Gang) (l : Nat) (v : W64), Expect.issues s (.vxs w) f w r g →
    (r.run.region = false ∨ liveIn s w.d.toNat = false) → l ∈ activeLanes s r g w →
    (∀ k ∈ activeLanes s r g w, if w.md.toNat % 2 = 1 then k ≤ l else l ≤ k) →
    v = (if tySigned w.t then (BitVec.ofNat (tyWidth w.t) (opA s w l)).signExtend 64 else BitVec.ofNat 64 (opA s w l)) →
    ∃ t, exec (.vxs w) s = .next t ∧ rdS t w.d.toNat = v ∧
      (∀ n, n ≠ w.d.toNat → rdS t n = rdS s n) ∧ t.crew.ln.regs = s.crew.ln.regs ∧ t.mem = s.mem ∧
      curRun t.crew = some (Expect.goneOn r g)) ∧
  (∀ (s : State) (f : LaneFmt) (w : LaneWord) (r : ARun) (g : Gang), Expect.issues s (.vxs w) f w r g →
    r.run.region = true → liveIn s w.d.toNat = true → activeLanes s r g w ≠ [] →
    exec (.vxs w) s = Expect.trapsLane s 0x02 0 g (activeLanes s r g w))

/-- R23, R25, R155, R156: a lane branch. A slice all of whose active lanes take it stands at the target, one none of whose
lanes take it at the next instruction, both with their masks and stacks as they were. A slice that is split stands at the
target with its taken lanes, and its other lanes wait in the mask stack for the join. Gangs that did not issue stay. With U a
branch that is not uniform in the gang traps 0x03, with the taken lanes in trap.info. -/
def Obligations.LaneBranches : Prop :=
  ∀ (s : State) (f : LaneFmt) (w : LaneWord) (r : ARun) (g : Gang) (target j : W64),
    Expect.issues s (.laneBra w) f w r g →
    target = g.pc + 12 * (BitVec.ofNat 16 (imm32 w / 2 ^ 16)).signExtend 64 →
    j = g.pc + 12 * (BitVec.ofNat 16 (imm32 w)).signExtend 64 →
    (∀ i ∈ g.members, i < r.slices.length ∧ i < 8 ∧ 0 < (sliceAt r i).mask ∧ (sliceAt r i).mask < 16) →
    ((∀ i ∈ g.members, (sliceAt r i).stack.length < 16) →
      (w.u = 0 ∨ (∀ l ∈ activeLanes s r g w, Expect.took s w l = true) ∨
        (∀ l ∈ activeLanes s r g w, Expect.took s w l = false)) →
      ∃ t q, exec (.laneBra w) s = .next t ∧ curRun t.crew = some q ∧
        (∀ h ∈ r.gangs.tail, h ∈ q.gangs) ∧
        (∀ i, i ∉ g.members → sliceAt q i = sliceAt r i) ∧
        (∀ i m tk, i ∈ g.members → m = (sliceAt r i).mask → tk = Expect.tookMask s w i m →
          (tk = m → sliceAt q i = sliceAt r i ∧ Expect.standsAt q i target) ∧
          (tk = 0 → sliceAt q i = sliceAt r i ∧ Expect.standsAt q i (g.pc + 12)) ∧
          (tk ≠ m → tk ≠ 0 → Expect.standsAt q i target ∧ sliceAt q i =
            { sliceAt r i with mask := tk, stack := Expect.pushed g.pc j m tk (sliceAt r i).stack }))) ∧
    (w.u = 1 → (∃ l ∈ activeLanes s r g w, Expect.took s w l = true) →
      (∃ l ∈ activeLanes s r g w, Expect.took s w l = false) →
      exec (.laneBra w) s = Expect.trapsLane s 0x03 (Expect.maskOf ((activeLanes s r g w).filter (Expect.took s w))) g
        (activeLanes s r g w))

/-- R24, R26, R157 to R160: join at the top entry's first arrival goes to the waiting lanes, at the second restores the
mask and goes on, and elsewhere only goes on. regang merges the gangs when all of them wait at it, and waits otherwise.
lstop and lyield end the gang's slices, and the run with the last of them. ltrap retires and traps with the following
address. R63, R149, R197, R198: vprefetch has no effect but the end of the latch window. vfence with nothing to wait for
brings the core's lines to its scope. vedge in a crew that is alone in its chain, all its slices together, takes its
boundary values into the edge registers and goes on; crews with neighbours are not in this statement. That a gang which ends
leaves the rotation with the gang behind it next is the model's choice (log entry 17), as is what vfence waits for and which
lines it finds (8, 11). -/
def Obligations.LaneControlAndFences : Prop :=
  ((∀ (s : State) (f : LaneFmt) (w : LaneWord) (r : ARun) (g : Gang), Expect.issues s (.join w) f w r g →
    (∀ i ∈ g.members, i < r.slices.length ∧ i < 8) →
    ∃ t q, exec (.join w) s = .next t ∧ curRun t.crew = some q ∧ (∀ i, i ∉ g.members → sliceAt q i = sliceAt r i) ∧
      ∀ i ∈ g.members,
        ((∀ e ∈ (sliceAt r i).stack.head?, e.join ≠ g.pc) →
          sliceAt q i = sliceAt r i ∧ Expect.standsAt q i (g.pc + 12)) ∧
        (∀ e l, (sliceAt r i).stack = e :: l → e.join = g.pc → e.phase = false →
          Expect.standsAt q i e.fall ∧
          sliceAt q i = { sliceAt r i with mask := e.rest, stack := { e with phase := true } :: l }) ∧
        (∀ e l, (sliceAt r i).stack = e :: l → e.join = g.pc → e.phase = true → (∀ e' ∈ l.head?, e'.join ≠ g.pc) →
          Expect.standsAt q i (g.pc + 12) ∧ sliceAt q i = { sliceAt r i with mask := e.restore, stack := l })) ∧
  (∀ (s : State) (f : LaneFmt) (w : LaneWord) (r : ARun) (g : Gang), Expect.issues s (.regang w) f w r g →
    ((∀ h ∈ r.gangs.tail, h.wait = .regang ∧ h.pc = g.pc) → (∀ h ∈ r.gangs, ∀ i ∈ h.members, i < 8) →
      ∃ t q h, exec (.regang w) s = .next t ∧ curRun t.crew = some q ∧ q.gangs = [h] ∧ h.pc = g.pc + 12 ∧ h.wait = .ready ∧
        q.slices = r.slices ∧ (∀ i, i ∈ h.members ↔ ∃ x ∈ r.gangs, i ∈ x.members) ∧
        t.crew.clock = s.crew.clock + r.gangs.length) ∧
    ((∃ h ∈ r.gangs.tail, h.wait ≠ .regang ∧ h.wait ≠ .vedge) →
      ∃ t, exec (.regang w) s = .next t ∧ t.crew.clock = s.crew.clock ∧
        curRun t.crew = some { r with gangs := r.gangs.tail ++ [{ g with wait := .regang }] }) ∧
    (∀ h, r.gangs = [g, h] → h.wait = .regang → h.pc ≠ g.pc → lowSlice g < lowSlice h → Expect.canTrap s → Expect.quiet s →
      ∃ t, exec (.regang w) s = .next t ∧ t.crew.sc.pc = s.job.rcd.handler ∧ t.crew.sc.trap =
        ⟨3, s.crew.sc.pc, g.pc, Expect.maskOf (maskLanes r (g.members ++ h.members)), Expect.maskOf h.members⟩)) ∧
  (∀ (s : State) (i : Instr) (f : LaneFmt) (w : LaneWord) (r : ARun) (g : Gang), i = .lstop w ∨ i = .lyield w →
    Expect.issues s i f w r g → (∀ k ∈ g.members, k < r.slices.length) →
    ((∃ h ∈ r.gangs.tail, h.wait = .ready) →
      ∃ t q, exec i s = .next t ∧ curRun t.crew = some q ∧ q.gangs = r.gangs.tail ∧
        (∀ k ∈ g.members, sliceAt q k = { sliceAt r k with live := false, stack := [] }) ∧
        (∀ k, k ∉ g.members → sliceAt q k = sliceAt r k) ∧ q.yielded = (r.yielded || decide (i = .lyield w))) ∧
    (r.gangs = [g] → s.crew.handler = none → s.crew.ln.queue = [] → s.crew.status = .running → r.run.handler = false →
      s.crew.ops = [] →
      ∃ t, exec i s = .next t ∧ t.crew.ln.cur = none ∧
        t.crew.ln.held = s.crew.ln.held ++ [⟨r.run.seq, false, r.flags⟩] ∧
        t.crew.offered = (s.crew.offered || ((r.yielded || decide (i = .lyield w)) && !isDet s)))) ∧
  (∀ (s : State) (f : LaneFmt) (w : LaneWord) (r : ARun) (g : Gang), Expect.issues s (.ltrap w) f w r g →
    (activeLanes s r g w = [] → exec (.ltrap w) s = .next (laneNext g s)) ∧
    (activeLanes s r g w ≠ [] → Expect.canTrap s → Expect.quiet s →
      ∃ t, exec (.ltrap w) s = .next t ∧ t.crew.sc.pc = s.job.rcd.handler ∧ t.crew.clock = s.crew.clock + 1 ∧
        t.crew.sc.trap = ⟨BitVec.ofNat 64 (laneX w % 256), s.crew.sc.pc, g.pc + 12,
          Expect.maskOf (activeLanes s r g w), 0⟩ ∧ t.crew.handler = some ⟨g.members, true⟩))) ∧
  ((∀ (s : State) (f : LaneFmt) (w : LaneWord) (r : ARun) (g : Gang), Expect.issues s (.vprefetch w) f w r g →
    ∃ t, exec (.vprefetch w) s = .next t ∧ curRun t.crew = some (Expect.goneOn r g) ∧
      (∀ l b, l < 32 → b < 4 → latch t l b = if l / 4 ∈ g.members then none else latch s l b) ∧
      t.crew.ln.regs.vregs = s.crew.ln.regs.vregs ∧ t.crew.ln.regs.preds = s.crew.ln.regs.preds ∧
      t.crew.sc = s.crew.sc ∧ t.crew.ops = s.crew.ops ∧ t.team = s.team ∧ t.mem = s.mem ∧ t.l1 = s.l1) ∧
  (∀ (s : State) (f : LaneFmt) (w : LaneWord) (r : ARun) (g : Gang), Expect.issues s (.vfence w) f w r g →
    activeLanes s r g w ≠ [] →
    Expect.drained (dropGang g s) (laneX w % 8) (laneX w / 8 % 4 ≠ 0) (laneX w / 8 % 4 ≠ 1) →
    exec (.vfence w) s = .next (laneNext g
      (fenceLines (laneX w % 8) (laneX w / 8 % 4 ≠ 0) (laneX w / 8 % 4 ≠ 1) (dropGang g s)))) ∧
  (∀ (s : State) (f : LaneFmt) (w : LaneWord) (r : ARun) (g : Gang) (n : Nat), Expect.issues s (.vedge w) f w r g →
    r.gangs = [g] → n = s.job.rcd.slices → g.members = List.range n → 1 ≤ n → n ≤ 8 → r.slices.length = n →
    (∀ i, i < n → (sliceAt r i).live = true) → s.job.rcd.crews = 1 → s.crew.key.crew = 0 → isDet s = false →
    w.md.toNat ≤ 1 → s.crew.ln.edge.sent = false → s.crew.ln.edge.stageW = none → s.crew.ln.edge.stageE = none →
    ∃ t, exec (.vedge w) s = .next t ∧ curRun t.crew = some { r with gangs := [⟨g.pc + 12, g.members, .ready⟩] } ∧
      t.crew.ln.regs.ew = (if w.md = 1 then BitVec.ofNat 64 (opA s w 0) else 0) ∧
      t.crew.ln.regs.ee = (if w.md = 1 then BitVec.ofNat 64 (opA s w (4 * n - 1)) else 0) ∧
      t.crew.ln.edge.n = s.crew.ln.edge.n + 1 ∧ t.crew.ln.regs.vregs = s.crew.ln.regs.vregs))

namespace Sys2Proof.Expect

/-- The word of a lane access and what it asks of the gang: the gang may issue, some lane is active, every active lane's
access is checked and translated and none goes to a peer, and the counter has room (R189, R190). The latches of the gang's
slices are dropped first. -/
def accesses (s u : State) (i : Instr) (f : LaneFmt) (w : LaneWord) (r : ARun) (g : Gang) (n kind : Nat) (cls : OpClass)
    (accs : List LaneAcc) : Prop :=
  issues s i f w r g ∧ u = dropGang g s ∧ activeLanes s r g w ≠ [] ∧
  lanesAt u n kind (laneAddr u w n) (activeLanes s r g w) = .ok accs ∧
  (∀ a ∈ accs, isLocal a.place.loc = true) ∧ outstanding s.crew cls < 4095

/-- The address of each lane's access (R190). -/
def laneAt (s : State) (w : LaneWord) (size l : Nat) : W64 :=
  BitVec.ofNat 64 (srcVal s 2 w.a l) + (BitVec.ofNat 12 (laneX w)).signExtend 64 +
    (if w.md.toNat % 2 = 1 then (BitVec.ofNat 32 (srcVal s 1 w.b l)).signExtend 64 * BitVec.ofNat 64 size else 0)

/-- An operation put in flight. -/
def flying (cls : OpClass) (kind : OpKind) (pages : List Nat) (s : State) : State :=
  onC (fun c => { c with ops := c.ops ++ [op s cls kind pages] }) s

/-- The result of a certified instruction in a lane (R245 to R248). -/
def certified (s : State) (w : LaneWord) (l : Nat) : Instr → Option CertOut
  | .eadd _ => some (certAdd (readQuad s w.a l) (readQuad s w.b l))
  | .esub _ => some (certSub (readQuad s w.a l) (readQuad s w.b l))
  | .emul _ => some (certMul (readQuad s w.a l) (readQuad s w.b l))
  | .efma _ => some (certFma (readQuad s w.a l) (readQuad s w.b l) (readQuad s w.c l))
  | .ediv _ => some (certDiv (readQuad s w.a l) (readQuad s w.b l))
  | .esqrt _ => some (certSqrt (readQuad s w.a l))
  | .eneg _ => some (certNeg (readQuad s w.a l))
  | .ecvt _ => some (certCvt w.t (opA s w l) none)
  | .ecvtRad _ => some (certCvt w.t (opA s w l) (some (srcVal s 1 w.b l)))
  | .esever _ => some ⟨(readQuad s w.a l).mid, (readQuad s w.a l).rad, if (readQuad s w.a l).kind = .exact then .exact else .cut⟩
  | _ => none

/-- A number lies in the enclosure of a mid and a radius. -/
def within (x : Rat) (mid rad : Nat) : Prop :=
  ∃ m r, ratOf fmtF64 mid = some m ∧ ratOf fmtF32 rad = some r ∧ m - r ≤ x ∧ x ≤ m + r

/-- The lane instruction whose operation a half-opcode names, and whether it saturates (R60). -/
noncomputable def twin (hopc : Nat) (w : LaneWord) : Option (Instr × Bool) :=
  match hopc with
  | 0x08 => some (.vadd w, false)
  | 0x09 => some (.vsub w, false)
  | 0x0A => some (.vmin w, false)
  | 0x0B => some (.vmax w, false)
  | 0x0C => some (.vand w, false)
  | 0x0D => some (.vor w, false)
  | 0x0E => some (.vxor w, false)
  | 0x0F => some (.vandn w, false)
  | 0x10 => some (.vshl w, false)
  | 0x11 => some (.vshr w, false)
  | 0x12 => some (.vrol w, false)
  | 0x13 => some (.vabs w, false)
  | 0x14 => some (.vneg w, false)
  | 0x15 => some (.vmulLo w, false)
  | 0x16 => some (.vmulHi w, false)
  | 0x17 => some (.vpopc w, false)
  | 0x18 => some (.vclz w, false)
  | 0x19 => some (.vadd w, true)
  | 0x1A => some (.vsub w, true)
  | 0x20 => some (.vaddF w, false)
  | 0x21 => some (.vsubF w, false)
  | 0x22 => some (.vminF w, false)
  | 0x23 => some (.vmaxF w, false)
  | 0x24 => some (.vabsF w, false)
  | 0x25 => some (.vnegF w, false)
  | 0x30 => some (.vmul w, false)
  | 0x60 => some (.vrcp w, false)
  | 0x61 => some (.vrsqrt w, false)
  | 0x62 => some (.vsqrt w, false)
  | 0x63 => some (.vexp2 w, false)
  | 0x64 => some (.vlog2 w, false)
  | 0x65 => some (.vsin w, false)
  | 0x66 => some (.vcos w, false)
  | 0x67 => some (.vtanh w, false)
  | _ => none

/-- What a half gives in a lane, by the tables of the single words: a and b are its sources at its type, d its destination
as it was (R58, R60). -/
noncomputable def halfResult (hopc : Nat) (t : Ty) (rm : Rm) (w : LaneWord) (a b d : Nat) : Option (Nat × Flags) :=
  match hopc, twin hopc w, tyFmt t with
  | 0x50, _, _ => some (a, 0)
  | 0x31, _, some k => some (fFma k rm a b d)
  | 0x32, _, some k => some (fFma k rm (a ^^^ 2 ^ (tyWidth t - 1)) b d)
  | _, some (i, sat), none => laneInt t sat a b 0 i
  | _, some (i, _), some k => laneFloat k (tyWidth t) rm a b 0 i
  | _, none, _ => none

end Sys2Proof.Expect

namespace Sys2Proof.Expect

/-- A byte of a hardware-coherent page as the crews of a core see it: a store that the core's L1 holds, else what is at home.
-/
def coreByte (s : State) (core x : Nat) : Byte :=
  match findLine s core (x / 128) .hwc with
  | some l => if l.dirty.testBit (x % 128) then nth 0 l.data (x % 128) else smGet 0 s.mem x
  | none => smGet 0 s.mem x

end Sys2Proof.Expect

/-- R166, R192, R168, R177: the frame of a store to a hardware-coherent page that no line of the core's L1 overlaps: to the
crews of its core every byte of physical memory at the address that the translation of sA + OFF gives, and the following bytes
of the form's width, is the byte of sD from then on, and every other byte is as before; at home it is so at once, or, where
the schedule names a later turn for it to be performed, nothing has changed yet; the scratchpads, and every register,
predicate and flag, are as before. R166, R185, R194: the frame of a vst or vsct whose lanes go to hardware-coherent pages that
no line of the core's L1 overlaps: the byte of the highest active lane that covers an address is there, in the same two
senses, every other byte of memory, the scratchpads, the lane registers and predicates and the scalar stream are as before. A
crew's load of a hardware-coherent page reads what its core sees. That the schedule says when such a store is performed is the
model's choice (log entry 7). Stores to pages of the other attributes, to the scratchpads and to peers are not in these
frames; what they do is in LoadsAndStoresIssue and LaneMemoryIssues. -/
def Obligations.StoreFrames : Prop :=
  (∀ (s : State) (d a : BitVec 6) (w : BitVec 2) (o : BitVec 12) (l : Place) (p : W64) (pa : Nat),
    p = rdS s a.toNat + o.signExtend 64 * BitVec.ofNat 64 (2 ^ w.toNat) →
    locate s 32 p (2 ^ w.toNat) 1 = .ok l → l.loc = .phys pa 0 → outstanding s.crew .store < 4095 →
    Expect.noLine s (coreOf s) pa (2 ^ w.toNat) →
    ∃ t, exec (.st d a w o) s = .next t ∧
      (∀ x, Expect.coreByte t (coreOf s) x = if pa ≤ x ∧ x < pa + 2 ^ w.toNat
        then (rdS s d.toNat).extractLsb' (8 * (x - pa)) 8 else Expect.coreByte s (coreOf s) x) ∧
      (∀ x, smGet 0 t.mem x = if holdsStores s = false ∧ pa ≤ x ∧ x < pa + 2 ^ w.toNat
        then (rdS s d.toNat).extractLsb' (8 * (x - pa)) 8 else smGet 0 s.mem x) ∧
      t.team = s.team ∧ t.cspad = s.cspad ∧ t.crew.sc = { s.crew.sc with pc := s.crew.sc.pc + 4 } ∧ t.crew.ln = s.crew.ln) ∧
  (∀ (s u : State) (i : Instr) (f : LaneFmt) (w : LaneWord) (r : ARun) (g : Gang) (n : Nat) (accs : List LaneAcc)
    (cls : OpClass) (pa : LaneAcc → Nat), (i, cls) ∈ [(Instr.vst w, OpClass.store), (.vsct w, .scatter)] →
    n = tyWidth w.t / 8 * laneCnt w → Expect.accesses s u i f w r g n 1 cls accs →
    (∀ a ∈ accs, a.place.loc = .phys (pa a) 0 ∧ Expect.noLine s (coreOf s) (pa a) n) →
    ∃ t, exec i s = .next t ∧
      (∀ x, (∀ a ∈ accs, ¬ (pa a ≤ x ∧ x < pa a + n)) →
        Expect.coreByte t (coreOf s) x = Expect.coreByte s (coreOf s) x ∧ smGet 0 t.mem x = smGet 0 s.mem x) ∧
      (∀ x a, a ∈ accs → pa a ≤ x → x < pa a + n → (∀ b ∈ accs, a.lane < b.lane → ¬ (pa b ≤ x ∧ x < pa b + n)) →
        Expect.coreByte t (coreOf s) x = BitVec.ofNat 8 (srcVal u f.cn w.c a.lane / 2 ^ (8 * (x - pa a))) ∧
        smGet 0 t.mem x = if holdsStores s then smGet 0 s.mem x
          else BitVec.ofNat 8 (srcVal u f.cn w.c a.lane / 2 ^ (8 * (x - pa a)))) ∧
      t.team = s.team ∧ t.cspad = s.cspad ∧ t.crew.sc = s.crew.sc ∧ t.crew.ln.regs.vregs = s.crew.ln.regs.vregs ∧
      t.crew.ln.regs.preds = s.crew.ln.regs.preds) ∧
  (∀ (s : State) (pa n : Nat), pa % 128 + n ≤ 128 →
    (∀ l ∈ s.l1, l.core = coreOf s → l.line = pa / 128 → dataKind l.kind = true → l.kind = .hwc) →
    (rdLoc (.phys pa 0) n false s).1 = (List.range n).map (fun i => Expect.coreByte s (coreOf s) (pa + i)))

namespace Sys2Proof.Expect

/-- The single-word lane instructions whose results go to lane registers (R129 to R153, R190, R194, R245 to R250, R261). -/
def plainLane (s : State) (w : LaneWord) (r : ARun) (g : Gang) (i : Instr) : Prop :=
  (∃ v, laneInt w.t false 0 0 0 i = some v) ∨ (∃ v, laneFloat fmtF64 64 .rne 0 0 0 i = some v) ∨
  (∃ v, laneMoves s w r (activeLanes s r g w) 0 i = some v) ∨ (∃ v, certified s w 0 i = some v) ∨
  i ∈ [Instr.vld w, .vldRo w, .vldg w, .eld w, .vqdec w, .vqenc w, .vrand w, .vinter w]

end Sys2Proof.Expect

/-- R190, R194, R97: vld, vld.ro and vldg with every active lane checked and translated: the values read enter b0, the
loads are in flight with the registers they will write, and the gang goes on. The address of a lane is that of R190. R185,
R194, R195: vst and vsct store each active lane's data in lane order and go on; vsct.add outside a region puts its
contributions, those of one element combined, in flight with their flags, and in deterministic mode, with room for them,
in the Sieve (R316). R180, R196, R193: vamo outside a region, of any order that has nothing to wait for: the lines that a
release sends home are there, and the atomics of the active lanes are in flight in lane order, with their operands; in
deterministic mode, with room for them, they are in the Sieve and the gang waits for the flush of the interval (R318).
R273: in a run enqueued in a region vamo and vsct.add trap 0x02, and so does an instruction that writes a declared live-in
in some lane. That a load takes its values, and a store its places, at issue is the model's choice (log entry 7). -/
def Obligations.LaneMemoryIssues : Prop :=
  (∀ (s u t : State) (i : Instr) (f : LaneFmt) (w : LaneWord) (r : ARun) (g : Gang) (n : Nat) (accs : List LaneAcc)
    (vals : List (Nat × W64 × Nat × Bool)) (cls : OpClass) (ro : Bool),
    (i, cls, ro) ∈ [(Instr.vld w, OpClass.load, false), (.vldRo w, .load, true), (.vldg w, .gather, false)] →
    n = tyWidth w.t / 8 * laneCnt w → Expect.accesses s u i f w r g n 0 cls accs →
    readLanes n ro accs [] (noteAll (cls == .gather) accs u) = (vals, t) → (∀ x ∈ vals, x.2.2.2 = false) →
    exec i s = .next (laneNext g (Expect.flying cls
      (if cls = .gather then .gather (regWrites f w (vals.map (fun x => (x.1, x.2.2.1))))
        else .laneLoad (regWrites f w (vals.map (fun x => (x.1, x.2.2.1))))) (pagesOf accs)
      (vals.foldl (fun y x => pushLatch x.1 (x.2.2.1 % 2 ^ 64) y) t))) ∧
    (∀ l, laneAddr u w n l = Expect.laneAt u w n l)) ∧
  ((∀ (s u : State) (i : Instr) (f : LaneFmt) (w : LaneWord) (r : ARun) (g : Gang) (n : Nat) (accs : List LaneAcc)
    (cls : OpClass), (i, cls) ∈ [(Instr.vst w, OpClass.store), (.vsct w, .scatter)] → n = tyWidth w.t / 8 * laneCnt w →
    Expect.accesses s u i f w r g n 1 cls accs →
    exec i s = .next (laneNext g (Expect.flying cls
      (if cls = .scatter then .scatter (accs.map (·.place.loc)) else .store (accs.map (·.place.loc))) (pagesOf accs)
      (accs.foldl (fun y a => wrLoc a.place.loc (natToBytes n (srcVal u f.cn w.c a.lane)) y)
        (noteAll (cls == .scatter) accs u))))) ∧
  (∀ (s u : State) (f : LaneFmt) (w : LaneWord) (r : ARun) (g : Gang) (n : Nat) (accs : List LaneAcc)
    (sums : List ScatAdd) (fl : Flags), n = tyWidth w.t / 8 * laneCnt w →
    Expect.accesses s u (.vsctAdd w) f w r g n 2 .scatter accs → r.run.region = false →
    (scatElems u f w accs).foldl (fun (acc : List ScatAdd × Flags) x => ((rake x acc.1).1, acc.2 ||| (rake x acc.1).2))
      ([], 0) = (sums, fl) → sums ≠ [] →
    (isDet s = false → exec (.vsctAdd w) s = .next (laneNext g (Expect.flying .scatter (.scatAdd sums) (pagesOf accs)
      (addRunFlags fl (noteAll true accs u))))) ∧
    (isDet s = true → (s.crew.sieve.filter (fun e => e.flush == intervalOf s)).length + sums.length ≤ 1024 →
      exec (.vsctAdd w) s = .next (laneNext g (onC (fun c => { c with
          sieve := c.sieve ++ sums.map (fun x => ⟨c.clock / flushF s.job, x.lane, c.sieveOrder, .add x⟩)
          sieveOrder := c.sieveOrder + 1 })
        (addRunFlags fl (noteAll true accs u))))))) ∧
  (∀ (s u : State) (f : LaneFmt) (w : LaneWord) (r : ARun) (g : Gang) (n op scope : Nat) (acq rel : Bool)
    (accs : List LaneAcc) (atomics : List AmoOp) (d : Nat),
    n = tyWidth w.t / 8 → op = w.md.toNat / 2 % 16 → Expect.issues s (.vamo w) f w r g → u = dropGang g s →
    activeLanes s r g w ≠ [] →
    lanesAt u n 2 (fun l => BitVec.ofNat 64 (srcVal u 2 w.a l) + (BitVec.ofNat 12 (laneX w)).signExtend 64)
      (activeLanes s r g w) = .ok accs →
    (∀ a ∈ accs, Expect.isLocal a.place.loc = true) → r.run.region = false →
    w.md.toNat / 32 ≤ 6 → Expect.ordOf (w.md.toNat / 32) = (scope, acq, rel) →
    (scope = 0 ∨ Expect.drained u scope rel acq) →
    d = (if w.nw = 1 then 1024 else w.d.toNat) →
    atomics = accs.map (fun a =>
      ⟨op, n, BitVec.ofNat 64 (vaOf u a.lane a.ptr), a.place.loc,
        BitVec.ofNat 64 (if op = 9 then srcVal u (n / 4) w.c a.lane else srcVal u (n / 4) w.b a.lane),
        if op = 9 then BitVec.ofNat 64 (rdVs u a.lane (n / 4) w.d.toNat) else 0, a.lane, w.d.toNat,
        if acq then scope else 0⟩) →
    (isDet s = false → outstanding s.crew .store < 4095 →
      exec (.vamo w) s = .next (laneNext g (Expect.flying .store (.vamo atomics d) (pagesOf accs)
        (noteAll false accs (if rel then releaseLines u else u))))) ∧
    (isDet s = true → (s.crew.sieve.filter (fun e => e.flush == intervalOf s)).length + accs.length ≤ 1024 →
      (∀ h ∈ r.gangs.tail, h.members ≠ g.members) →
      ∃ t, exec (.vamo w) s = .next t ∧ t.crew.clock = s.crew.clock + 1 ∧ t.crew.sc = s.crew.sc ∧
        t.crew.sieve = s.crew.sieve ++ atomics.map (fun x => ⟨intervalOf s, x.lane, s.crew.sieveOrder, .vamo x d⟩) ∧
        t.crew.sieveOrder = s.crew.sieveOrder + 1 ∧
        curRun t.crew = some { r with
          gangs := r.gangs.tail ++ [⟨g.pc + 12, g.members, .released (intervalOf s)⟩] })) ∧
  ((∀ (s : State) (i : Instr) (f : LaneFmt) (w : LaneWord) (r : ARun) (g : Gang), i ∈ [Instr.vamo w, .vsctAdd w] →
    Expect.issues s i f w r g → r.run.region = true →
    exec i s = Expect.trapsLane s 0x02 0 g (activeLanes s r g w)) ∧
  (∀ (s : State) (i : Instr) (f : LaneFmt) (w : LaneWord) (r : ARun) (g : Gang), Expect.plainLane s w r g i →
    laneFmt i = some (f, w) → headGang s = some (r, g) → laneOk f w = true → laneTop f w ≤ 64 * s.job.rcd.regg →
    (∀ b ∈ latchesOf f w, ∀ l ∈ activeLanes s r g w, (latch s l b).isSome = true) → f.dn ≠ 0 → f.dpred = false →
    w.nw = 0 → activeLanes s r g w ≠ [] → liveInV s r w.d.toNat f.dn = true →
    exec i s = Expect.trapsLane s 0x02 0 g (activeLanes s r g w)))

/-- R245 to R248: the enclosure of a certified sum, difference, product, product and sum, quotient or negation contains
the true result for every choice of true operands in the operands' enclosures. A lemma of the model about the bounds that the
rules give, as the model reads them (log entry 36); it says nothing of esqrt. -/
def Obligations.CertifiedBoundsHold : Prop :=
  ∀ (a b c : Quad) (x y z : Rat), Expect.within x a.mid a.rad → Expect.within y b.mid b.rad →
    Expect.within z c.mid c.rad →
    (∀ o v, (o, v) ∈ [(certAdd a b, x + y), (certSub a b, x - y), (certMul a b, x * y), (certFma a b c, x * y + z),
        (certNeg a, -x)] →
      (ratOf fmtF64 o.mid).isSome = true → (ratOf fmtF32 o.rad).isSome = true → Expect.within v o.mid o.rad) ∧
    ((ratOf fmtF64 (certDiv a b).mid).isSome = true → (ratOf fmtF32 (certDiv a b).rad).isSome = true →
      y ≠ 0 ∧ Expect.within (x / y) (certDiv a b).mid (certDiv a b).rad)

/-- R240, R245 to R249: each certified instruction with a quad destination, when the log has room for the nodes of all
active lanes, writes each active lane's quad and goes on. R241, R250: certified values in memory. est writes each active
lane's quad with an exact or an opaque handle; eld reads quads, a pinned one with its node; epin and eunpin act on the
granules of the team scratchpad in lane order. That est and eld take effect at their issue is the model's choice (log entry 7),
as is how the radii of R245 to R248 are read (36). -/
def Obligations.CertifiedInstructions : Prop :=
  (∀ (s : State) (i : Instr) (f : LaneFmt) (w : LaneWord) (r : ARun) (g : Gang) (out : Nat → CertOut),
    Expect.issues s i f w r g → (∀ l, Expect.certified s w l i = some (out l)) →
    certRoom s ((activeLanes s r g w).map (fun l => (l, out l))) = .ready →
    exec i s = .next (laneNext g ((activeLanes s r g w).foldl (fun t l => writeCert w.d.toNat (l, out l) t) s))) ∧
  ((∀ (s u : State) (f : LaneFmt) (w : LaneWord) (r : ARun) (g : Gang) (accs : List LaneAcc),
    Expect.accesses s u (.est w) f w r g 16 1 .store accs →
    exec (.est w) s = .next (laneNext g (Expect.flying .store (.store (accs.map (·.place.loc))) (pagesOf accs)
      (accs.foldl (fun y a => wrLoc a.place.loc
        (natToBytes 8 (readQuad u w.c a.lane).mid ++ natToBytes 4 (readQuad u w.c a.lane).rad ++
          natToBytes 4 (if (readQuad u w.c a.lane).kind = .exact then 0 else 0xC0000000)) y) (noteAll false accs u))))) ∧
  (∀ (s u t : State) (f : LaneFmt) (w : LaneWord) (r : ARun) (g : Gang) (accs : List LaneAcc)
    (vals : List (Nat × W64 × Nat × Bool)), Expect.accesses s u (.eld w) f w r g 16 0 .load accs →
    readLanes 16 false accs [] (noteAll false accs u) = (vals, t) → (∀ x ∈ vals, x.2.2.2 = false) →
    exec (.eld w) s = .next (laneNext g (Expect.flying .load (.laneLoad []) (pagesOf accs)
      ((accs.zip vals).foldl (fun y x => eldLane w.d.toNat x.1 x.2.2.2.1 y) t)))) ∧
  (∀ (s u : State) (i : Instr) (f : LaneFmt) (w : LaneWord) (r : ARun) (g : Gang) (accs : List LaneAcc),
    i = .epin w ∨ i = .eunpin w → Expect.accesses s u i f w r g 16 1 .store accs →
    (∀ l ∈ activeLanes s r g w, apOf (Expect.laneAt u w 16 l) = 4) →
    exec i s = .next (laneNext g (Expect.flying .store (.store (accs.map (·.place.loc))) []
      (accs.foldl (fun y a => match a.place.loc with
        | .spad off => if i = .epin w then pinLane (off / 16) (readQuad u w.c a.lane) y else unpinLane (off / 16) y
        | _ => y) u)))) ∧
  (∀ (s : State) (i : Instr) (f : LaneFmt) (w : LaneWord) (r : ARun) (g : Gang) (l : Nat), i = .epin w ∨ i = .eunpin w →
    Expect.issues s i f w r g → (activeLanes s r g w).find? (fun k => apOf (Expect.laneAt s w 16 k) != 4) = some l →
    exec i s = Expect.trapsLane s 0x06 (Expect.laneAt s w 16 l) g (activeLanes s r g w)))

/-- R251 to R254, R309: ecmp that level 0 decides in every active lane writes the answers into pD; what level 0 decides of two
enclosures is so of every two numbers in them. A lane that straddles with an opaque operand traps 0x0C with reason 1; other
straddling lanes make the gang wait for Whetstone, which writes the answers, charges its units and lets the gang go on. A
comparison that stays undecided traps 0x0C with its reason and lanes, its units charged and, outside deterministic mode, its
issue slot; outside that mode one that costs more than the budget has left traps 0x0A instead and charges nothing. What a
budget has left in deterministic mode is the model's choice (log entry 28), and what is undecided rests on log entry 36. -/
def Obligations.CertifiedComparison : Prop :=
  (∀ (s : State) (f : LaneFmt) (w : LaneWord) (r : ARun) (g : Gang) (ans : Nat → Option Bool),
    Expect.issues s (.ecmp w) f w r g →
    (∀ l, ans l = encDecide (laneX w % 8) (quadEnc (readQuad s w.a l)) (quadEnc (readQuad s w.b l))) →
    ((∀ l ∈ activeLanes s r g w, (ans l).isSome = true) →
      ∃ t, exec (.ecmp w) s = .next t ∧ curRun t.crew = some (Expect.goneOn r g) ∧
        ∀ p l, l < 32 → rdP t p l = if l ∈ activeLanes s r g w ∧ p = w.d.toNat then (ans l).getD false else rdP s p l) ∧
    (∀ loose, loose = (activeLanes s r g w).filter (fun l => (ans l).isNone &&
        ((readQuad s w.a l).kind == .loose || (readQuad s w.b l).kind == .loose)) →
      (loose ≠ [] → exec (.ecmp w) s =
        Expect.trapsLane s 0x0C (2 ^ 32 + Expect.maskOf loose) g (activeLanes s r g w)) ∧
      (loose = [] → (∃ l ∈ activeLanes s r g w, ans l = none) →
        ∃ t, exec (.ecmp w) s = .next t ∧ t.crew.clock = s.crew.clock ∧ t.crew.sc = s.crew.sc ∧ t.mem = s.mem ∧
          t.crew.ln.regs.preds = s.crew.ln.regs.preds ∧ curRun t.crew = some { r with
            gangs := if isDet s then { g with wait := .refine w [] } :: r.gangs.tail
              else r.gangs.tail ++ [{ g with wait := .refine w [] }] }))) ∧
  (∀ (cond : Nat) (xa ya xb yb x y : Rat) (b : Bool), cond ≤ 5 →
    encDecide cond (.iv xa ya) (.iv xb yb) = some b → xa ≤ x → x ≤ ya → xb ≤ y → y ≤ yb → ratCond cond x y = b) ∧
  (∀ (s t : State) (r : ARun) (g : Gang) (w : LaneWord) (failed act : List Nat) (ends : List (Nat × LaneEnd))
    (out : List (Nat × Bool)) (cost : Nat), Expect.inFocus s → refining s = some (r, g, w, failed) →
    act = activeLanes s r g w → refineAll failed w (straddling s w act) s = .ok (ends, t) →
    Expect.inFocus t → t.crew.key = s.crew.key → (∀ x ∈ ends, x.2 ≠ .free) →
    cost = (ends.map (fun x => endCost 0 x.2)).sum →
    ((∀ n, budgetLeft t t.job = some n → cost ≤ n) →
      (ecmpEnd s w act ends = .ok out →
        exec (.whetstoneDecide s.crew.key) s = .next (laneSettle (retire (modRefine (fun h =>
          { h with wait := .ready, pc := h.pc + 12 }) (out.foldl (fun u x => wrP w.d.toNat x.1 x.2 u) (charge cost t)))))) ∧
      (∀ info, ecmpEnd s w act ends = .error info → Expect.quiet t → Expect.canTrap t →
        ∃ u, exec (.whetstoneDecide s.crew.key) s = .next u ∧ u.crew.sc.pc = t.job.rcd.handler ∧
          u.crew.sc.trap = ⟨0x0C, t.crew.sc.pc, g.pc, Expect.maskOf act, info⟩ ∧
          (t.job.budgetOwner = t.job.take → t.job.rcd.budget ≠ 0 →
            u.job.charged = t.job.charged + cost + (if isDet t then 0 else 1)))) ∧
    (isDet t = false → t.job.budgetOwner = t.job.take → t.job.rcd.budget ≠ 0 →
      t.job.rcd.budget.toNat + t.job.extended - t.job.charged < cost → Expect.quiet t → Expect.canTrap t →
      ∃ u, exec (.whetstoneDecide s.crew.key) s = .next u ∧ u.crew.sc.pc = t.job.rcd.handler ∧
        u.crew.sc.trap = ⟨0x0A, t.crew.sc.pc, g.pc, Expect.maskOf act, BitVec.ofNat 64 t.job.charged⟩ ∧
        u.job.charged = t.job.charged))

/-- R57 to R60: a pair word that keeps the pairing rules and the register budget, whose latches are valid: both halves read
the registers as they stood before either wrote; each half gives, in the lanes its own predicate leaves active, what the
single instruction of its operation gives, rounding by the crew default; compares write predicates. R273: in a run of a
region a half that writes a declared live-in in some lane makes the word trap 0x02. -/
def Obligations.PairWords : Prop :=
  (∀ (s : State) (p q : PairHalf) (r : ARun) (g : Gang), headGang s = some (r, g) → pairOk p q = true →
    max (halfTop p) (halfTop q) ≤ 64 * s.job.rcd.regg →
    (∀ h ∈ [p, q], ∀ b ∈ halfLatches h, ∀ l ∈ maskLanes r g.members, rdP s h.pred.toNat l = true →
      (latch s l b).isSome = true) →
    ((halfLive s r p (maskLanes r g.members) || halfLive s r q (maskLanes r g.members)) = false → exec (.lanePairWord p q) s = .next (laneNext g
      ((halfOuts s p (maskLanes r g.members) ++ halfOuts s q (maskLanes r g.members)).foldl halfWrite s))) ∧
    ((halfLive s r p (maskLanes r g.members) || halfLive s r q (maskLanes r g.members)) = true →
      exec (.lanePairWord p q) s = Expect.trapsLane s 0x02 0 g (maskLanes r g.members))) ∧
  (∀ (s : State) (h : PairHalf) (t : Ty) (r : ARun) (w : LaneWord) (l : Nat) (x : Nat × Flags), curRun s.crew = some r →
    t = ty3Of h.ty3.toNat → halfOk h = true → w.rm = 5 →
    Expect.halfResult h.hopc.toNat t (Expect.laneRm w r) w (srcTy s t h.a l) (srcTy s t h.b l)
      (rdVs s l (tyRegs t) h.d.toNat % 2 ^ tyWidth t) = some x → halfVal s h l = x) ∧
  (∀ (s : State) (h : PairHalf) (lanes : List Nat), halfOk h = true → 0x40 ≤ h.hopc.toNat → h.hopc.toNat ≤ 0x46 →
    halfOuts s h lanes = (lanes.filter (fun l => rdP s h.pred.toNat l)).map (fun l =>
      match tyFmt (ty3Of h.ty3.toNat) with
      | some k =>
        let x := fCmp k (h.hopc.toNat - 0x40) (srcTy s (ty3Of h.ty3.toNat) h.a l) (srcTy s (ty3Of h.ty3.toNat) h.b l)
        HalfOut.bit h.d.toNat l x.1 x.2
      | none => HalfOut.bit h.d.toNat l (Expect.laneTest (ty3Of h.ty3.toNat) (BitVec.ofNat 3 (h.hopc.toNat - 0x40))
          (srcTy s (ty3Of h.ty3.toNat) h.a l) (srcTy s (ty3Of h.ty3.toNat) h.b l)) 0))

namespace Sys2Proof.Expect

/-- The first operation in flight of a kind: those before it and those after it. -/
def firstOp (s : State) (p : Op → Bool) (a : List Op) (o : Op) (b : List Op) : Prop :=
  s.crew.ops = a ++ o :: b ∧ p o = true ∧ ∀ x ∈ a, p x = false

/-- The operations in flight are these. -/
def opsAre (l : List Op) (s : State) : State := onC (fun c => { c with ops := l }) s

/-- A deferred trap is pending behind the others (R370). -/
def pending (cause : Nat) (info : W64) (due : Due) (s : State) : State :=
  onC (fun c => { c with ptraps := c.ptraps ++ [⟨cause, info, due⟩] }) s

/-- What entries (32 × register + lane, value) leave in the lane registers: the last entry of a register and lane. -/
def landed (s t : State) (ws : List (Nat × W32)) : Prop :=
  ∀ v l, l < 32 → rdV t v l = match ws.reverse.find? (fun x => x.1 == 32 * v + l) with
    | some x => x.2.toNat
    | none => rdV s v l

/-- Two states whose crew in focus has its team and job slice with it and is the same crew. -/
def sameFocus (s t : State) : Prop := inFocus s ∧ inFocus t ∧ t.crew.key = s.crew.key

/-- The code that a drain writes for column x of row r of a bank (R229): an entry of a flagged row or column drains as a
NaN, an FX entry at an end of the range as an infinity, another as its value on the bank's grid, and an exact zero as +0.
-/
def drainCode (b : Bank) (f ofmt : Nat) (rm : Rm) (r x : Nat) : Nat :=
  let e := smGet 0 b.entries (shWidth f * r + x)
  let fmt := (mFmt ofmt).getD fmtF64
  if b.rflag.testBit r || b.cflag.testBit (shCol f r x) then (roundTo fmt rm .nan).1
  else match (match b.kind with
    | .fp => exOf fmtF64 e.toNat
    | .fx => if e.toInt = -2 ^ 127 then .inf true else if e.toInt = 2 ^ 127 - 1 then .inf false
      else .fin (decide (e.toInt < 0)) e.toInt.natAbs (b.g - 96)) with
  | .fin _ 0 _ => 0
  | y => (roundTo fmt rm y).1

/-- The summary of R339 with one STATUS more. -/
def counted (c : SolveCmd) (low : Nat) : SolveCmd :=
  { c with
    next := c.next + 1
    sumOr := c.sumOr ||| low
    sumFirst := if low ≠ 0 ∧ c.sumBad = 0 then c.next else c.sumFirst
    sumBad := c.sumBad + if low = 0 then 0 else 1 }

/-- The crew in focus is the first of its team, which is in focus with its job slice. -/
def leads (s : State) : Prop := inFocus s ∧ s.crew.key.crew = 0

end Sys2Proof.Expect

/-! ## Events -/

/-- R97, R182, R184, R195, R257: the events of the memory operations in flight, each on the oldest of its kind, with nothing
of its class before it: a load writes its register, or with uncorrectable data leaves a trap that is due at the first use of
it; a lane load and a gather write their lane registers; a store and a scatter whose lines the core's L1 holds send them home
and leave their counters; the next contribution of a scatter-add is added; an atomic executes and its old value is written, a
scalar one with uncorrectable data leaving a trap, a vamo trapping 0x15 with no lane performed. R201, R202, R213, R262: a copy
whose rows can all be read and written moves its bytes and completes, unless an acknowledgement is awaited, and its handle is
full with the lap of the fill; one that meets a world violation or uncorrectable data is abandoned with that cause. A cmo
completes with its effect on the caches. A partition's four results are written. R111, R113: a run with no slice left and no
load or gather to come is complete: its flags are held for the wait that covers it, and the next run may begin. R32, R120: the
last run of a crew whose scalar stream has ended completes the crew, and with the last crew and its operations the team. R149:
a value on its way to a vedge partner fills the partner's slot; when both are full the edge registers take them and the slices
go on. R237 to R239: the walker changes a count, or marks a node free, lowers its children's counts and gives an empty segment
back, in granules that hold no pin; a segment that is being copied out becomes spilled, at the lowest free slot. When an
operation is performed, and which copies of lines a core's L1 holds, is the model's choice (log entries 7, 8), as are the
order of a copy's reads and writes (35), what is kept beside bytes of uncorrectable data (43), and when a team's place is
given up (44). -/
def Obligations.MemoryAndCommandEvents : Prop :=
  ((∀ (s : State) (a b : List Op) (o : Op) (d : Nat) (v va : W64) (bad : Bool), Expect.inFocus s →
    Expect.firstOp s isLoadOp a o b → inOrder s.crew o = true → o.kind = .load d v bad va →
    exec (.loadReturn s.crew.key) s = .next (if bad then Expect.pending 0x15 va (.touch [d]) (Expect.opsAre (a ++ b) s)
      else wrS d v (Expect.opsAre (a ++ b) s))) ∧
  (∀ (s : State) (i : Instr) (a b : List Op) (o : Op) (ws : List (Nat × W32)), Expect.inFocus s →
    ((i = .loadReturn s.crew.key ∧ Expect.firstOp s isLoadOp a o b ∧ inOrder s.crew o = true ∧ o.kind = .laneLoad ws) ∨
      (i = .gatherComplete s.crew.key ∧ Expect.firstOp s isGather a o b ∧ o.kind = .gather ws)) →
    ∃ t, exec i s = .next t ∧ t.crew.ops = a ++ b ∧ Expect.landed s t ws ∧ t.crew.sc = s.crew.sc ∧
      t.crew.ln.regs.preds = s.crew.ln.regs.preds) ∧
  (∀ (s : State) (i : Instr) (a b : List Op) (o : Op) (l : List Loc), Expect.inFocus s → inOrder s.crew o = true →
    ((i = .storePerformed s.crew.key ∧ Expect.firstOp s isStoreOp a o b ∧ o.kind = .store l) ∨
      (i = .scatterPerformed s.crew.key ∧ Expect.firstOp s isScatter a o b ∧ o.kind = .scatter l)) →
    ((∀ x ∈ s.l1, x.core = coreOf s → ∀ pa coh, Loc.phys pa coh ∈ l → pa / 128 ≠ x.line) →
      exec i s = .next (Expect.opsAre (a ++ b) s)) ∧
    (∃ t, exec i s = .next t ∧ t.crew = { s.crew with ops := a ++ b } ∧ t.crews = s.crews ∧
      ∀ x ∈ t.l1, x.core = coreOf s → (∃ pa coh, (coh, x.kind) ∈ [(0, LineKind.hwc), (1, .swc)] ∧ Loc.phys pa coh ∈ l ∧
        pa / 128 = x.line) → x.dirty = 0) ∧
    (∀ (x : L1Line) (pa coh : Nat), s.l1 = [x] → l = [.phys pa coh] → x.core = coreOf s →
      (coh, x.kind) ∈ [(0, LineKind.hwc), (1, .swc)] → x.line = pa / 128 → x.data.length = 128 →
      ∃ t, exec i s = .next t ∧ (∀ k, k < 128 →
        memRd t (128 * x.line + k) 1 = if x.dirty.testBit k then (x.data.drop k).take 1 else memRd s (128 * x.line + k) 1) ∧
        (coh = 0 → t.l1 = []))) ∧
  (∀ (s : State) (a b : List Op) (o : Op) (x : ScatAdd) (r : List ScatAdd), Expect.inFocus s →
    Expect.firstOp s isScatAdd a o b → inOrder s.crew o = true → o.kind = .scatAdd (x :: r) → (∀ n, x.loc ≠ .dctl n) →
    exec (.scatterAddApply s.crew.key) s = .next (Expect.opsAre
      (if r = [] then a ++ b else a ++ { o with kind := .scatAdd r } :: b) (addApply x s))) ∧
  (∀ (s u : State) (a b : List Op) (o : Op) (x : AmoOp) (old : Option Nat) (f : Flags), Expect.inFocus s →
    Expect.firstOp s isAmoOp a o b → inOrder s.crew o = true → o.kind = .amo x →
    amoDo x (Expect.opsAre (a ++ b) s) = (old, f, u) →
    exec (.amoExecute s.crew.key) s = .next (match old with
      | some v => if 2 ≤ x.acq then acquireLines (wrS x.dest (BitVec.ofNat 64 v) (addFlags f u))
          else wrS x.dest (BitVec.ofNat 64 v) (addFlags f u)
      | none => Expect.pending 0x15 x.va (.touch [x.dest]) u)) ∧
  (∀ (s : State) (x : AmoOp) (pa coh : Nat), x.loc = .phys pa coh → s.l1 = [] →
    (badAt s.memBad pa x.n = true → amoDo x s = (none, 0, s)) ∧
    (badAt s.memBad pa x.n = false → x.op ≤ 9 ∨ x.op = 10 → (x.n = 4 ∨ x.n = 8) →
      ∃ u, amoDo x s = (some (bytesToNat (memRd s pa x.n)),
          (Expect.applied x.op (x.n == 8) (BitVec.ofNat 64 (bytesToNat (memRd s pa x.n))) x.b x.cmp).2, u) ∧
        memRd u pa x.n = match (Expect.applied x.op (x.n == 8) (BitVec.ofNat 64 (bytesToNat (memRd s pa x.n))) x.b x.cmp).1 with
          | some v => natToBytes x.n v
          | none => memRd s pa x.n)) ∧
  (∀ (s u : State) (a b : List Op) (o : Op) (x : AmoOp) (l : List AmoOp) (d : Nat) (res : List (Nat × Nat × Flags)),
    Expect.inFocus s → Expect.firstOp s isAmoOp a o b → inOrder s.crew o = true → o.kind = .vamo (x :: l) d →
    ((∀ y ∈ x :: l, amoBad y (Expect.opsAre (a ++ b) s) = false) →
      vamoLanes (x :: l) (Expect.opsAre (a ++ b) s) = (res, u) →
      exec (.amoExecute s.crew.key) s = .next (if 2 ≤ x.acq then acquireLines (amoResults d x.n res u)
        else amoResults d x.n res u)) ∧
    (∀ (y : AmoOp) (g : Gang), (x :: l).find? (fun y => amoBad y (Expect.opsAre (a ++ b) s)) = some y → lastGang s = some g →
      exec (.amoExecute s.crew.key) s = .next (trapLane 0x15 y.va (g.pc - 12)
        (Expect.maskOf ((x :: l).map (·.lane))) g.members (Expect.opsAre (a ++ b) s))))) ∧
  (((∀ (s t : State) (o : Op) (c : CopyOp) (x : Handle), Expect.inFocus s → firstCopy s = some (o, c) → o.held = false →
    c.moved = none → copyMove c s = .ok t → Expect.sameFocus s t → awaitsAck (copyLines c t) t = false → c.bar = none →
    handleOf t c.handle = some x → (∀ y ∈ allCrews t, watches c.handle y = false ∧ claims c.handle y = false) →
    exec (.copyComplete s.crew.key) s = .next (onT (fun y => { y with
      handles := smSet none y.handles c.handle (some { x with st := .full, fc := x.fc + 1, flap := x.fc % 2 == 1 }) })
      (endOp isCopy t))) ∧
  (∀ (s t : State) (o : Op) (c : CopyOp), Expect.inFocus s → firstCopy s = some (o, c) → o.held = false →
    c.moved = none → copyMove c s = .ok t → Expect.sameFocus s t → awaitsAck (copyLines c t) t = true →
    exec (.copyComplete s.crew.key) s =
      .next (modOp isCopy (fun q => { q with kind := .copy { c with moved := some (copyLines c t) } }) t)) ∧
  (∀ (s : State) (c : CopyOp), c.rows = 1 → isSpad c.src = true → isSpad c.dst = true → s.team.pins = [] →
    badAt s.team.spadBad (c.src.toNat % 2 ^ 20) c.len = false →
    ∃ t, copyMove c s = .ok t ∧ spadRd t (c.dst.toNat % 2 ^ 20) c.len = spadRd s (c.src.toNat % 2 ^ 20) c.len ∧
      (∀ k, (k < c.dst.toNat % 2 ^ 20 ∨ c.dst.toNat % 2 ^ 20 + c.len ≤ k) → spadRd t k 1 = spadRd s k 1) ∧
      t.mem = s.mem ∧ t.crew = s.crew) ∧
  (∀ (s : State) (o : Op) (c : CopyOp) (cause : Nat) (x : Handle), Expect.inFocus s → firstCopy s = some (o, c) →
    o.held = false → c.moved = none → copyMove c s = .error (.err cause) → c.bar = none → handleOf s c.handle = some x →
    exec (.copyAbandon s.crew.key cause) s = .next (Expect.pending cause (BitVec.ofNat 64 c.handle) (.handle c.handle)
      (onT (fun t => { t with handles := smSet none t.handles c.handle (some { x with st := .free }) }) (endOp isCopy s)))) ∧
  (∀ (s : State) (x : CmoCmd), Expect.inFocus s → s.crew.cmo = some x → s.crew.wait = .cmo →
    exec (.cmoComplete s.crew.key) s = Expect.goesOn s (onC (fun c => { c with cmo := none }) (cmoApply x s)) ∧
    (∀ l ∈ (cmoApply x s).l1, inScope x.scope (coreOf s) l.core = true →
      (∃ p ∈ cmoPieces x.start x.len s, 128 * l.line < p.1 + p.2 ∧ p.1 < 128 * l.line + 128) →
      (x.op = 0 → dataKind l.kind = true → l.dirty = 0) ∧ (1 ≤ x.op → x.op ≤ 2 → dataKind l.kind = false ∧ l.kind ≠ .ro) ∧
      (x.op = 3 → l.kind ≠ .scode ∧ l.kind ≠ .lcode) ∧ (x.op = 4 → l.kind ≠ .ro)) ∧
    (2 ≤ x.op → (cmoApply x s).mem = s.mem)) ∧
  (∀ (s t : State) (a b : List Op) (o : Op) (d m p : Nat) (ptr : W64) (w x y z share : Nat) (parked : Bool),
    Expect.inFocus s → s.crew.park = none → Expect.firstOp s isPartOp a o b → (inOrder s.crew o = true ∨ parked = true) →
    o.kind = .part d ptr m p share parked →
    partResults ptr m p share s = .ok ([w, x, y, z], false, t) → Expect.sameFocus s t →
    exec (.spPartComplete s.crew.key) s = .next
      (wrS (d + 3) (BitVec.ofNat 64 z) (wrS (d + 2) (BitVec.ofNat 64 y) (wrS (d + 1) (BitVec.ofNat 64 x)
        (wrS d (BitVec.ofNat 64 w) (endOp isPartOp t))))))) ∧
  ((∀ (s : State) (r : ARun), Expect.inFocus s → s.crew.handler = none → s.crew.ln.cur = some r → r.gangs = [] →
    r.run.handler = false → s.crew.ops.any laneReturning = false → s.crew.ln.queue = [] →
    (s.crew.status = .running → ∃ t, exec (.laneRunComplete s.crew.key) s = .next t ∧ t.crew.ln.cur = none ∧
      t.crew.ln.held = s.crew.ln.held ++ [⟨r.run.seq, false, r.flags⟩] ∧ t.crew.sc = s.crew.sc ∧
      t.crew.ln.regs.vregs = s.crew.ln.regs.vregs ∧ t.mem = s.mem) ∧
    (s.crew.status = .exited → s.crew.wait = .none → s.crew.ln.hcur = none → s.crew.ln.hqueue = [] →
      s.crew.hadToken = false → Expect.nobodyWaits s →
      ∃ t, exec (.laneRunComplete s.crew.key) s = .next t ∧ Expect.crewDone { s.crew with
        offered := if r.yielded && !isDet s then true else s.crew.offered
        ln := { s.crew.ln with cur := none, held := s.crew.ln.held ++ [⟨r.run.seq, false, r.flags⟩] } } s t)) ∧
  (∀ s : State, Expect.inFocus s → s.crew.handler = none → s.crew.ln.cur = none → s.crew.status = .complete →
    s.crew.key.crew < 16 →
    ((∃ c ∈ teamCrews s, c.status ≠ .complete ∨ c.ops ≠ []) → exec (.laneRunComplete s.crew.key) s = .next s) ∧
    ((∀ c ∈ teamCrews s, c.status = .complete ∧ c.ops = []) → (placeCore s.team.place).isSome = true →
      s.job.phase = .running →
      ∃ t, exec (.laneRunComplete s.crew.key) s = .next t ∧ t.team.place = .done ∧ t.team.handles = [] ∧
        t.team.barriers = [] ∧ t.team.pins = [] ∧ t.job.teamsDone = s.job.teamsDone + 1 ∧
        t.events = s.events ++ Expect.levelOf s 1 s.team.idx 0 ∧ t.mem = s.mem)) ∧
  (∀ (s : State) (c : Crew) (v : W64) (i : Nat), Expect.inFocus s → s.crew.ln.edge.stageW = none →
    edgeSender s s.crew.key false = some (c, v, i) → c.key ≠ s.crew.key →
    (s.crew.ln.edge.stageE = none → ∃ t, exec (.vedgeDelivery s.crew.key false) s = .next t ∧
      t.crew.ln.edge.stageW = some (v, i) ∧ t.crew.ln.regs = s.crew.ln.regs ∧
      t.crews = s.crews.map (fun x => if x.key = c.key then takeOut true s.crew.key x else x)) ∧
    (∀ (r : ARun) (g : Gang) (x : W64) (j : Nat), s.crew.handler = none → s.crew.ln.cur = some r → r.gangs = [g] →
      g.wait = .vedge → isDet s = false → s.crew.ln.edge.sent = true → s.crew.ln.edge.stageE = some (x, j) →
      ∃ t, exec (.vedgeDelivery s.crew.key false) s = .next t ∧ t.crew.ln.regs.ew = v ∧ t.crew.ln.regs.ee = x ∧
        t.crew.ln.edge.stageW = none ∧ t.crew.ln.edge.stageE = none ∧ t.crew.ln.edge.n = s.crew.ln.edge.n + 1 ∧
        (t.crew.ln.cur.map (fun q => q.gangs.map (fun h => (h.pc, h.wait)))) = some [(g.pc + 12, .ready)] ∧
        t.crew.clock = s.crew.clock + 1 ∧ t.crew.sc = s.crew.sc ∧ t.crew.ln.regs.vregs = s.crew.ln.regs.vregs)) ∧
  (∀ (s : State) (n k off : Nat) (up : Bool) (r : List (Nat × Bool × Nat)) (g : Seg), Expect.leads s →
    waitsIo s (.walker s.team.job s.team.idx) = false → s.team.log.pend = (n, up, k) :: r →
    findSeg s.team.log (n / 256) = some g → g.spilled = false → off = logBase s + 4096 * g.slot + 16 * (n % 256) →
    smGet false s.team.pins (off / 16) = false →
    ∃ t, exec (.walkerReclaim s.team.job s.team.idx) s = .next t ∧ t.team.log.pend = r ∧ t.mem = s.mem ∧ t.crew = s.crew ∧
      spadRd t (off + 2) 2 = natToBytes 2 (countStep up (bytesToNat (spadRd s (off + 2) 2))) ∧
      (∀ x, (x < off + 2 ∨ off + 4 ≤ x) → spadRd t x 1 = spadRd s x 1) ∧
      (up = false → bytesToNat (spadRd s (off + 2) 2) = 1 → n ∈ t.team.log.zeros)) ∧
  (∀ (s : State) (n off : Nat) (r : List Nat) (g : Seg), Expect.leads s →
    waitsIo s (.walker s.team.job s.team.idx) = false → s.team.log.pend = [] → s.team.log.zeros = n :: r →
    findSeg s.team.log (n / 256) = some g → g.spilled = false → off = logBase s + 4096 * g.slot + 16 * (n % 256) →
    smGet false s.team.pins (off / 16) = false →
    (nodeKids (spadRd s off 16) = [] → ∃ t, exec (.walkerReclaim s.team.job s.team.idx) s = .next t ∧
      t.team.log.zeros = r ∧ t.mem = s.mem ∧ t.crew = s.crew ∧ spadRd t off 1 = [0] ∧
      (∀ x, x ≠ off → spadRd t x 1 = spadRd s x 1) ∧
      ((g.used ≤ 1 ∧ s.team.log.cur ≠ some (n / 256)) → findSeg t.team.log (n / 256) = none) ∧
      (¬(g.used ≤ 1 ∧ s.team.log.cur ≠ some (n / 256)) →
        (findSeg t.team.log (n / 256)).map (fun x => (x.slot, x.used)) = some (g.slot, g.used - 1))) ∧
    (∀ (m : Nat) (h : Seg), nodeKids (spadRd s off 16) = [m] → m ≠ n → findSeg s.team.log (m / 256) = some h →
      h.spilled = false → smGet false s.team.pins ((logBase s + 4096 * h.slot + 16 * (m % 256)) / 16) = false →
      ∃ t, exec (.walkerReclaim s.team.job s.team.idx) s = .next t ∧ spadRd t off 1 = [0] ∧
        t.mem = s.mem ∧ t.crew = s.crew ∧ spadRd t (logBase s + 4096 * h.slot + 16 * (m % 256) + 2) 2 =
          natToBytes 2 (countStep false (bytesToNat (spadRd s (logBase s + 4096 * h.slot + 16 * (m % 256) + 2) 2))))) ∧
  (∀ (s : State) (id k : Nat) (g : Seg) (x : Xlat), Expect.leads s → waitsIo s (.context s.team.job s.team.idx) = false →
    s.team.log.spilling = some id → s.l1 = [] → findSeg s.team.log id = some g →
    lowestFree (spillSlots s.team.spillsz) (slotsUsed s.team.log) = some k →
    translate s (ctxAsker (coreOf s) s) (slotAddr s k) 1 = .ok x →
    ∃ t, exec (.segmentSpillComplete s.team.job s.team.idx) s = .next t ∧
      t.mem = smSetMany 0 s.mem x.pa (spadRd s (logBase s + 4096 * g.slot) 4096) ∧ t.team.log.spilling = none ∧
      t.crew = s.crew ∧ ∀ y ∈ t.team.log.segs, y.id = id → y.spilled = true ∧ y.slot = k)))

/-- R218, R222, R224, R227 to R229, R265 to R270, R337 to R340, R363: the events of the engines. A matrix step reads its A
rows and the columns of its block and adds their products to the bank, each entry the products of its row and column; the
last one ends the operation and delivers its flags; a step that reads uncorrectable data abandons the operation. A zeroed
bank holds zeros of its kind. A drain writes each entry in its format, and the bank is zeroed where it asks for that. A
tile product whose entry is valid adds to its bank. What is done before an older weight load that a fault delays stays
outstanding until that is complete (R182). A weight load puts the image in the weight space, or zeros when it is
uncorrectable. A granule of the weight space leaves the core's buffer and comes back when there is room. A stuck core
spills the banks of its last victim and grants the first request. Espalier takes up a compile and finishes it. A solve
record leaves its STATUS, and the last one ends the instruction; a TAG that differs gives STATUS NF; an uncorrectable word
traps 0x15; past the deadline every record left receives UN and a trap 0x16 is pending. actl.FMTE is read at issue (log
entry 10), FMTE and the engines' progress by events being the model's choice, as are the elements of log entry 16, which
granule leaves (48), what is accessed of a context area (21), and what uncorrectable weights mean (43). Here for crews in
focus. -/
def Obligations.EngineEvents : Prop :=
  ((∀ (s : State) (core : Nat) (a l : List Op) (o : Op) (m : MloopOp) (x : Bank) (h : Image)
      (rows cols : List (List Ex × Bool)) (fl : Flags),
    Expect.inFocus s → engineNext s core = some (s.crew.key, o) → Expect.firstOp s isMloop a o l → o.kind = .mloop m →
    bankOf s m.bank = some x → h = imageOf (wtRd s m.woff 32) →
    rows = (List.range (shRows m.f)).map (fun (r : Nat) =>
      mElems m.fmt (spadRd s ((m.aptr : Int) + m.done * m.ainc + r * m.astride).toNat (mChunk m.fmt))) →
    cols = (List.range (shCols m.f)).map (fun c =>
      bColumn s m.woff h (m.jb + c) (m.kb + m.done * mDepth m.fmt) (mDepth m.fmt)) →
    fl = m.flags ||| (stepBank m.f ((rmOf m.rm).getD .rne) (rows.map (·.1)) (cols.map (·.1)) x).2 |||
      (if rows.any (·.2) || cols.any (·.2) then fFMT else 0) →
    (stepBad m h s = none → ∃ t, exec (.matrixStep core) s = .next t ∧
      bankOf t m.bank = some (stepBank m.f ((rmOf m.rm).getD .rne) (rows.map (·.1)) (cols.map (·.1)) x).1 ∧
      (∀ i, i ≠ m.bank → bankOf t i = bankOf s i) ∧ t.crew.sc.regs = s.crew.sc.regs ∧ t.team = s.team ∧ t.mem = s.mem ∧
      (m.done + 1 < m.count → t.crew.ops = a ++ { o with kind := .mloop { m with done := m.done + 1, flags := fl } } :: l ∧
        t.crew.sc = s.crew.sc ∧ t.crew.ptraps = s.crew.ptraps) ∧
      (m.count ≤ m.done + 1 → ((∀ y ∈ a, y.cls ≠ .matrix) → t.crew.ops = a ++ l) ∧ t.crew.sc.astat = s.crew.sc.astat ||| fl ∧
        t.crew.ptraps = s.crew.ptraps ++ if m.fmte && fl &&& fFMT != 0 then [⟨0x14, 9, .matrix⟩] else [])) ∧
    (∀ info, stepBad m h s = some info → ∃ t, exec (.matrixStep core) s = .next t ∧ t.crew.ops = a ++ l ∧
      t.crew.ptraps = s.crew.ptraps ++ [⟨0x15, info, .matrix⟩] ∧ t.crew.sc = s.crew.sc ∧ t.team = s.team ∧
      bankOf t m.bank = some { x with shape := some (x.shape.getD m.f) })) ∧
  (∀ (f : Nat) (rm : Rm) (rows cols : List (List Ex)) (b : Bank) (r c e : Nat) (p : List Ex), f ≤ 3 →
    rows.length = shRows f → cols.length = shCols f → r < shRows f → c < shCols f → shEntry f r c = some e →
    p = ((rows.getD r []).zip (cols.getD c [])).map (fun (q : Ex × Ex) => (exMul (exPlain q.1) (exPlain q.2)).1) →
    (b.kind = .fp → smGet 0 (stepBank f rm rows cols b).1.entries e =
      BitVec.ofNat 128 (roundTo fmtF64 rm (exAdd rm (exOf fmtF64 (smGet 0 b.entries e).toNat) (exSum p)).1).1) ∧
    (b.kind = .fx → smGet 0 (stepBank f rm rows cols b).1.entries e =
      BitVec.ofInt 128 (accumulate (smGet 0 b.entries e).toInt ((p.map (fun q => (onGrid b.g q).1)).foldl (· + ·) 0)).1) ∧
    ((stepBank f rm rows cols b).1.rflag.testBit r = (b.rflag.testBit r || (rows.getD r []).any exSpecial)) ∧
    ((stepBank f rm rows cols b).1.cflag.testBit c = (b.cflag.testBit c || (cols.getD c []).any exSpecial))) ∧
  (∀ (s : State) (core b : Nat) (a l : List Op) (o : Op) (g : Option Int) (x : Bank), Expect.inFocus s →
    engineNext s core = some (s.crew.key, o) → o.kind = .mzero b g → bankOf s b = some x → Expect.firstOp s isMzero a o l →
    ∃ t, exec (.matZeroExecute core) s = .next t ∧ ((∀ y ∈ a, y.cls ≠ .matrix) → t.crew.ops = a ++ l) ∧
      (o.cls = .matrix → (∃ y ∈ a, y.cls = .matrix ∧ opLive y = true) → { o with kind := .ended } ∉ a →
        t.crew.ops = a ++ { o with kind := .ended } :: l ∧
        outstanding t.crew .matrix = outstanding s.crew .matrix) ∧
      bankOf t b = some ⟨if g.isSome then .fx else .fp, g.getD 0, none, 0, 0, []⟩ ∧
      (∀ i, i ≠ b → bankOf t i = bankOf s i) ∧ t.crew.sc = s.crew.sc) ∧
  (∀ (s : State) (core f : Nat) (a l : List Op) (o : Op) (d : DrainOp) (b : Bank), Expect.inFocus s →
    engineNext s core = some (s.crew.key, o) → o.kind = .mdrain d → Expect.firstOp s isMdrain a o l →
    bankOf s d.bank = some b → b.shape = some f → f ≤ 3 → d.ofmt ≤ 5 → shWidth f * mSize d.ofmt ≤ d.dstride →
    s.team.pins = [] → ∃ (t : State) (fl : Flags), exec (.matDrainExecute core) s = .next t ∧
      ((∀ y ∈ a, y.cls ≠ .matrix) → t.crew.ops = a ++ l) ∧
      (∀ r x, r < 1024 / shWidth f → x < shWidth f →
        spadRd t (d.dst + r * d.dstride + x * mSize d.ofmt) (mSize d.ofmt) =
          natToBytes (mSize d.ofmt) (Expect.drainCode b f d.ofmt ((rmOf d.rm).getD .rne) r x)) ∧
      (∀ k, (∀ r, r < 1024 / shWidth f → k < d.dst + r * d.dstride ∨ d.dst + r * d.dstride + shWidth f * mSize d.ofmt ≤ k) →
        spadRd t k 1 = spadRd s k 1) ∧
      bankOf t d.bank = some (if d.rezero then { b with entries := [], rflag := 0, cflag := 0 } else b) ∧
      (∀ i, i ≠ d.bank → bankOf t i = bankOf s i) ∧ t.mem = s.mem ∧
      t.crew.sc = { s.crew.sc with astat := s.crew.sc.astat ||| fl }) ∧
  (∀ (s u : State) (core : Nat) (a l : List Op) (o : Op) (t : TmulOp) (e : EspEntry) (x : Bank) (vb : List Byte),
    Expect.inFocus s → engineNext s core = some (s.crew.key, o) → o.kind = .tmul t → Expect.firstOp s isTmul a o l →
    espFind s t.bind.addr t.bind.gen = some e → bankOf s t.bank = some x →
    (e.efmt ≠ t.bind.efmt → ∃ v, exec (.spTmulExecute core) s = .next v ∧ v.crew.ops = a ++ l ∧
      v.crew.ptraps = s.crew.ptraps ++ [⟨0x14, BitVec.ofNat 64 (13 + 256 * t.tile), .matrix⟩] ∧
      bankOf v t.bank = some { x with shape := some (x.shape.getD 2) }) ∧
    (e.efmt = t.bind.efmt → tmulRead 3 e.vptr (valueBytes e.efmt e.nnz) s = .ok (vb, u) →
      u.crew = s.crew → u.team = s.team → u.job = s.job →
      (∀ r, r < 64 → badAt s.team.spadBad (t.dptr + r * t.dstride) (denseRow e.efmt) = false) →
      ∃ v, exec (.spTmulExecute core) s = .next v ∧ ((∀ y ∈ a, y.cls ≠ .matrix) → v.crew.ops = a ++ l) ∧ v.team = s.team ∧
        bankOf v t.bank = some (tmulBank e.efmt ((rmOf t.rm).getD .rne)
          (pairRows e.rows ((mElems e.efmt vb).1.take e.nnz))
          ((List.range 64).map (fun r => (mElems e.efmt (spadRd s (t.dptr + r * t.dstride) (denseRow e.efmt))).1)) x).1 ∧
        (∀ i, i ≠ t.bank → bankOf v i = bankOf s i))) ∧
  (∀ (s u : State) (core woff hdr len : Nat) (a l : List Op) (o : Op) (src : W64) (b : List Byte), Expect.inFocus s →
    wloadNext s core = some (s.crew.key, o) → Expect.firstOp s isWload a o l → o.kind = .wload src woff hdr len →
    (isSpad src = true → badAt s.team.spadBad (src.toNat % 2 ^ 20 + hdr) (len - hdr) = false →
      ∃ t, exec (.weightLoadComplete core) s = .next t ∧ t.crew = { s.crew with ops := a ++ l } ∧
        t.team.weights = smSetMany 0 s.team.weights (woff + hdr) (spadRd s (src.toNat % 2 ^ 20 + hdr) (len - hdr)) ∧
        t.team.spad = s.team.spad ∧ t.mem = s.mem) ∧
    (isSpad src = true → badAt s.team.spadBad (src.toNat % 2 ^ 20 + hdr) (len - hdr) = true →
      ∃ t, exec (.weightLoadComplete core) s = .next t ∧
        t.crew = { s.crew with ops := a ++ l, ptraps := s.crew.ptraps ++ [⟨0x15, BitVec.ofNat 64 woff, .matrix⟩] } ∧
        t.team.weights = smSetMany 0 s.team.weights (woff + hdr) (List.replicate (len - hdr) 0)) ∧
    (isSpad src = false → readVa (engineAsker .matrix s) (src.toNat % 2 ^ 56 + hdr) (len - hdr) s = .ok (b, false, u) →
      u.crew = s.crew → u.team = s.team → u.job = s.job →
      ∃ t, exec (.weightLoadComplete core) s = .next t ∧ t.crew = { s.crew with ops := a ++ l } ∧
        t.team.weights = smSetMany 0 s.team.weights (woff + hdr) b ∧ t.team.spad = s.team.spad ∧ t.mem = u.mem)) ∧
  (∀ (s t : State) (n c : Nat) (xs : List (Nat × Xlat)), Expect.leads s → n < 128 → placeCore s.team.place = some c →
    waitsIo s (.context s.job.take s.team.idx) = false →
    (n ∈ s.team.absent → granulesOn s c < 128 → n ∈ s.team.mesh →
      exec (.weightGranuleRefill s.team.job s.team.idx n) s = .next { s with team := { s.team with
        absent := s.team.absent.filter (· != n), mesh := s.team.mesh.filter (· != n) } }) ∧
    (n ∈ s.team.absent → granulesOn s c < 128 → n ∉ s.team.mesh → s.job.rcd.ctxbase ≠ 0 →
      areaAccess (granuleHolders c) 0 (backing s.job.rcd + 4096 * n) 4096 s = .ok (xs, t) →
      exec (.weightGranuleRefill s.team.job s.team.idx n) s = .next { t with team := { s.team with
        absent := s.team.absent.filter (· != n), mesh := s.team.mesh.filter (· != n) } }) ∧
    (n ∈ s.team.absent → 128 ≤ granulesOn s c → exec (.weightGranuleRefill s.team.job s.team.idx n) s = .next s) ∧
    (n ∉ s.team.absent → n ∈ usedGranules s s.team → n ∉ loadGranules s s.team → s.job.rcd.ctxbase ≠ 0 →
      areaAccess (granuleHolders c) 1 (backing s.job.rcd + 4096 * n) 4096 s = .ok (xs, t) →
      exec (.weightGranuleRefill s.team.job s.team.idx n) s =
        .next { t with team := { s.team with absent := n :: s.team.absent } }) ∧
    (n ∉ s.team.absent → (n ∉ usedGranules s s.team ∨ n ∈ loadGranules s s.team ∨ s.job.rcd.ctxbase = 0) →
      exec (.weightGranuleRefill s.team.job s.team.idx n) s = .next s)) ∧
  (∀ (s t : State) (hs : List (HolderKind × Nat)) (kind off n : Nat) (xs : List (Nat × Xlat)),
    areaAccess hs kind off n s = .ok (xs, t) →
    xs.length = ceilDiv n 4096 ∧ t.crew = s.crew ∧ t.crews = s.crews ∧ t.team = s.team ∧ t.teams = s.teams ∧
    t.job = s.job ∧ t.jobs = s.jobs ∧
    (s.l1 = [] → (kind ≠ 1 → t.mem = s.mem) ∧ (kind = 1 → smWf 0 s.mem = true →
      ∀ a, (∀ p ∈ xs, a < p.2.pa ∨ p.2.pa + 4096 ≤ a) → smGet 0 t.mem a = smGet 0 s.mem a))) ∧
  (∀ (s : State) (core : Nat), (∀ c ∈ coreCrews s core, detCrew s c = false) →
    (accStuck s core (fun _ => true) = true →
      exec (.accDeadlockBreak core) s = .next (grantBanks core 16 (spillBanks core (fun _ => true) 16 s))) ∧
    ((∀ c ∈ coreCrews s core, accNeed c = 0) → exec (.accDeadlockBreak core) s = .next s) ∧
    (∀ (v : Crew) (f1 n1 f2 n2 i1 i2 : Nat) (ys : List (Nat × Xlat)), Expect.inFocus s → coreCrews s core = [s.crew, v] → v.key ≠ s.crew.key →
      v.key.job = s.crew.key.job → v.key.team = s.crew.key.team → s.crew.status ≠ .complete → v.status ≠ .complete →
      s.crew.wait = .acc f1 n1 i1 → 0 < n1 → s.crew.spilled = [] → (∀ i, i < n1 → bankOf s (f1 + i) = none) →
      v.wait = .acc f2 n2 i2 → v.spilled = [] → v.banks ≠ [] → s.job.rcd.ctxbase ≠ 0 →
      16 < banksHeld s.crew + banksHeld v + n1 → banksHeld s.crew + n1 ≤ 16 →
      waitsIo s (.context s.job.take s.team.idx) = false →
      areaXlats 1 (accSlots s.job.rcd) (16 * 20480) s = .ok ys →
      ∃ t, exec (.accDeadlockBreak core) s = .next t ∧ t.crew.wait = .none ∧ t.crew.sc.pc = s.crew.sc.pc + 4 ∧
        (∀ i, i < n1 → bankOf t (f1 + i) = some freshBank) ∧
        (∀ i, bankOf s i ≠ none → bankOf t i = bankOf s i) ∧
        ∃ d ∈ t.crews, d.key = v.key ∧ ∀ i, smGet none d.banks i = smGet none v.banks i ∨ (f2 ≤ i ∧ i < f2 + n2)))) ∧
  ((∀ (s : State) (k : Nat) (a b : List EspEntry) (e : EspEntry), s.espalier = a ++ e :: b → e.cluster = k →
    e.compiled = false →
    (e.started = false → (∀ x ∈ a, x.cluster ≠ k ∨ x.compiled = true) →
      (∀ x ∈ b, x.cluster ≠ k ∨ x.compiled = true ∨ x.started = false) →
      exec (.espalierCompile k) s = .next { s with espalier := a ++ { e with started := true } :: b }) ∧
    (e.started = true → (∀ x ∈ a, x.cluster ≠ k ∨ x.started = false ∨ x.compiled = true) →
      (∀ c ∈ allCrews s, c.ops.any isTload = false) →
      exec (.espalierCompileDone k) s = .next { s with espalier := a ++ { e with compiled := true } :: b })) ∧
  (∀ (s u : State) (c : SolveCmd) (off st : Nat), Expect.inFocus s → s.crew.wait = .solve → s.crew.solve = some c →
    off = c.mptr.toNat % 2 ^ 20 + c.next * c.mstride →
    (deadlinePassed s s.job = false → svPoison c off s = false → svRecord c off s = (st, u) → Expect.sameFocus s u →
      (c.next + 1 ≠ c.count → exec (.solveRecordFinished s.crew.key) s =
        .next { u with crew := { u.crew with solve := some (Expect.counted c (st % 256)) } }) ∧
      (c.next + 1 = c.count → c.unfinished = 0 → exec (.solveRecordFinished s.crew.key) s =
        .next (finish (u.crew.sc.pc + 4) { u with crew := { u.crew with
          solve := none
          svStat := BitVec.ofNat 64 ((Expect.counted c (st % 256)).sumBad +
            2 ^ 16 * (Expect.counted c (st % 256)).sumFirst + 2 ^ 32 * (Expect.counted c (st % 256)).sumOr) } }))) ∧
    (deadlinePassed s s.job = false → svPoison c off s = false → (c.ins = 2 ∨ c.ins = 3) → s.team.pins = [] →
      ((bytesToNat (spadRd s (off + 8) 8)) % 256 ≠ c.n ∨ bytesToNat (spadRd s (off + 8) 8) / 256 % 4 ≠ c.arith) →
      ∃ t, exec (.solveRecordFinished s.crew.key) s = .next t ∧ spadRd t off 8 = natToBytes 8 32 ∧
        (∀ k, (k < off ∨ off + 8 ≤ k) → spadRd t k 1 = spadRd s k 1) ∧ t.mem = s.mem) ∧
    (deadlinePassed s s.job = false → svPoison c off s = true → Expect.canTrap s → s.crew.ptraps = [] →
      s.crew.ops.any isReturn = false → s.crew.sieve = [] →
      ∃ t, exec (.solveRecordFinished s.crew.key) s = .next t ∧ t.crew.sc.pc = s.job.rcd.handler ∧ t.crew.solve = none ∧
        t.crew.sc.trap = ⟨0x15, s.crew.sc.pc, 0, 0, BitVec.ofNat 64 (c.mptr.toNat % 2 ^ 56 + c.next * c.mstride)⟩ ∧
        t.team = s.team) ∧
    (deadlinePassed s s.job = true → c.next < c.count → c.unfinished = 0 → 8 ≤ c.mstride → s.team.pins = [] →
      (∀ p ∈ s.crew.ptraps, p.cause ≠ 0x0B) →
      ∃ t, exec (.solveRecordFinished s.crew.key) s = .next t ∧ t.crew.solve = none ∧ t.crew.wait = .none ∧
        t.crew.sc.pc = s.crew.sc.pc + 4 ∧ t.crew.ptraps = s.crew.ptraps ++
          [⟨0x16, BitVec.ofNat 64 (c.next + 2 ^ 16 * (c.count - c.next)), .now⟩] ∧
        ∀ k, c.next ≤ k → k < c.count → spadRd t (c.mptr.toNat % 2 ^ 20 + k * c.mstride) 8 = natToBytes 8 64)))

/-- R342, R343, R346, R347, R350 to R352, R357: the events of the fabric, on the oldest operation of a crew, its peers
being reachable. A put whose row can be read sends it and is over; a get writes what the peer answers; a signal goes once
everything that its release covers is performed, after the core's dirty lines; with this device as the peer the access is
performed here. An access through aperture 0x3 takes its answer, with lanes at several peers one peer after the other. An
operation that has ended behind an older atomic of the Sieve stays outstanding until its turn (R182), and the atomics that a
flush sends to one place of a peer go there in key order (R317). An operation that the peer cannot complete is abandoned
and pends a trap 0x17 with the reason and the peer, and so is one whose peer cannot be reached; a reduction fails with
reason 1 or 5. A message of a reduction joins its state, once for a rank, and with the last one the result is written and
the operation is over. An arriving access is performed, or waits for the answer to its fault, or is refused in D3. A retry
is counted, and a port goes down with the operations that only it could carry. That a crew's accesses are performed one
after the other, and that the event carries what the peer answers, is the model's choice (log entry 37), as are the place of
the counts in the error log (12), how far an atomic sent to a peer goes with its flush (27), what waits in D3 (33), and the
peer named where the rule names none (2). -/
def Obligations.FabricEvents : Prop :=
  ((∀ (s t : State) (a l : List Op) (o : Op) (f : FabOp) (b data : List Byte), Expect.inFocus s → Expect.firstOp s isFab a o l →
    o.held = false → o.kind = .fabric f → fld f.remotePtr 59 48 ≠ fxSelf s → unreachable s (fld f.remotePtr 59 48) = false →
    (f.isGet = false → f.signal = none → copyGet f.localPtr f.len s = .ok (b, false, t) → Expect.sameFocus s t →
      exec (.fabricOpComplete s.crew.key data) s = .next (opEnd isFab t)) ∧
    (f.isGet = false → f.signal = none → copyGet f.localPtr f.len s = .ok (b, true, t) →
      exec (.fabricOpComplete s.crew.key data) s = .next (Expect.pending 0x15 (BitVec.ofNat 64
        (if isSpad f.localPtr then f.localPtr.toNat % 2 ^ 20 else f.localPtr.toNat % 2 ^ 56)) .fabric
          (Expect.opsAre (a ++ l) s))) ∧
    (f.isGet = true → data.length = f.len → copyPut f.localPtr data s = .ok t → Expect.sameFocus s t →
      exec (.fabricOpComplete s.crew.key data) s = .next (opEnd isFab t)) ∧
    (f.isGet = true → data.length = f.len → isSpad f.localPtr = true → s.team.pins = [] → behindOlder s.crew o = false →
      ∃ u, exec (.fabricOpComplete s.crew.key data) s = .next u ∧ u.crew.ops = a ++ l ∧ u.mem = s.mem ∧
        spadRd u (f.localPtr.toNat % 2 ^ 20) f.len = data ∧
        ∀ k, (k < f.localPtr.toNat % 2 ^ 20 ∨ f.localPtr.toNat % 2 ^ 20 + f.len ≤ k) → spadRd u k 1 = spadRd s k 1) ∧
    (f.isGet = true → data.length ≠ f.len → exec (.fabricOpComplete s.crew.key data) s = .next s) ∧
    (∀ w v add, f.isGet = false → f.signal = some (w, v, add) →
      (signalReady f s = false → exec (.fabricOpComplete s.crew.key data) s = .next s) ∧
      (signalReady f s = true → ackWaits (releaseLines s) = [] → copyGet f.localPtr f.len s = .ok (b, false, t) →
        Expect.sameFocus s t → exec (.fabricOpComplete s.crew.key data) s = .next (opEnd isFab (releaseLines t))))) ∧
  (∀ (s t u : State) (a l : List Op) (o : Op) (f : FabOp) (b r data : List Byte), Expect.inFocus s →
    Expect.firstOp s isFab a o l → o.held = false → o.kind = .fabric f → fld f.remotePtr 59 48 = fxSelf s → f.isGet = false →
    f.signal = none → f.len ≠ 0 → copyGet f.localPtr f.len s = .ok (b, false, t) →
    ingressDo (fld f.remotePtr 47 0) (.write b) t = .ok (r, false, u) → Expect.sameFocus s u →
    exec (.fabricOpComplete s.crew.key data) s = .next (opEnd isFab u)) ∧
  (∀ (s : State) (a l : List Op) (o : Op) (lane : Bool) (x : RemAcc) (n : Nat) (data : List Byte), Expect.inFocus s →
    Expect.firstOp s isFab a o l → o.held = false → s.crew.status ≠ .complete → o.kind = .remote lane [x] none →
    fld x.ptr 59 48 ≠ fxSelf s → unreachable s (fld x.ptr 59 48) = false →
    n = (match x.kind with
      | .read k => k
      | .write _ => 0
      | .amo _ k _ _ => k) → data.length = n →
    exec (.fabricOpComplete s.crew.key data) s =
      .next (Expect.opsAre (a ++ { o with kind := .remote lane [x] (some (.data data)) } :: l) s)) ∧
  (∀ (s : State) (a l : List Op) (o : Op) (lane : Bool) (x y : RemAcc) (r : List RemAcc) (data : List Byte), Expect.inFocus s →
    Expect.firstOp s isFab a o l → o.held = false → o.kind = .remote lane (x :: y :: r) none →
    fld x.ptr 59 48 ≠ fld y.ptr 59 48 → fld x.ptr 59 48 ≠ fxSelf s →
    (∀ z ∈ x :: y :: r, unreachable s (fld z.ptr 59 48) = false) → data.length = replySize x.kind →
    exec (.fabricOpComplete s.crew.key data) s =
      .next (Expect.opsAre (a ++ { o with kind := .remote lane (x :: y :: r) (some (.part 1 data)) } :: l) s)) ∧
  (∀ (s : State) (a l : List Op) (o : Op) (f : FabOp), Expect.firstOp s isFab a o l → o.kind = .fabric f →
    (behindOlder s.crew o = false → opEnd isFab s = Expect.opsAre (a ++ l) s) ∧
    (behindOlder s.crew o = true → opEnd isFab s = Expect.opsAre (a ++ { o with kind := .ended } :: l) s ∧
      outstanding (opEnd isFab s).crew .fabric = outstanding s.crew .fabric)) ∧
  (∀ (s : State) (a l : List Op) (o : Op) (k d : Nat) (x : RemAcc) (y : AmoOp) (data : List Byte), Expect.inFocus s →
    Expect.firstOp s isFab a o l → o.held = false → o.kind = .peerAmo k x y d → unreachable s (fld x.ptr 59 48) = false →
    farEarlier s k x y o = true → exec (.fabricOpComplete s.crew.key data) s = .next s) ∧
  (∀ (s : State) (a b : List Op) (o : Op) (reason : Nat), Expect.inFocus s → Expect.firstOp s isFab a o b → o.held = false →
    (∀ f, o.kind = .fabric f → (1 ≤ reason → reason ≤ 4 → exec (.fabricOpAbandon s.crew.key reason) s =
        .next (Expect.pending 0x17 (BitVec.ofNat 64 (reason * 4096 + fld f.remotePtr 59 48)) .fabric
          (Expect.opsAre (a ++ b) s))) ∧
      (unreachable s (fld f.remotePtr 59 48) = true → ∀ data, exec (.fabricOpComplete s.crew.key data) s =
        .next (Expect.pending 0x17 (BitVec.ofNat 64 (4096 + fld f.remotePtr 59 48)) .fabric (Expect.opsAre (a ++ b) s)))) ∧
    (∀ lane x l r n, o.kind = .remote lane l r → ((r = none ∧ n = 0) ∨ ∃ d, r = some (.part n d)) →
      (l.drop n).head? = some x → s.crew.status ≠ .complete → 1 ≤ reason → reason ≤ 4 →
      exec (.fabricOpAbandon s.crew.key reason) s = .next
        (Expect.opsAre (a ++ { o with
          kind := .remote lane l (some (.failed (BitVec.ofNat 64 (reason * 4096 + fld x.ptr 59 48)))) } :: b) s)) ∧
    (∀ lane l p, o.kind = .remote lane l none → s.crew.status ≠ .complete →
      (l.map (fun x => fld x.ptr 59 48)).find? (unreachable s) = some p → ∀ data,
      exec (.fabricOpComplete s.crew.key data) s = .next (Expect.opsAre (a ++ { o with
        kind := .remote lane l (some (.failed (BitVec.ofNat 64 (4096 + p)))) } :: b) s)) ∧
    (∀ r p, o.kind = .reduce r → r.peers.find? (unreachable s) = some p → (reason = 1 ∨ reason = 5) →
      exec (.fabricOpAbandon s.crew.key reason) s = .next (Expect.pending 0x17
        (BitVec.ofNat 64 (reason * 4096 + p % 4096)) .fabric (Expect.opsAre (a ++ b) { s with free := s.free + 1 }))))) ∧
  ((∀ (s : State) (c : Contribution),
    (s.dev.d3 = true → exec (.fxReduceCombine c) s = .next s) ∧
    (s.dev.d3 = false → (∀ x ∈ allCrews s, x.ops.any isFab = false) →
      exec (.fxReduceCombine c) s = .next (putContribution c s)) ∧
    ((∀ r ∈ s.reduces, r.planid ≠ c.planid ∨ r.epoch ≠ c.epoch) →
      putContribution c s = { s with reduces := s.reduces ++ [⟨c.planid, c.epoch, [c], false⟩] }) ∧
    (∀ (x : ReduceSt) (l : List ReduceSt), s.reduces = x :: l → x.planid = c.planid → x.epoch = c.epoch →
      (∀ r ∈ l, r.planid ≠ c.planid ∨ r.epoch ≠ c.epoch) →
      ((∀ g ∈ x.got, g.rank ≠ c.rank) → (∀ g ∈ x.got, g.p = c.p ∧ g.ty = c.ty ∧ g.op = c.op ∧ g.count = c.count) →
        putContribution c s = { s with reduces := { x with got := x.got ++ [c] } :: l }) ∧
      ((∃ g ∈ x.got, g.rank = c.rank) → putContribution c s = s) ∧
      ((∀ g ∈ x.got, g.rank ≠ c.rank) → (∃ g ∈ x.got, g.p ≠ c.p ∨ g.ty ≠ c.ty ∨ g.op ≠ c.op ∨ g.count ≠ c.count) →
        putContribution c s = { s with reduces := { x with got := x.got ++ [c], bad := true } :: l }))) ∧
  (∀ (s : State) (c : Contribution) (a b : List Op) (o : Op) (r : ReduceOp) (x : ReduceSt) (l : List Nat), Expect.inFocus s →
    s.dev.d3 = false → (∀ y ∈ s.crews, y.ops.any isFab = false) → Expect.firstOp s isFab a o b → o.held = false →
    o.kind = .reduce r → r.planid = c.planid → r.epoch = c.epoch → reduceOf r (putContribution c s) = some x →
    x.bad = false → reduceResult r x = some l → isSpad r.out = true → s.team.pins = [] →
    ∃ t, exec (.fxReduceCombine c) s = .next t ∧ t.crew.ops = a ++ b ∧ t.mem = s.mem ∧
      spadRd t (r.out.toNat % 2 ^ 20) (l.flatMap (natToBytes (tyWidth (tyOf r.ty) / 8))).length =
        l.flatMap (natToBytes (tyWidth (tyOf r.ty) / 8)) ∧
      ∀ y ∈ t.reduces, y.planid ≠ r.planid ∨ y.epoch ≠ r.epoch)) ∧
  ((∀ (s : State) (va : W64) (k : IngressKind), s.dev.d3 = true → exec (.fabricIngressAccess va k) s = .next s) ∧
  (∀ (s t : State) (va : W64) (k : IngressKind) (b : List Byte) (bad : Bool), s.dev.d3 = false →
    ingressDo (fld va 47 0) (match k with
      | .read n => .read n
      | .write d => .write d
      | .amo op n v cmp => .amo op n v cmp) s = .ok (b, bad, t) → exec (.fabricIngressAccess va k) s = .next t) ∧
  (∀ (s : State) (va : W64) (d : List Byte) (x : Xlat), s.dev.d3 = false → s.l1 = [] → d ≠ [] →
    va.toNat % 4096 + d.length ≤ 4096 → translate s (ingressAsker s) (va.toNat % 2 ^ 48) 1 = .ok x →
    ∃ t, exec (.fabricIngressAccess va (.write d)) s = .next t ∧ t.mem = smSetMany 0 s.mem x.pa d ∧ t.crew = s.crew) ∧
  (∀ (s : State) (va : W64) (k : IngressKind) (q : RemKind) (kind level pa n : Nat), s.dev.d3 = false → q = ingressKind k →
    ingressDo (va.toNat % 2 ^ 48) q s = .error (.fault kind level pa) →
    (∀ m ∈ s.merges, isKey 64 (asidOf s.dev.fxroot) false (va.toNat % 2 ^ 48 / 4096) m = false) → freeMerge s 64 = some n →
    exec (.fabricIngressAccess va k) s = .next { s with merges := s.merges ++
      [{ mkMerge { Job.reset with root := s.dev.fxroot } 64 false (va.toNat % 2 ^ 48) (va.toNat % 2 ^ 48 / 4096) kind level pa
          (match k with
            | .read _ => 0
            | .write _ => 1
            | .amo _ _ _ _ => 2) 7 n with waiters := [.ingress (va.toNat % 2 ^ 48) q] }] }) ∧
  (∀ (s : State) (va : W64) (k : IngressKind) (q : RemKind) (kind level pa : Nat), s.dev.d3 = false → q = ingressKind k →
    ingressDo (va.toNat % 2 ^ 48) q s = .error (.fault kind level pa) →
    (∀ m ∈ s.merges, isKey 64 (asidOf s.dev.fxroot) false (va.toNat % 2 ^ 48 / 4096) m = false) → freeMerge s 64 = none →
    exec (.fabricIngressAccess va k) s =
      .next { s with dev := { s.dev with ingressWait := s.dev.ingressWait ++ [(va.toNat % 2 ^ 48, q)] } }) ∧
  (∀ (s : State) (port : Nat), (16 ≤ port → exec (.kalbyFlitRetry port) s = .next s ∧ exec (.kalbyPortDown port) s = .next s) ∧
    (port < 16 →
      exec (.kalbyFlitRetry port) s = .next { s with dev := { s.dev with errlog := smMod 0 s.dev.errlog 6 (· + 1) } } ∧
      (port ∉ s.dev.portsDown → (∀ c ∈ allCrews s, c.ops.any isFab = false) →
        exec (.kalbyPortDown port) s = .next { s with dev := { s.dev with
          portsDown := port :: s.dev.portsDown, errlog := smMod 0 s.dev.errlog 7 (· + 1) } }) ∧
      (∀ (a b : List Op) (o : Op) (f : FabOp), Expect.inFocus s → port ∉ s.dev.portsDown → s.crew.ops = a ++ o :: b →
        o.held = false → isFab o = true → o.kind = .fabric f → (∀ x ∈ a ++ b, isFab x = false) →
        (∀ c ∈ s.crews, c.ops.any isFab = false) →
        viaPort s port (fld f.remotePtr 59 48) = true → fld f.remotePtr 59 48 ≠ fxSelf s →
        exec (.kalbyPortDown port) s = .next (Expect.pending 0x17 (BitVec.ofNat 64 (4096 + fld f.remotePtr 59 48)) .fabric
          (Expect.opsAre (a ++ b) { s with dev := { s.dev with
            portsDown := port :: s.dev.portsDown, errlog := smMod 0 s.dev.errlog 7 (· + 1) } }))))))

namespace Sys2Proof.Expect

/-- The device is up and its clock runs (R356 to R358). -/
def up (s : State) : Prop := s.dev.bootReady = true ∧ s.dev.tripped = false ∧ s.dev.d3 = false

/-- A slice queue of another content. -/
def queueIs (q : Nat) (x : SliceQueue) (s : State) : State := { s with queues := smSet SliceQueue.reset s.queues q x }

/-- Record i of queue q, which is r, fails with a reason (R16, R21): it leaves the queue and becomes a job slice whose
completion store is next, and no team of it starts. -/
def recordFails (s u : State) (q i reason : Nat) (r : QRec) : Prop :=
  (sliceQ u q).recs = (sliceQ s q).recs.eraseIdx i ∧ u.nextTake = s.nextTake + 1 ∧ u.teams = s.teams ∧ u.crew = s.crew ∧
    u.mem = s.mem ∧ ∃ j : Job, u.jobs = j :: s.jobs ∧ j.take = s.nextTake ∧ j.rcd = r.rcd ∧ j.queue = q ∧ j.failReason = reason ∧
      j.phase = .storing ∧ j.parent = r.parent ∧ j.secure = r.secure

/-- A prerequisite of record i of queue q stands as given, and nothing else of the queues has changed. -/
def preqIs (s u : State) (q i n : Nat) (r : QRec) (st : PreqSt) : Prop :=
  (sliceQ u q).recs[i]? = some (if n = 0 then { r with pre0 := st } else { r with pre1 := st }) ∧
    (∀ k, k ≠ i → (sliceQ u q).recs[k]? = (sliceQ s q).recs[k]?) ∧ (∀ p, p ≠ q → sliceQ u p = sliceQ s p) ∧
    u.crew = s.crew ∧ u.mem = s.mem ∧ u.jobs = s.jobs

/-- The entry m is freed: crews that a test selects, and those that wait for a free entry of its table, issue again (R283,
R286). -/
def freed (m : Merge) (p : Crew → Bool) (s : State) : State :=
  { s with
    crew := if p s.crew || parkedIn m.table 1024 s.crew then unpark s.crew else s.crew
    crews := s.crews.map (fun c => if p c || parkedIn m.table 1024 c then unpark c else c)
    merges := s.merges.filter (fun x => !(x.table == m.table && x.entry == m.entry)) }

/-- The crew in focus is the only one of the machine, deterministic and on a core: what a flush does to it alone. Its interval
has ended, nothing of it is in flight but what its Sieve holds, and no walker has work of the interval left. -/
def alone (s : State) (k : Nat) (es : List SieveEntry) : Prop :=
  inFocus s ∧ up s ∧ isDet s = true ∧ s.job.phase = .running ∧ s.job.flushK = k ∧ s.crews = [] ∧ s.teams = [] ∧ s.l1 = [] ∧
    s.tlbs = [] ∧ s.merges = [] ∧ s.crew.status = .running ∧ s.crew.sieve = es ∧ (∀ e ∈ es, e.flush ≤ k) ∧ s.crew.ops = [] ∧
    s.crew.ln.cur = none ∧ s.crew.ln.hcur = none ∧ s.crew.ln.edge.outW = [] ∧ s.crew.ln.edge.outE = [] ∧
    s.crew.ln.edge.sent = false ∧ s.crew.spilled = [] ∧ s.crew.hadToken = false ∧ s.team.barriers = [] ∧ walked s k = true ∧
    (k + 1) * flushF s.job ≤ s.crew.clock ∧ (∃ core, s.team.place = .resident core ∧ (coreAt s core).passer = none) ∧
    (∃ o, findJob s s.job.budgetOwner = some o ∧ o.rcd.budget = 0)

/-- The device registers of another content. -/
def devIs (d : DevRegs) (s : State) : State := { s with dev := d }

/-- A ring of another content. -/
def ringIs (n : Nat) (r : Ring) (s : State) : State := { s with rings := smSet ⟨0, 0, 0, 0⟩ s.rings n r }

/-- A vector signalled once more (R353). -/
def signalled (v : Nat) (s : State) : State := { s with dev := { s.dev with msi := smMod 0 s.dev.msi v (· + 1) } }

/-- An event at the end of the list of events to be written. -/
def raised (e : Event) (s : State) : State := { s with events := s.events ++ [e] }

end Sys2Proof.Expect

/-- R18, R19, R20, R21, R29, R305: pushes, prerequisites and selection. An aligned write of 128 bytes to the aperture of
an enabled queue with room appends its record, with DEPTH 0; any other write sets the overflow status and pushes nothing.
A prerequisite whose word has reached its value is met, and one that has not is not, when it is read again too; one whose
word has failed fails the record with REASON 2. The selected record, when its fields and its world are acceptable, becomes
a job slice in order of selection whose teams wait; one that is not fails with REASON 1. R15, R36, R40, R64, R303, R306,
R307, R314: placement and the active set. A team that is next and whose die has room starts on the die's core with the
most free places, its crews standing at ENTRY with their first four registers, the first of them active as far as there
are places; a core of the other world changes world first. A deterministic job slice is placed whole or not at all. A
ready crew takes a free active place, or that of a crew that is blocked at a switch point or offers it; a crew that is
parked or in cp.yield leaves. A pre-emption stops the victims that a waiting team needs, and none where they do not
suffice. What a malformed pointer means is the model's choice (log entry 26), as are the world of a record (38, 59), the
nearest die (45), what is cleared at a change of world (44), and when a parked crew leaves (20). -/
def Obligations.QueueAndPlacementEvents : Prop :=
  ((∀ (s : State) (q off : Nat) (data : List Byte) (x : SliceQueue), Expect.up s → q < 64 → x = sliceQ s q →
    (off % 128 = 0 → off < 4096 → data.length = 128 → qEn x.qctl = true → qFull s q = false →
      exec (.sliceQueuePush q off data) s = .next { Expect.queueIs q { x with recs := x.recs ++
        [⟨s.nextTake, { parseRec data with depth := 0 }, none, 0, (parseRec data).flags.testBit 3,
          preInit (parseRec data).preq0addr, preInit (parseRec data).preq1addr, false⟩] } s with nextTake := s.nextTake + 1 }) ∧
    ((off % 128 ≠ 0 ∨ data.length ≠ 128 ∨ qEn x.qctl = false ∨ qFull s q = true) →
      exec (.sliceQueuePush q off data) s = .next (Expect.queueIs q { x with qstat := true } s))) ∧
  (∀ (s t : State) (q i n : Nat) (r : QRec) (b : List Byte), Expect.up s → (sliceQ s q).recs[i]? = some r →
    hasPreq r n = true → waitsIo s (.prereq r.uid n) = false →
    readVa (schedAsker (failedJob s q (sliceQ s q) r 0)) ((preqOf r n).1.toNat % 2 ^ 56) 8 s = .ok (b, false, t) →
    t.queues = s.queues →
    (bytesToNat b < 2 ^ 63 → (preqOf r n).2.1.toNat ≤ bytesToNat b →
      ∃ u, exec (.prerequisiteRead q i n) s = .next u ∧ Expect.preqIs t u q i n r .met) ∧
    (2 ^ 63 ≤ bytesToNat b → (preqOf r n).2.1.toNat ≤ bytesToNat b % 2 ^ 63 →
      ∃ u, exec (.prerequisiteRead q i n) s = .next u ∧ Expect.recordFails t u q i 2 r) ∧
    (bytesToNat b % 2 ^ 63 < (preqOf r n).2.1.toNat →
      ∃ u, exec (.prerequisiteRead q i n) s = .next u ∧ Expect.preqIs t u q i n r .unmet)) ∧
  (∀ (s : State) (k q i : Nat) (r : QRec), Expect.up s → selectRec s.queues = some (k, q, i) →
    (sliceQ s q).recs[i]? = some r →
    (recFieldsOk r.rcd = true → recWorldOk (sliceQ s q) r = true →
      ∃ (t : State) (j : Job), exec .schedulerTakeRecord s = .next t ∧ t.jobs = j :: s.jobs ∧ j.take = s.nextTake ∧
        j.rcd = r.rcd ∧ j.queue = q ∧ j.phase = .running ∧ j.failReason = 0 ∧ j.root = (sliceQ s q).qptroot ∧
        j.parent = r.parent ∧ j.secure = r.secure ∧ j.deadline = r.rcd.deadline.toNat ∧
        (sliceQ t q).recs = (sliceQ s q).recs.eraseIdx i ∧ t.nextTake = s.nextTake + 1 ∧
        (∀ x ∈ t.teams, x ∈ s.teams ∨ (x.job = s.nextTake ∧ x.place = .waiting ∧ x.idx < r.rcd.gx * r.rcd.gy * r.rcd.gz)) ∧
        t.teams.length = s.teams.length + r.rcd.gx * r.rcd.gy * r.rcd.gz) ∧
    ((recFieldsOk r.rcd = false ∨ recWorldOk (sliceQ s q) r = false) →
      ∃ t, exec .schedulerTakeRecord s = .next t ∧ Expect.recordFails s t q i 1 r))) ∧
  ((∀ (s : State) (job team die core : Nat) (j : Job) (t : Team), Expect.up s → findJob s job = some j →
    findTeam s job team = some t → j.phase = .running → nextTeam s t = true → heldBack s j die = false →
    j.rcd.flags.testBit 0 = false → (openDies s j team (canTake s j)).contains die = true →
    coreFor s (canTake s j) die = some core →
    ((coreAt s core).world = j.secure → (∀ l ∈ s.l1, l.core ≠ core) →
      ∃ u, exec (.placeTeam job team die) s = .next u ∧
        findTeam u job team = some { t with place := .resident core, started := true } ∧
        u.crews = s.crews ++ (List.range j.rcd.crews).map (fun c => newCrew s j team c (decide (c < 8 - activeOn s core))) ∧
        u.crew = s.crew ∧ u.mem = s.mem ∧ u.cores = s.cores) ∧
    ((coreAt s core).world ≠ j.secure → s.l1 = [] →
      ∃ u, exec (.placeTeam job team die) s = .next u ∧
        findTeam u job team = some { t with place := .resident core, started := true } ∧
        (coreAt u core).world = j.secure ∧ (∀ e ∈ u.tlbs, ¬(e.kind = .core ∧ e.unit = core)) ∧ u.mem = s.mem)) ∧
  (∀ (s : State) (job team die : Nat) (j : Job) (t : Team), Expect.up s → findJob s job = some j →
    findTeam s job team = some t → j.phase = .running → nextTeam s t = true → j.rcd.flags.testBit 0 = true →
    waitingTeams s job = [team] →
    (coreAmong s (canTake s j) (freeDies s j ((placeDie s j team).getD 0)) = none →
      exec (.placeTeam job team die) s = .next s) ∧
    (∀ core, coreAmong s (canTake s j) (freeDies s j ((placeDie s j team).getD 0)) = some core →
      (coreAt s core).world = j.secure → (∀ l ∈ s.l1, l.core ≠ core) →
      ∃ u, exec (.placeTeam job team die) s = .next u ∧
        findTeam u job team = some { t with place := .resident core, started := true } ∧
        u.crews = s.crews ++ (List.range j.rcd.crews).map (fun c => newCrew s j team c (decide (c < 8 - activeOn s core))) ∧
        u.mem = s.mem)) ∧
  (∀ (s : State) (j : Job) (team c : Nat) (active : Bool), ∀ x, x = newCrew s j team c active →
    x.key = ⟨j.take, team, c⟩ ∧ x.sc.pc = j.rcd.entry ∧ x.status = .running ∧ x.active = active ∧ x.clock = 0 ∧
    smGet 0 x.sc.regs 0 = BitVec.ofNat 64 c ∧ smGet 0 x.sc.regs 1 = j.rcd.args ∧
    smGet 0 x.sc.regs 2 = BitVec.ofNat 64 team ∧ smGet 0 x.sc.regs 3 = BitVec.ofNat 64
      (team % j.rcd.gx + 2 ^ 32 * (team / j.rcd.gx % j.rcd.gy) + 2 ^ 48 * (team / (j.rcd.gx * j.rcd.gy))) ∧
    (∀ n, 4 ≤ n → smGet 0 x.sc.regs n = 0) ∧
    (j.missed = true → ⟨0x0B, BitVec.ofNat 64 j.deadline, .now⟩ ∈ x.ptraps) ∧
    (∀ o, findJob s j.budgetOwner = some o →
      (o.exhausted = true → j.rcd.flags.testBit 0 = false → ⟨0x0A, BitVec.ofNat 64 o.charged, .now⟩ ∈ x.ptraps) ∧
      (o.exhausted = false → j.missed = false → x.ptraps = []))) ∧
  (∀ (s : State) (inn : CrewKey) (i : Crew) (t : Team) (core : Nat), Expect.up s → Expect.inFocus s → findCrew s inn = some i →
    findTeam s inn.job inn.team = some t → placeCore t.place = some core → crewOn s core i = true → i.active = false →
    crewReady s i = true → leaving s.crew = false →
    (activeOn s core < 8 → exec (.crewSwitch s.crew.key inn) s = .next (modCrew inn (fun c => { c with active := true }) s)) ∧
    (8 ≤ activeOn s core → inn ≠ s.crew.key → crewOn s core s.crew = true → s.crew.active = true → laneAtSwitch s = true →
      returnsIn s = true → (s.crew.offered = true ∨ (scalarBlocked s.crew = true ∧ laneBlocked s.crew = true)) →
      ∃ u, exec (.crewSwitch s.crew.key inn) s = .next u ∧ u.crew.active = false ∧ u.crew.offered = false ∧
        u.crew.ln.regs.latches = [] ∧ u.crew.sc.pc = s.crew.sc.pc ∧ u.crew.wait = s.crew.wait ∧
        (findCrew u inn).map (·.active) = some true ∧ u.mem = s.mem) ∧
    (8 ≤ activeOn s core → s.crew.offered = false → (scalarBlocked s.crew = false ∨ laneBlocked s.crew = false) →
      exec (.crewSwitch s.crew.key inn) s = .next s)) ∧
  (∀ s : State, Expect.up s → Expect.inFocus s → s.crew.active = true → leaving s.crew = true → laneAtSwitch s = true →
    returnsIn s = true → ∃ u, exec (.crewSwitch s.crew.key s.crew.key) s = .next u ∧ u.crew.active = false ∧
      u.crew.ln.regs.latches = [] ∧ u.crew.park = s.crew.park ∧ u.crew.wait = s.crew.wait ∧ u.crew.sc.pc = s.crew.sc.pc ∧
      u.mem = s.mem) ∧
  (∀ (s : State) (job team : Nat) (j : Job) (t : Team) (l : List (Nat × List Nat)), Expect.up s → findJob s job = some j →
    findTeam s job team = some t → j.phase = .running → (t.place = .saved ∨ nextTeam s t = true) →
    l = (victimJobs s j).flatMap (fun x => (victimsOf s
      (fun c => (allowedDies s j team).contains (dieOf c)) x).map (fun v => (x.take, v))) →
    (fitsLater s j team = true → exec (.schedulerPreempt job team) s = .next s) ∧
    (fitsLater s j team = false → l = [] → exec (.schedulerPreempt job team) s = .next s) ∧
    (stopVictims j team l s = none → exec (.schedulerPreempt job team) s = .next s) ∧
    (∀ (take i c : Nat) (r : List (Nat × List Nat)) (x : Team), fitsLater s j team = false → l = (take, [i]) :: r →
      findTeam s take i = some x → x.place = .resident c → fitsLater (modTeam take i (stopTeam true) s) j team = true →
      ∃ u, exec (.schedulerPreempt job team) s = .next u ∧ findTeam u take i = some { x with place := .stopping c } ∧
        (∀ k m, ¬(k = take ∧ m = i) → findTeam u k m = findTeam s k m) ∧ u.crew = s.crew ∧ u.mem = s.mem)))

/-- R31 to R35, R299, R312, R313, R325, R326: the end of a job slice. When every team is over, nothing it spawned is left
and what its crews issued is performed, the grid is complete and its software-coherent lines go home; the digest of a
deterministic job slice is SHAKE256 of its output set, whose runs are the maximal runs of its regions; the completion word
is stored with bit 63 set when it has failed or missed its deadline, its lines being home, a success enters the queue's
chain value, the headers of a failed job slice's context areas say so, and the job slice is over. An event record goes to
the queue of its world, at its TAIL, and a queue half full is signalled. R309 to R311, R357: a job slice past its deadline
is marked once, raises its event, and each of its crews that is not complete has a trap 0x0B pending with the deadline in
trap.info, unless its record asks to be aborted; a record that waits in its queue is marked, or fails with REASON 5. An
exhausted budget pends trap 0x0A in every crew outside deterministic mode that draws on it, and fails the job slice of a
crew in its handler. SHAKE256 is FIPS 202's (log entry 4); the model's choice are what must be performed first (24), when
the chain value changes (25), what a malformed DONEADDR means (26), where a budget trap is due (28), which frames a ring's
world keeps it from (14) and what of a context area is kept (21). -/
def Obligations.CompletionEvents : Prop :=
  ((∀ (s : State) (job : Nat) (j : Job), Expect.up s → findJob s job = some j → j.phase = .running →
    (teamsOver s job = true → childrenDone s job = true →
      (∀ c ∈ allCrews s, c.key.job = job → c.sieve = [] ∧ c.ops = []) →
      exec (.gridComplete job) s = .next ((if j.rcd.flags.testBit 14 then Expect.raised (mkEvent s j 2 0 0 0 0 0) else id)
        (modJob job (fun x => { x with phase := if x.rcd.flags.testBit 0 then .gridDone else .storing })
          (wbLines (fun l => l.kind == .swc) false s))) ∧
      ∀ l ∈ (wbLines (fun l => l.kind == .swc) false s).l1, l.kind = .swc → l.dirty = 0) ∧
    ((teamsOver s job = false ∨ childrenDone s job = false) → exec (.gridComplete job) s = .next s)) ∧
  (∀ (s t : State) (job : Nat) (j : Job) (m : List Byte), Expect.up s → findJob s job = some j → j.phase = .gridDone →
    waitsIo s (.digest job) = false →
    (digestMsg j s = .ok (m, false, t) → exec (.digestCompute job) s =
      .next (modJob job (fun x => { x with digest := some (shake256 32 m), phase := .storing }) t)) ∧
    (digestMsg j s = .ok (m, true, t) → exec (.digestCompute job) s = .next (abortJob job 8 0 s))) ∧
  (∀ (s t : State) (j : Job) (p n : Nat) (b : List Byte), j.regions = [(p, n)] →
    readVa (schedAsker j) p n s = .ok (b, false, t) →
    digestMsg j s = .ok (natToBytes 8 p ++ natToBytes 8 n ++ b, false, t)) ∧
  (∀ j : Job, (∀ a : Nat, (∃ r ∈ outputRuns j, r.1 ≤ a ∧ a < r.1 + r.2) ↔ (∃ r ∈ j.regions, r.1 ≤ a ∧ a < r.1 + r.2)) ∧
    (outputRuns j).Pairwise (fun x y => x.1 + x.2 < y.1)) ∧
  (∀ (s u : State) (job : Nat) (j : Job), Expect.up s → findJob s job = some j → j.phase = .storing → childrenDone s job = true →
    waitsIo s (.completion job) = false → u = wbLines (fun l => l.kind == .swc) false s →
    (drained s job = false → exec (.completionWordStore job) s = .next s) ∧
    (drained s job = true → j.failReason = 0 → j.missed = false → j.rcd.flags.testBit 15 = false →
      (j.digest = none → j.rcd.doneaddr = 0 →
        exec (.completionWordStore job) s = .next (modJob job (fun x => { x with phase := .done }) u)) ∧
      (j.digest = none → j.rcd.doneaddr ≠ 0 → wordPtr j.rcd.doneaddr = true → ∀ t,
        writeVa (schedAsker j) none (j.rcd.doneaddr.toNat % 2 ^ 56) (natToBytes 8 j.rcd.doneseq.toNat) u = .ok t →
        exec (.completionWordStore job) s = .next (modJob job (fun x => { x with phase := .done }) t)) ∧
      (∀ d, j.digest = some d → j.rcd.doneaddr = 0 → ∃ t, exec (.completionWordStore job) s = .next t ∧
        (sliceQ t j.queue).digest =
          shake256 32 ((sliceQ s j.queue).digest ++ natToBytes 8 j.rcd.doneseq.toNat ++ d) ∧
        (findJob t job).map (fun x => (x.phase, x.digest)) = some (.done, none)) ∧
      (∀ d r, j.digest = some d → j.rcd.doneaddr ≠ 0 → wordPtr j.rcd.doneaddr = true →
        writeVa (schedAsker j) none (j.rcd.doneaddr.toNat % 2 ^ 56) (natToBytes 8 j.rcd.doneseq.toNat) u = r →
        (∀ t, r = .ok t → ∃ v, exec (.completionWordStore job) s = .next v ∧ v.mem = t.mem ∧
          (sliceQ v j.queue).digest =
            shake256 32 ((sliceQ s j.queue).digest ++ natToBytes 8 j.rcd.doneseq.toNat ++ d)) ∧
        (∀ va k l pa, r = .error (va, .fault k l pa) → ∃ v, exec (.completionWordStore job) s = .next v ∧
          (sliceQ v j.queue).digest = (sliceQ s j.queue).digest ∧
          (findJob v job).map (fun x => (x.phase, x.digest)) = some (.storing, some d)))) ∧
    (drained s job = true → (j.failReason ≠ 0 ∨ j.missed = true) →
      (∀ t ∈ allTeams s, t.job = job → t.ctxState = 0) → j.rcd.doneaddr ≠ 0 → wordPtr j.rcd.doneaddr = true → ∀ t,
      writeVa (schedAsker j) none (j.rcd.doneaddr.toNat % 2 ^ 56) (natToBytes 8 (j.rcd.doneseq.toNat ||| 2 ^ 63)) u = .ok t →
      ∃ e : Event, exec (.completionWordStore job) s = .next (Expect.raised e (modJob job (fun x => { x with phase := .done }) t)) ∧
        e.seq = j.rcd.doneseq ∧ e.level = 3 ∧ e.kind = 1 ∧ e.queue = j.queue ∧
        e.reason = (if j.failReason ≠ 0 then j.failReason else 12) ∧
        e.cause = (if j.failReason = 6 then j.failCause else 0)) ∧
    (drained s job = true → j.failReason ≠ 0 → j.rcd.doneaddr = 0 → s.l1 = [] → ∀ (t : Team) (x : Xlat),
      (allTeams s).filter (fun y => y.job == job) = [t] → t.ctxState ≠ 0 →
      translate s (schedAsker j) (ctxAddr j.rcd t.idx) 1 = .ok x → ∃ v, exec (.completionWordStore job) s = .next v ∧
        v.mem = smSetMany 0 s.mem x.pa (natToBytes 2 1 ++ natToBytes 1 3 ++ natToBytes 1 t.spillsz ++ natToBytes 4 0 ++
          natToBytes 8 j.rcd.doneseq.toNat ++ natToBytes 8 t.idx ++ natToBytes 8 0) ∧
        (findJob v job).map (·.phase) = some .done)) ∧
  (∀ (s : State) (secure : Bool) (e : Event) (a b : List Event) (w n : Nat) (r : Ring), Expect.up s →
    s.events = a ++ e :: b → e.secure = secure → eventReady s e = true →
    (∀ x ∈ a, x.secure ≠ secure ∨ eventReady s x = false) → w = (if secure then 1 else 0) → n = 2 + w → r = ringOf s n →
    (ringRoom r = true → (secure = true ∨
        secureFrame s ((r.base.toNat + r.tail.toNat % r.size.toNat * (eventBytes e).length) / 4096 * 4096) = false) →
      exec (.eventRecordWrite secure) s = .next
        ((if r.size.toNat ≤ 2 * (ringUsed r + 1) then Expect.signalled (66 + w) else id)
          ((if e.irq then Expect.signalled e.queue else id) (Expect.ringIs n { r with tail := r.tail + 1 }
            (memWr none (r.base.toNat + r.tail.toNat % r.size.toNat * (eventBytes e).length) (eventBytes e)
              { s with events := a ++ b }))))) ∧
    (ringRoom r = false → e.waited = false → exec (.eventRecordWrite secure) s =
      .next (Expect.signalled (66 + w) { s with events := a ++ { e with waited := true } :: b })))) ∧
  ((∀ (s : State) (take : Nat) (j : Job), s.dev.tripped = false → findJob s take = some j → j.phase ≠ .done →
    j.missed = false → j.deadline ≠ 0 → j.deadline < devTime s →
    (j.rcd.flags.testBit 2 = false →
      ∃ t, exec (.deadlineMiss (.taken take)) s = .next t ∧ (findJob t take).map (·.missed) = some true ∧
        (∃ e : Event, t.events = s.events ++ [e] ∧ e.kind = 2 ∧ e.level = 3 ∧ e.seq = j.rcd.doneseq) ∧
        t.crew = (if s.crew.key.job = take ∧ s.crew.status ≠ .complete
          then { s.crew with ptraps := s.crew.ptraps ++ [⟨0x0B, BitVec.ofNat 64 j.deadline, .now⟩] } else s.crew) ∧
        t.crews = s.crews.map (fun c => if c.key.job = take ∧ c.status ≠ .complete
          then { c with ptraps := c.ptraps ++ [⟨0x0B, BitVec.ofNat 64 j.deadline, .now⟩] } else c) ∧
        t.mem = s.mem) ∧
    (j.rcd.flags.testBit 2 = true → j.failReason = 0 →
      ∃ t, exec (.deadlineMiss (.taken take)) s = .next t ∧
        (∃ x ∈ allJobs t, x.take = take ∧ x.failReason = 5 ∧ x.phase = .storing ∧ x.missed = true) ∧
        (∃ e : Event, t.events = s.events ++ [e] ∧ e.kind = 2 ∧ e.level = 3 ∧ e.seq = j.rcd.doneseq) ∧
        (∀ c ∈ allCrews t, c.key.job = take → c.status = .complete ∧ c.wait = .none) ∧ t.mem = s.mem)) ∧
  (∀ (s : State) (q i : Nat) (r : QRec), Expect.up s → (sliceQ s q).recs[i]? = some r → r.missed = false →
    r.rcd.deadline ≠ 0 → r.rcd.deadline.toNat < devTime s →
    (r.rcd.flags.testBit 2 = false → ∃ t, exec (.deadlineMiss (.queued q i)) s = .next t ∧
      (sliceQ t q).recs[i]? = some { r with missed := true } ∧ (sliceQ t q).recs.length = (sliceQ s q).recs.length ∧
      (∃ e : Event, t.events = s.events ++ [e] ∧ e.kind = 2 ∧ e.level = 3 ∧ e.seq = r.rcd.doneseq) ∧ t.crew = s.crew) ∧
    (r.rcd.flags.testBit 2 = true → ∃ t, exec (.deadlineMiss (.queued q i)) s = .next t ∧ Expect.recordFails s t q i 5 r ∧
      ∃ e : Event, t.events = s.events ++ [e] ∧ e.kind = 2 ∧ e.level = 3 ∧ e.seq = r.rcd.doneseq)) ∧
  (∀ (s : State) (job : Nat) (o : Job), findJob s job = some o →
    (budgetOut o = false → exec (.budgetExhausted job) s = .next s) ∧
    (budgetOut o = true → (∀ c ∈ allCrews s, c.handler = none ∨ c.status = .complete ∨ drawsOn s job c = false) →
      ∃ t, exec (.budgetExhausted job) s = .next t ∧ (findJob t job).map (·.exhausted) = some true ∧
        t.crew = (if drawsOn s job s.crew = true ∧ s.crew.status ≠ .complete
          then { s.crew with ptraps := s.crew.ptraps ++ [⟨0x0A, BitVec.ofNat 64 o.charged, .now⟩] } else s.crew) ∧
        t.crews = s.crews.map (fun c => if drawsOn s job c = true ∧ c.status ≠ .complete
          then { c with ptraps := c.ptraps ++ [⟨0x0A, BitVec.ofNat 64 o.charged, .now⟩] } else c) ∧
        t.mem = s.mem) ∧
    (budgetOut o = true → Expect.inFocus s → s.crew.handler.isSome = true → s.crew.status ≠ .complete →
      drawsOn s job s.crew = true → s.job.failReason = 0 → s.job.phase ≠ .done →
      ∃ t, exec (.budgetExhausted job) s = .next t ∧ t.job.failReason = 6 ∧ t.job.failCause = 0x0A ∧
        t.job.phase = .storing ∧ t.crew.status = .complete ∧ t.mem = s.mem)))

/-- R38, R176, R231, R296 to R300, R322: a stopping team whose work is done and whose context area can be written is
saved, its header first; an area that cannot be accessed for a world violation fails the job slice with REASON 7. A saved
team has left its core: its crew has no latch and is not active, an arrival at a barrier or a graft is kept and any other
instruction issues again, and the header says saved. A team restored to a core that can hold it is resident, its header
says so, and SPILLSZ is read again and taken if it is at most 11 and leaves room for the slots in use. R316, R317, R319: a
flush of a deterministic job slice, due when every crew has reached the interval's end or is logically blocked, runs its
steps, and the next is the following one: an atomic in the Sieve executes and its old value is delivered, a push enters a
queue with room, a pop takes the oldest entry, a wait for the flush ends, and the clock of a crew that waited is at least
the interval's end. R280 to R290, R367: translation and placement. A holder acknowledges a stale translation once none of
its accesses uses it; a fault is recorded in the ring of its world; an answer frees its entry, a crew parked there issues
again or traps 0x08 or 0x09, and the scheduler's access that waits there fails as its own rule says; a monitor gives its
advice once in a window, on pages its die has accessed, with the die that made the most accesses; a page is duplicated
when the counts ask for it; a collapsed frame has no replica left and its held writes go on. The model's choice are which
holders cache what (log entry 9), when an answer takes effect (13), which frames a ring's world keeps it from (14), when a
full merge table lets its crews go (20), what of a context area is kept (21), what a save discards (22), where a team may
move (23), when flushes release what waits (27), what the monitor counts and how a replica's frame is chosen (32), and
what is charged (28). -/
def Obligations.ContextAndTranslationEvents : Prop :=
  ((∀ (s t : State) (core : Nat) (xs : List (Nat × Xlat)), Expect.leads s → Expect.up s → s.team.place = .stopping core →
    teamSavable s = true → waitsIo s (.context s.team.job s.team.idx) = false →
    (contextAccess core 1 s = .ok (xs, t) →
      Expect.sameFocus s (saveTeam core (putHeader 1 (headerPa xs) t)) →
      exec (.teamContextSave s.team.job s.team.idx) s = .next (saveTeam core (putHeader 1 (headerPa xs) t))) ∧
    (∀ va, contextAccess core 1 s = .error (va, .world) → s.job.failReason = 0 → s.job.phase = .running →
      ∃ u, exec (.teamContextSave s.team.job s.team.idx) s = .next u ∧ u.job.failReason = 7 ∧ u.job.phase = .storing ∧
        u.mem = s.mem)) ∧
  (∀ (s t : State) (core : Nat) (xs : List (Nat × Xlat)), Expect.leads s → Expect.up s → s.team.place = .stopping core →
    isDet s = false →
    s.crew.status = .running → s.crew.ops = [] → s.crew.region = none → laneAtSwitch s = true → s.crew.wait ≠ .solve →
    teamCrews s = [s.crew] → walkerIdle s.team = true → waitsIo s (.context s.team.job s.team.idx) = false → s.l1 = [] →
    (coreAt s core).token ≠ some s.crew.key → Expect.nobodyWaits s → contextAccess core 1 s = .ok (xs, t) →
    ∃ u, exec (.teamContextSave s.team.job s.team.idx) s = .next u ∧
      u.team = { s.team with place := .saved, ctxState := 1, absent := usedGranules s s.team, mesh := [] } ∧
      u.crew.active = false ∧ u.crew.park = none ∧ u.crew.sc = s.crew.sc ∧
      u.crew.ln.regs = { s.crew.ln.regs with latches := [] } ∧ u.crew.ln.queue = s.crew.ln.queue ∧
      u.crew.banks = s.crew.banks ∧ u.crew.spilled = s.crew.banks.map (·.1) ∧ u.crew.tiles = s.crew.tiles ∧
      ((∃ b n, s.crew.wait = .barMeet b n) ∨ (∃ h, s.crew.wait = .graft h) → u.crew.wait = s.crew.wait) ∧
      (s.crew.wait = .other ∨ s.crew.wait = .lanes ∨ (∃ i, s.crew.wait = .token i) ∨ (∃ h, s.crew.wait = .handleFree h) ∨
        (∃ h c p, s.crew.wait = .handleFull h c p) ∨ (∃ h a, s.crew.wait = .cpYield h a) ∨
        (∃ a n i, s.crew.wait = .acc a n i) ∨ (∃ q, s.crew.wait = .qPush q ∨ s.crew.wait = .qPop q) → u.crew.wait = .none) ∧
      u.crews = s.crews ∧
      u.mem = smSetMany 0 t.mem (headerPa xs) (natToBytes 2 1 ++ natToBytes 1 1 ++ natToBytes 1 s.team.spillsz ++ natToBytes 4 0 ++
        natToBytes 8 s.job.rcd.doneseq.toNat ++ natToBytes 8 s.team.idx ++ natToBytes 8 0)) ∧
  (∀ (s : State) (core : Nat), Expect.leads s → Expect.up s → s.team.place = .saved → s.job.phase = .running → core < 256 →
    canHold s s.job s.team core = true → heldBack s s.job (dieOf core) = false →
    (∀ i ∈ savedTeams s s.team.job, waitsIo s (.context s.team.job i) = false) → s.job.rcd.flags.testBit 0 = false →
    (Expect.sameFocus s (restoreOn core s) →
      exec (.teamRestore s.team.job s.team.idx core) s = .next (restoreOn core s)) ∧
    (∀ (xs ys : List (Nat × Xlat)) (v : State) (z : Nat), contextAccess core 0 s = .ok (xs, v) →
      areaXlats 1 0 (spillOff s.job.rcd) s = .ok ys → s.l1 = [] →
      teamCrews s = [s.crew] → s.crew.status = .running → s.crew.wait = .none → s.crew.ops = [] → s.crew.sieve = [] →
      s.crew.park = none → s.crew.active = false → s.crew.spilled = [] → s.crew.hadToken = false → Expect.nobodyWaits s →
      (coreAt s core).world = s.job.secure → z = bytesToNat (memRd s (headerPa xs + 3) 1) →
      ∃ u, exec (.teamRestore s.team.job s.team.idx core) s = .next u ∧ u.team.place = .resident core ∧ u.team.ctxState = 2 ∧
        (z ≤ 11 → (∀ k ∈ slotsUsed s.team.log, k < spillSlots z) → u.team.spillsz = z) ∧
        (11 < z ∨ (∃ k ∈ slotsUsed s.team.log, spillSlots z ≤ k) → u.team.spillsz = s.team.spillsz) ∧
        u.team.spad = s.team.spad ∧ u.team.weights = s.team.weights ∧
        u.crew = { s.crew with active := decide (activeOn s core < 8) } ∧
        u.mem = smSetMany 0 s.mem (headerPa ys) (natToBytes 2 1 ++ natToBytes 1 2 ++ natToBytes 1 u.team.spillsz ++ natToBytes 4 0 ++
          natToBytes 8 s.job.rcd.doneseq.toNat ++ natToBytes 8 s.team.idx ++ natToBytes 8 0)))) ∧
  ((∀ (s : State), Expect.inFocus s → Expect.up s → isDet s = true → s.job.phase = .running →
    (jobCrews s s.job.take).head? = some s.crew → flushWanted s = true → flushPlaced s = true → areaWaits s = false →
    flushReady s s.job.flushK = true → walked s s.job.flushK = true →
    areaWaits (flushAll s.job.flushK s) = false → Expect.sameFocus s (flushAll s.job.flushK s) →
    exec (.flush s.job.take) s = .next (flushAll s.job.flushK s) ∧ (flushAll s.job.flushK s).job.flushK = s.job.flushK + 1) ∧
  (∀ (s u : State) (k f l n v : Nat) (a : AmoOp) (fl : Flags), Expect.alone s k [⟨f, l, n, .amo a⟩] → s.crew.wait = .none →
    (∀ p va, a.loc ≠ .remote p va) → (∀ r, a.loc ≠ .dctl r) → amoDo a s = (some v, fl, u) →
    ∃ t, exec (.flush s.job.take) s = .next t ∧ t.crew.sieve = [] ∧
      t.crew.sc = (wrS a.dest (BitVec.ofNat 64 v) (addFlags fl s)).crew.sc ∧ t.mem = u.mem ∧
      t.crew.clock = s.crew.clock ∧ t.job.flushK = k + 1) ∧
  (∀ (s : State) (k f l n q : Nat) (v : W64), Expect.alone s k [⟨f, l, n, .push q v⟩] → s.crew.wait = .none →
    (dqFull s q = false → ∃ t, exec (.flush s.job.take) s = .next t ∧ t.crew.sieve = [] ∧
      dataQ t q = { dataQ s q with entries := (dataQ s q).entries ++ [v] } ∧ t.crew.sc = s.crew.sc ∧ t.mem = s.mem ∧
      t.job.flushK = k + 1) ∧
    (dqFull s q = true → ∃ t, exec (.flush s.job.take) s = .next t ∧ t.crew.sieve = s.crew.sieve ∧
      dataQ t q = dataQ s q ∧ t.crew.sc = s.crew.sc ∧ t.mem = s.mem ∧ t.job.flushK = k + 1)) ∧
  (∀ (s : State) (k f l n q d p : Nat), Expect.alone s k [⟨f, l, n, .pop q d p 0⟩] → s.crew.wait = .none →
    (dqEmpty s q = false → (dataQ s q).bad = [] → ∃ t, exec (.flush s.job.take) s = .next t ∧ t.crew.sieve = [] ∧
      dataQ t q = { dataQ s q with entries := (dataQ s q).entries.drop 1 } ∧
      t.crew.sc = (if p = 0 then wrS d (nth 0 (dataQ s q).entries 0) s
        else wrC p true (wrS d (nth 0 (dataQ s q).entries 0) s)).crew.sc ∧ t.mem = s.mem ∧ t.job.flushK = k + 1) ∧
    (dqEmpty s q = true → ∃ t, exec (.flush s.job.take) s = .next t ∧ t.crew.sieve = s.crew.sieve ∧
      dataQ t q = dataQ s q ∧ t.crew.sc = s.crew.sc ∧ t.mem = s.mem ∧ t.job.flushK = k + 1)) ∧
  (∀ (s : State) (k i : Nat), Expect.alone s k [] → s.crew.wait = .released i → i ≤ k →
    ∃ t, exec (.flush s.job.take) s = .next t ∧ t.crew.wait = .none ∧ t.crew.sc.pc = s.crew.sc.pc + 4 ∧
      t.crew.sc.regs = s.crew.sc.regs ∧ t.mem = s.mem ∧ t.job.flushK = k + 1)) ∧
  ((∀ (s : State) (i : Nat) (e : TlbEntry), s.tlbs[i]? = some e →
    (e.stale = true → ackReady s e = true → ∃ t, exec (.translationAck i) s = .next t ∧
      (∀ x, x ∈ t.tlbs ↔ x ∈ s.tlbs ∧ x ≠ e) ∧
      (∀ a, a ∈ t.dev.asidinv ↔ a ∈ s.dev.asidinv ∧ ∃ x ∈ t.tlbs, x.stale = true ∧ x.inval = true ∧ x.asid = a) ∧
      (∀ n, n ∈ t.dev.hostLines ↔ n ∈ s.dev.hostLines ∧ ∃ x ∈ t.tlbs, x.stale = true ∧ n ∈ x.lines) ∧
      t.crew = s.crew ∧ t.mem = s.mem) ∧
    (e.stale = false ∨ ackReady s e = false → exec (.translationAck i) s = .next s)) ∧
  (∀ (s : State) (secure : Bool) (m : Merge) (a b : List Merge) (n : Nat) (r : Ring), Expect.up s →
    s.merges = a ++ m :: b → m.secure = secure → m.held = false → m.written = false → n = (if secure then 1 else 0) →
    (∀ x ∈ a, x.secure ≠ secure ∨ x.held = true ∨ x.written = true) → r = ringOf s n →
    (ringRoom r = true → (secure = true ∨
        secureFrame s ((r.base.toNat + r.tail.toNat % r.size.toNat * (faultBytes m).length) / 4096 * 4096) = false) →
      exec (.faultRecordWrite secure) s = .next (Expect.signalled (64 + n) (Expect.ringIs n { r with tail := r.tail + 1 }
        (memWr none (r.base.toNat + r.tail.toNat % r.size.toNat * (faultBytes m).length) (faultBytes m)
          { s with merges := a ++ { m with written := true } :: b })))) ∧
    (ringRoom r = false → exec (.faultRecordWrite secure) s = .next s)) ∧
  (∀ (s : State) (secure io : Bool) (n : Nat) (m : Merge), Expect.up s → n < 65536 → answered s secure io n = some m →
    s.dev.answers = [] → s.dev.hostLines = [] → s.dev.hostHeld = [] → s.dev.ingressWait = [] → m.holds = [] →
    (m.waiters = [] → exec (.frespRetry secure io n) s = .next (Expect.freed m (parkedIn m.table m.entry) s)) ∧
    ((∀ c ∈ allCrews s, parkedIn m.table m.entry c = false) →
      (m.waiters = [] → exec (.frespFail secure io n) s = .next (Expect.freed m (fun _ => false) s)) ∧
      (∀ (j : Nat) (x : Job), m.waiters = [.completion j] → findJob s j = some x →
        ∃ t, exec (.frespFail secure io n) s = .next t ∧ (findJob t j).map (·.phase) = some .done ∧ t.mem = s.mem ∧
          ∃ e : Event, t.events = s.events ++ [e] ∧ e.level = 3 ∧ e.kind = 1 ∧ e.reason = 11 ∧ e.seq = x.rcd.doneseq) ∧
      (∀ j, m.waiters = [.digest j] →
        exec (.frespFail secure io n) s = .next (abortJob j 8 0 (Expect.freed m (fun _ => false) s))) ∧
      (∀ j i, m.waiters = [.walker j i] ∨ m.waiters = [.context j i] →
        exec (.frespFail secure io n) s = .next (abortJob j 7 0 (Expect.freed m (fun _ => false) s))) ∧
      (∀ (uid w q i : Nat) (r : QRec), m.waiters = [.prereq uid w] → findRec s uid = some (q, i) →
        (sliceQ s q).recs[i]? = some r →
        ∃ t, exec (.frespFail secure io n) s = .next t ∧ Expect.recordFails (Expect.freed m (fun _ => false) s) t q i 2 r)) ∧
    (∀ p : Park, Expect.inFocus s → m.waiters = [] → (∀ c ∈ s.crews, parkedIn m.table m.entry c = false) →
      s.crew.park = some p → p.table = m.table → p.entry = m.entry → m.entry < 1024 → p.lane = false → p.kind ≠ 0 →
      Expect.canTrap s → Expect.quiet s →
      ∃ t, exec (.frespFail secure io n) s = .next t ∧ t.crew.park = none ∧ t.crew.sc.pc = s.job.rcd.handler ∧
        t.crew.sc.trap = ⟨if 2 ≤ p.kind ∧ p.kind ≤ 4 then 9 else 8, s.crew.sc.pc, 0, 0,
          BitVec.ofNat 64 (fld p.va 55 0 + 2 ^ 56 * p.kind)⟩ ∧ t.crew.sc.regs = s.crew.sc.regs ∧ t.mem = s.mem)) ∧
  (∀ (s : State) (die w n : Nat) (a : MonAdvice) (r : Ring) (b : List Byte), die < 8 → Expect.up s → w = monWindow s →
    n = 4 + die → r = ringOf s n →
    b = natToBytes 8 (4096 * a.page) ++ natToBytes 2 a.asid ++ natToBytes 1 (topDie s (w - 1) a).1 ++ natToBytes 1 0 ++
      natToBytes 4 (topDie s (w - 1) a).2 →
    (∀ l, w ≤ smGet 0 s.dev.monDone die → exec (.monitorWindowEnd die l) s = .next s) ∧
    (smGet 0 s.dev.monDone die < w →
      (countOf s (w - 1) die a = (0, 0) → exec (.monitorWindowEnd die [a]) s =
        .next (Expect.devIs { s.dev with monDone := smSet 0 s.dev.monDone die w } s)) ∧
      (countOf s (w - 1) die a ≠ (0, 0) → ringRoom r = true →
        secureFrame s ((r.base.toNat + r.tail.toNat % r.size.toNat * b.length) / 4096 * 4096) = false →
        exec (.monitorWindowEnd die [a]) s = .next ((if r.size.toNat ≤ 2 * (ringUsed r + 1) then Expect.signalled 68 else id)
          (Expect.ringIs n { r with tail := r.tail + 1 }
            (memWr none (r.base.toNat + r.tail.toNat % r.size.toNat * b.length) b
              (Expect.devIs { s.dev with monDone := smSet 0 s.dev.monDone die w } s))))) ∧
      (countOf s (w - 1) die a ≠ (0, 0) → ringRoom r = false →
        exec (.monitorWindowEnd die [a]) s = .next (Expect.signalled 68 (Expect.devIs { s.dev with
          monDone := smSet 0 s.dev.monDone die w
          mqovf := smMod 0 s.dev.mqovf die (· + 1) } s))))) ∧
  (∀ (s : State) (w : Nat) (a : MonAdvice) (d : Nat), d < 8 → (topDie s w a).1 < 8 ∧
    (topDie s w a).2 = (countOf s w (topDie s w a).1 a).1 + (countOf s w (topDie s w a).1 a).2 ∧
    (countOf s w d a).1 + (countOf s w d a).2 ≤ (topDie s w a).2 ∧
    (d < (topDie s w a).1 → (countOf s w d a).1 + (countOf s w d a).2 < (topDie s w a).2)) ∧
  (∀ (s : State) (die w f : Nat) (p : MonAdvice) (root : W64) (l : Leaf), Expect.up s → die < 8 →
    (w = monWindow s ∨ w = monWindow s - 1) → 4096 ≤ (countOf s w die p).1 → (∀ d, d < 8 → (countOf s w d p).2 = 0) →
    rootOf s p.asid p.secure = some root → walk s root (4096 * p.page) = .ok l → l.e.getLsbD 10 = true →
    l.bits ≤ 16 → (∀ r ∈ s.replicas, r.master ≠ entryPA l.e) → poolFrame s die (2 ^ l.bits) = some f →
    (∀ m ∈ s.monitor, m.window = w → m.die = 8 → m.writes ≠ 0 → overlaps (4096 * m.page) 4096 (entryPA l.e) (2 ^ l.bits) = false) →
    writeUnderWay s (entryPA l.e) (2 ^ l.bits) = false →
    (∀ r ∈ s.replicas, overlaps f (2 ^ l.bits) r.entryPa 8 = false ∧ overlaps f (2 ^ l.bits) r.master r.size = false) →
    ∃ t, exec (.replicaCreate die p) s = .next t ∧
      t.replicas = s.replicas ++ [⟨die, entryPA l.e, 2 ^ l.bits, f, l.entryPa, false⟩] ∧
      t.mem = (memWr none f (memRd s (entryPA l.e) (2 ^ l.bits)) s).mem ∧ t.crew = s.crew) ∧
  (∀ (s : State) (die : Nat) (p : MonAdvice),
    (∀ w, w = monWindow s ∨ w = monWindow s - 1 → (countOf s w die p).1 < 4096 ∨ ∃ d, d < 8 ∧ (countOf s w d p).2 ≠ 0) →
    exec (.replicaCreate die p) s = .next s) ∧
  (∀ (s : State) (frame : Nat), (∀ r ∈ s.replicas, r.master = frame → r.dead = true ∧ ∀ e ∈ s.tlbs, e.frame ≠ r.frame) →
    s.dev.hostHeld = [] → (∀ c ∈ allCrews s, ∀ p : Park, c.park = some p → p.kind ≠ 0 ∨ ∀ m ∈ s.merges, m.held = false →
      ¬(p.table = m.table ∧ p.entry = m.entry)) → (∀ m ∈ s.merges, m.holds = []) →
    ((∀ m ∈ s.merges, heldFor frame m = false) →
      exec (.pageCollapse frame) s = .next { s with replicas := s.replicas.filter (fun r => r.master != frame) }) ∧
    (∀ m, s.merges.filter (heldFor frame) = [m] → m.waiters = [] → s.dev.ingressWait = [] →
      exec (.pageCollapse frame) s = .next (Expect.freed m (parkedIn m.table m.entry)
        { s with replicas := s.replicas.filter (fun r => r.master != frame) }))))

/-- R7, R18, R170, R171, R275, R282, R286, R296, R304, R312, R342, R354, R357, R361, R365 to R367: the register writes of
the host while the device is up: queue registers, with reserved bits reading zero; rings and their indices; bank modes, a
transition being complete once no access begun before it is left, with the bank zeroed when it enters scratchpad or FIFO
mode or changes world, and its queues' entries gone when it leaves FIFO mode; the power cap and state; invalidations;
pre-emption; an abort, which fails a matching job slice or queued record with REASON 9; answers to faults, which take
effect once the host's earlier writes are acknowledged; attestation; and the registers that only bring-up writes. The
model's choice are what writes the register map does not settle do (log entry 12), what a reserved queue setting does and
how long an answer waits (13), that STKSZ takes any value (54), and what a bank shared with others holds of a queue (55).
-/
def Obligations.RegisterWrites : Prop :=
  ∀ (s : State) (v : W64), Expect.up s →
    (∀ (q : Nat) (x : SliceQueue), q < 64 → x = sliceQ s q →
      exec (.qctlWrite q v) s = .next (Expect.queueIs q { x with qctl :=
        if (qEn x.qctl = true ∧ qEn v = true) ∨ (qEn v = true ∧ (fld v 16 0 < 64 ∨ 65536 < fld v 16 0)) then x.qctl
        else v &&& 0x813F3F000001FFFF } s) ∧
      exec (.qstatClear q v) s = .next (if v.getLsbD 0 then Expect.queueIs q { x with qstat := false } s else s) ∧
      exec (.registerWrite (BitVec.ofNat 32 (0x10018 + 0x100 * q)) v) s =
        .next (Expect.queueIs q { x with qptroot := v &&& ~~~0xFFF } s) ∧
      exec (.registerWrite (BitVec.ofNat 32 (0x10020 + 0x100 * q)) v) s = .next (Expect.queueIs q { x with stkbase := v } s) ∧
      exec (.registerWrite (BitVec.ofNat 32 (0x10028 + 0x100 * q)) v) s = .next (Expect.queueIs q { x with stksz := v } s) ∧
      exec (.registerWrite (BitVec.ofNat 32 (0x10030 + 0x100 * q)) v) s = .next (Expect.queueIs q { x with xcap := v } s)) ∧
    (∀ (n : Nat) (x : DataQueue), n < 4096 → x = dataQ s n → exec (.dqctlWrite n v) s = .next { s with
      dataQueues := smSet DataQueue.reset s.dataQueues n { x with ctl :=
        if (qEn x.ctl = true ∧ qEn v = true) ∨ (qEn v = true ∧ (fld v 16 0 < 64 ∨ 65536 < fld v 16 0)) then x.ctl
        else v &&& 0x813F3F000001FFFF } }) ∧
    (∀ (c b : Nat) (w : W32) (r : BankReg), c < 64 → b < 64 → r = smGet BankReg.reset s.bankRegs (64 * c + b) →
      ((r.busy = true ∨ w.toNat % 4 = 3) → exec (.bankModeWrite c b w) s = .next s) ∧
      (r.busy = false → w.toNat % 4 ≠ 3 → (w.toNat % 4 ≠ r.mode ∨ w.getLsbD 8 ≠ r.nextWorld) →
        exec (.bankModeWrite c b w) s = .next { s with bankRegs := smSet BankReg.reset s.bankRegs (64 * c + b) { r with
          busy := true
          done := false
          mode := w.toNat % 4
          nextWorld := w.getLsbD 8
          left := r.left || (r.cur == 2 && w.toNat % 4 != 2) } }) ∧
      (r.busy = false → w.toNat % 4 = r.mode → r.mode ≠ 3 → w.getLsbD 8 = r.nextWorld →
        exec (.bankModeWrite c b w) s = .next { s with
          bankRegs := smSet BankReg.reset s.bankRegs (64 * c + b) (if w.getLsbD 30 then { r with done := false } else r) }) ∧
      ((r.busy = false ∨ bankInUse s c b = true) → exec (.bankTransitionComplete c b) s = .next s) ∧
      (r.busy = true → bankInUse s c b = false → ∃ t, exec (.bankTransitionComplete c b) s = .next t ∧
        smGet BankReg.reset t.bankRegs (64 * c + b) =
          { r with cur := r.mode, world := r.nextWorld, busy := false, done := true, left := r.left && r.mode != 2 } ∧
        t.mem = s.mem ∧ t.crew = s.crew ∧
        (∀ k, (k < 2 ^ 23 * c + 131072 * b ∨ 2 ^ 23 * c + 131072 * b + 131072 ≤ k) →
          smGet 0 t.cspad k = smGet 0 s.cspad k) ∧
        (∀ k, 2 ^ 23 * c + 131072 * b ≤ k → k < 2 ^ 23 * c + 131072 * b + 131072 →
          smGet 0 t.cspad k = if r.mode ≠ 0 ∨ r.world ≠ r.nextWorld ∨ r.cur = 1 then 0 else smGet 0 s.cspad k) ∧
        (r.cur ≠ 2 → t.dataQueues = s.dataQueues ∧ t.queues = s.queues) ∧
        (r.cur = 2 → ∀ n, (qBanks (dataQ s n).ctl 8).contains (64 * c + b) = true →
          (dataQ t n).entries = [] ∧ (dataQ t n).ctl = (dataQ s n).ctl) ∧
        (∀ (q : Nat) (x : SliceQueue) (e : QRec), r.cur = 2 → s.queues = [(q, x)] → x.recs = [e] →
          (qBanks x.qctl 128).contains (64 * c + b) = true → Expect.recordFails s t q 0 10 e))) ∧
    (∀ (n : Nat) (r : Ring), n < 12 → r = ringOf s n →
      exec (.ringHeadWrite n v) s = .next (Expect.ringIs n
        (if (v - r.head).toNat ≤ (r.tail - r.head).toNat then { r with head := v } else r) s) ∧
      exec (.ringBaseSizeWrite n false v) s = .next (Expect.ringIs n ⟨v, r.size, 0, 0⟩ s) ∧
      exec (.ringBaseSizeWrite n true v) s = .next (Expect.ringIs n ⟨r.base, v, 0, 0⟩ s)) ∧
    (∃ t, exec (.asidinvWrite v) s = .next t ∧
      (∀ a, a ∈ t.dev.asidinv ↔ a ∈ s.dev.asidinv ∨ (a = fld v 11 0 ∧ ∃ e ∈ s.tlbs, e.asid = fld v 11 0)) ∧
      t.tlbs = s.tlbs.map (fun e => if e.asid = fld v 11 0 then { e with stale := true, inval := true } else e) ∧
      t.espalier = s.espalier.map (fun e => if e.asid = fld v 11 0 then { e with valid := false } else e) ∧
      t.crew = s.crew ∧ t.mem = s.mem) ∧
    exec (.preemptWrite false v) s = .next (Expect.devIs { s.dev with preemptSeq := v } s) ∧
    (∃ t, exec (.preemptWrite true v) s = .next t ∧ t.crew = s.crew ∧ t.job = s.job ∧
      t.team.place = match s.team.place with
        | .resident c => if (allJobs s).any (fun j => j.take == s.team.job && j.rcd.doneseq == s.dev.preemptSeq &&
            j.queue == fld v 5 0 && j.phase == .running && j.rcd.ctxbase != 0) then .stopping c else .resident c
        | p => p) ∧
    exec (.slcabortWrite false v) s = .next (Expect.devIs { s.dev with abortSeq := v } s) ∧
    ((∀ j ∈ allJobs s, j.rcd.doneseq ≠ s.dev.abortSeq ∨ j.queue ≠ fld v 5 0) →
      ((∀ r ∈ (sliceQ s (fld v 5 0)).recs, r.rcd.doneseq ≠ s.dev.abortSeq) → exec (.slcabortWrite true v) s = .next s) ∧
      (∀ (i : Nat) (r : QRec), (sliceQ s (fld v 5 0)).recs[i]? = some r → r.rcd.doneseq = s.dev.abortSeq →
        (∀ k x, k ≠ i → (sliceQ s (fld v 5 0)).recs[k]? = some x → x.rcd.doneseq ≠ s.dev.abortSeq) →
        ∃ t, exec (.slcabortWrite true v) s = .next t ∧ Expect.recordFails s t (fld v 5 0) i 9 r)) ∧
    (s.job.rcd.doneseq = s.dev.abortSeq → s.job.queue = fld v 5 0 → s.job.phase = .running → s.job.failReason = 0 →
      (∀ j ∈ s.jobs, j.rcd.doneseq ≠ s.dev.abortSeq ∨ j.queue ≠ fld v 5 0) →
      (∀ r ∈ (sliceQ s (fld v 5 0)).recs, r.rcd.doneseq ≠ s.dev.abortSeq) →
      ∃ t, exec (.slcabortWrite true v) s = .next t ∧ t.job.failReason = 9 ∧ t.job.phase = .storing ∧
        (∀ c ∈ allCrews t, c.key.job = s.job.take → c.status = .complete) ∧ t.mem = s.mem) ∧
    (∀ (secure : Bool) (off : W32), off = (if secure then 0x31020 else 0x30020) → s.dev.answers = [] →
      (2 ≤ fld v 17 16 → exec (.registerWrite off v) s = .next s) ∧
      (s.dev.hostLines = [] → s.dev.hostHeld = [] →
        (fld v 17 16 = 0 → exec (.registerWrite off v) s = exec (.frespRetry secure (v.getLsbD 18) (fld v 15 0)) s) ∧
        (fld v 17 16 = 1 → exec (.registerWrite off v) s = exec (.frespFail secure (v.getLsbD 18) (fld v 15 0)) s)) ∧
      (fld v 17 16 < 2 → (∃ e ∈ s.tlbs, e.stale = true ∧ ∃ n ∈ e.lines, n ∈ s.dev.hostLines) →
        exec (.registerWrite off v) s =
          .next (Expect.devIs { s.dev with answers := [⟨none, secure, v &&& 0x7FFFF⟩] } s))) ∧
    exec .pstateEnterD3 s = .next (if (allTeams s).any (fun t => (placeCore t.place).isSome) then s
      else Expect.devIs { s.dev with d3 := true } s) ∧
    exec .pstateRun s = .next (Expect.devIs { s.dev with d3 := false } s) ∧
    exec (.pcapWrite v) s = .next (if 1500 ≤ fld v 11 0 ∧ fld v 11 0 ≤ 3400
      then Expect.devIs { s.dev with pcap := fld v 11 0 } s else s) ∧
    exec (.attgoWrite v) s = .next (if v.getLsbD 0 = true ∧ s.dev.attBusy = false
      then Expect.devIs { s.dev with attBusy := true, attDone := false } s else s) ∧
    (∀ n, n < 8 → exec (.errorLogClear n v) s = .next (Expect.devIs { s.dev with
      errlog := smSet 0 s.dev.errlog n (smGet 0 s.dev.errlog n &&& ~~~v) } s)) ∧
    exec (.registerWrite 0x50000 v) s = .next (Expect.devIs { s.dev with fxself := v } s) ∧
    exec (.registerWrite 0x50008 v) s = .next (Expect.devIs { s.dev with fxroot := v &&& ~~~0xFFF } s) ∧
    exec (.registerWrite 0x61020 v) s = .next (Expect.devIs { s.dev with attMask := v } s) ∧
    exec (.registerWrite 0x60080 v) s = .next s ∧ exec (.registerWrite 0x60088 v) s = .next s ∧
    (∀ off : W32, off.toNat % 8 ≠ 0 → off.toNat < 0x20000 → exec (.registerWrite off v) s = .next s)

/-- R354 to R357: power and temperature. Module power at the cap or a logic die at 95 degrees goes to P1, 100 degrees to
P2; a cause that has gone lets the device go back one state; a DRAM die at 85 degrees makes its stack hot and at 95 goes
to P2; a stack cools when both its dies are below 82; at 105 on any die the module trips and the host link goes down.
R281, R304, R353, R358 to R364: bring-up, attestation, the host's memory window and soft errors. An image is accepted by
its format, its key's digest, its security version and its signature; an accepted one leaves the device ready with its
measurement, the set-up registers and the minimum security version it asks for, and device memory zero; one that is
refused leaves it not ready, with a code from 1 to 255 that the rules leave open. An access of the host outside the window
or to a secure frame writes nothing and sets the world error; a write is complete once the acknowledgements for its lines
are in. A double error in memory or in an L2 line poisons its word; a single one is only counted; one on a die link that
cannot be corrected trips the module; a flip in a gap is seen by nobody. SHAKE256 and ML-DSA are the named standards' (log
entries 3, 4). The model's choice are where the error log's counters stand (12), which bytes the configuration digest
covers (30), that host memory outlives a cold reset (31), when the host's accesses are refused (33), how readings arrive
(34), what a trip stops (40), vectors as counts (41), and what poison leaves beside a word (43). -/
def Obligations.PowerAndDeviceEvents : Prop :=
  ((∀ (s : State) (die temp power : Nat), (die < 8 ∨ die = 24) →
    exec (.sensorThresholdCrossed die temp power) s = .next (Expect.devIs { s.dev with
      temps := smSet 0 s.dev.temps die temp
      power := power
      tripped := s.dev.tripped || decide (105 ≤ temp)
      linkDown := s.dev.linkDown || decide (105 ≤ temp)
      pstate := if 100 ≤ temp then max 2 s.dev.pstate
        else if 95 ≤ temp ∨ s.dev.pcap ≤ power then max 1 s.dev.pstate else s.dev.pstate } s)) ∧
  (∀ s : State, exec .p1EscalateTimeout s = .next (if s.dev.pstate = 1 ∧ s.dev.pcap ≤ s.dev.power
    then Expect.devIs { s.dev with pstate := 2 } s else s)) ∧
  (∀ s : State, (causeHolds s = true → exec .powerStateRelax s = .next s) ∧
    (causeHolds s = false → exec .powerStateRelax s = .next (Expect.devIs { s.dev with pstate := s.dev.pstate - 1 } s))) ∧
  (∀ (s : State) (die temp : Nat), 8 ≤ die → die < 24 →
    (85 ≤ temp → exec (.dramTempHot die temp) s = .next (Expect.devIs { s.dev with
      temps := smSet 0 s.dev.temps die temp
      hots := smSet false (smSet false s.dev.hots (die / 2 * 2) true) (die / 2 * 2 + 1) true
      tripped := s.dev.tripped || decide (105 ≤ temp)
      linkDown := s.dev.linkDown || decide (105 ≤ temp)
      pstate := if 95 ≤ temp then max 2 s.dev.pstate else s.dev.pstate } s)) ∧
    (temp < 82 → smGet 0 s.dev.temps (if die % 2 = 0 then die + 1 else die - 1) < 82 →
      exec (.dramCoolTimeout die temp) s = .next (Expect.devIs { s.dev with
        temps := smSet 0 s.dev.temps die temp
        hots := smSet false (smSet false s.dev.hots (die / 2 * 2) false) (die / 2 * 2 + 1) false } s))) ∧
  (∀ (s : State) (die : Nat), die < 25 →
    exec (.thermalTrip die) s = .next (Expect.devIs { s.dev with
      temps := smSet 0 s.dev.temps die (max 105 (smGet 0 s.dev.temps die))
      tripped := true
      linkDown := true } s) ∧
    exec (.dieLinkFailure die) s = .next (Expect.devIs { s.dev with
      errlog := smMod 0 s.dev.errlog 7 (· + 1)
      tripped := true
      linkDown := true } s))) ∧
  ((∀ (min : Nat) (im : List Byte), firmwareOk min im = true ↔ 5280 + fieldAt im 8 8 ≤ im.length ∧
    fieldAt im 0 4 = 0x00010001 ∧ shake256 32 ((im.drop 16).take 1952) = Config.fusedKeyDigest ∧ min ≤ fieldAt im 4 4 ∧
    Config.mldsaVerify ((im.drop 16).take 1952) (shake256 64 (im.take 1968) ++ (im.drop 5280).take (fieldAt im 8 8))
      ((im.drop 1968).take 3309) = true) ∧
  (∀ (s : State) (im : List Byte) (b : BootSetup) (min : Nat), min = max Config.fusedSvn s.dev.svnRaised →
    ∃ t, exec (.coldReset im b) s = .next t ∧
    t.dev.bootReady = firmwareOk min im ∧
    (firmwareOk min im = true → t.dev.tripped = false ∧ t.dev.linkDown = false ∧
      t.dev.measurement = shake256 32 (im.take (5280 + fieldAt im 8 8)) ∧ t.dev.svn = fieldAt im 4 4 ∧
      t.dev.svnRaised = max s.dev.svnRaised (Config.svnRequest im) ∧
      t.dev.hdmbase = b.hdmbase ∧ t.dev.hdmsize = b.hdmsize ∧ t.mem = s.mem.filter (fun c => c.1.testBit 51) ∧
      t.queues = [] ∧ t.crew = State.reset.crew) ∧
    (firmwareOk min im = false → 1 ≤ t.dev.bootCode ∧ t.dev.bootCode ≤ 255 ∧ t.dev.svnRaised = s.dev.svnRaised)) ∧
  (∀ s : State, Expect.up s → s.dev.attBusy = true → exec .attestationReportDone s = .next (Expect.devIs { s.dev with
    attBusy := false
    attDone := true
    attBuf := (reportBody s ++ Config.mldsaSign (reportBody s)).take 8192 ++
      List.replicate (8192 - ((reportBody s ++ Config.mldsaSign (reportBody s)).take 8192).length) 0 } s)) ∧
  (∀ (s : State) (v : W64), s.dev.bootReady = true → s.dev.tripped = false → s.dev.d3 = true →
    exec (.slcabortWrite true v) s =
      .next (Expect.devIs { s.dev with lateAborts := s.dev.lateAborts ++ [(fld v 5 0, s.dev.abortSeq)] } s)) ∧
  (∀ (s t : State) (addr n : Nat) (b : List Byte), Expect.up s →
    (hostMay s addr n = true → exec (.hostCxlMemAccess addr n none) s = .next s) ∧
    (hostMay s addr n = false → exec (.hostCxlMemAccess addr n none) s =
      .next (Expect.devIs { s.dev with worldError := true } s)) ∧
    (hostMay s addr b.length = true → onReplica s addr b.length = false → t = memWr none addr b s → exec (.hostCxlMemAccess addr n (some b)) s =
      .next (Expect.devIs { t.dev with
        hostLines := t.dev.hostLines ++ (linesOf addr b.length).filter (fun l => t.tlbs.any (fun e => e.stale &&
          e.lines.contains l)) } t)) ∧
    (∀ r : Replica, hostMay s addr b.length = true → s.replicas = [r] → overlaps addr b.length r.master r.size = true →
      exec (.hostCxlMemAccess addr n (some b)) s = .next { s with
        dev := { s.dev with hostHeld := s.dev.hostHeld ++ [(addr, b)] }
        replicas := [{ r with dead := true }]
        tlbs := s.tlbs.map (fun e => if e.frame = r.frame then { e with stale := true } else e) }) ∧
    (hostMay s addr b.length = false → exec (.hostCxlMemAccess addr n (some b)) s =
      .next (Expect.devIs { s.dev with worldError := true } s))) ∧
  (∀ (s : State) (pa bit : Nat),
    exec (.softError (.memory pa) bit false) s =
      .next (Expect.devIs { s.dev with errlog := smMod 0 s.dev.errlog 0 (· + 1) } s) ∧
    (∃ t, exec (.softError (.memory pa) bit true) s = .next t ∧
      (∀ w, smGet false t.memBad w = (smGet false s.memBad w || decide (w / 16 = pa / 128))) ∧
      t = Expect.devIs { s.dev with errlog := smMod 0 s.dev.errlog 1 (· + 1) } { s with memBad := t.memBad }) ∧
    exec (.softError (.l2 pa) bit false) s =
      .next (Expect.devIs { s.dev with errlog := smMod 0 s.dev.errlog 2 (· + 1) } s) ∧
    exec (.softError (.l2 pa) bit true) s = .next (Expect.devIs { s.dev with errlog := smMod 0 s.dev.errlog 3 (· + 1) }
      { s with memBad := smSet false s.memBad (pa / 8) true }) ∧
    exec (.softError .dieLink bit false) s =
      .next (Expect.devIs { s.dev with errlog := smMod 0 s.dev.errlog 6 (· + 1) } s) ∧
    exec (.softError .dieLink bit true) s = .next (Expect.devIs { s.dev with
      errlog := smMod 0 s.dev.errlog 7 (· + 1)
      tripped := true
      linkDown := true } s) ∧
    exec (.softError (.gapByte pa) bit true) s =
      .next { s with mem := smMod 0 s.mem pa (fun v => v ^^^ (1#8 <<< (bit % 8))) }) ∧
  (∀ (s : State) (r bit : Nat), exec (.softError (.scalarReg s.crew.key r) bit true) s =
    .next (Expect.devIs { s.dev with errlog := smMod 0 s.dev.errlog 5 (· + 1) }
      (modCrew s.crew.key (fun c => { c with sc := { c.sc with parity := r % 64 :: c.sc.parity } }) s))))

namespace Sys2Proof.Expect

/-- The lanes of a gang that are active for a word by R53: those of the current masks whose predicate, negated by PN, is true
in the single and the immediate form; in the other forms those of the current masks (log entry 29). -/
def wordActive (s : State) (r : ARun) (g : Gang) (w : W96) : List Nat :=
  (maskLanes r g.members).filter (fun l => w.getLsbD 94 || (rdP s (w.extractLsb' 27 6).toNat l ^^ w.getLsbD 26))

end Sys2Proof.Expect

/-- R47, R97, R292, R308, R309, R370: the events of traps. A deferred trap that is due at the boundary is taken once the
returning values are in: the stream goes to the handler with its cause and trap.info, trap.pc the address of the instruction
that comes next, and the deferred traps that are still pending are taken when the handler resumes. One that waits for a
register to be used is due before an instruction that reads or writes it and before no other. An illegal scalar word traps
0x01 with the word in trap.info, an illegal lane word with 0 and the lanes that are active for it in trap.mask, and its issue
slot is charged outside deterministic mode. When a pending trap falls due is the model's choice (log entry 29), as are where a
budget trap is due (28) and what a trap's slot is charged (28). -/
def Obligations.TrapEvents : Prop :=
  (∀ s : State, Expect.inFocus s → budgetDue s = s → atBoundary s = true →
    (trapDue s = true → Expect.sameFocus s (takeDeferred (settleLoads s)) →
      exec (.deferredTrap s.crew.key) s = .next (takeDeferred (settleLoads s))) ∧
    (trapDue s = false → exec (.deferredTrap s.crew.key) s = .next s)) ∧
  (∀ (s : State) (p : PTrap) (l : List PTrap), Expect.inFocus s → Expect.canTrap s → s.crew.budgetTrap = none →
    s.crew.status ≠ .complete → s.crew.park = none → s.crew.wait ≠ .solve → s.crew.ptraps = p :: l →
    (∀ x ∈ p :: l, atEntry x = false) → returnsOut s.crew = false → (∀ o ∈ s.crew.ops, isLoadOp o = false) →
    (p.cause = 0x0A → isDet s = false ∧ laneAtSwitch s = true) →
    (p.due = .now ∨ (∃ (i : Instr) (regs : List Nat) (r : Nat), nextScalar s = some i ∧ p.due = .touch regs ∧ r ∈ regs ∧
      r ∈ scalarRegs i)) →
    ∃ t, exec (.deferredTrap s.crew.key) s = .next t ∧ t.crew.sc.pc = s.job.rcd.handler ∧
      t.crew.sc.trap = ⟨BitVec.ofNat 64 p.cause, s.crew.sc.pc, 0, 0, p.info⟩ ∧ t.crew.handler = some ⟨[], false⟩ ∧
      t.crew.ptraps = l.map (fun x => { x with due := .resumed }) ∧ t.crew.sc.regs = s.crew.sc.regs ∧
      t.crew.sc.preds = s.crew.sc.preds ∧ t.crew.ln.regs.latches = [] ∧ t.mem = s.mem) ∧
  (∀ (s : State) (c : Nat) (v : W64) (regs : List Nat), Expect.inFocus s → s.crew.budgetTrap = none →
    s.crew.ptraps = [⟨c, v, .touch regs⟩] → (∀ i, nextScalar s = some i → ∀ r ∈ regs, r ∉ scalarRegs i) →
    exec (.deferredTrap s.crew.key) s = .next s) ∧
  (∀ (s : State) (w : W96), s.crew.status = .running → s.crew.park = none →
    exec (.illegalInstruction false w) s = Expect.traps s 0x01 ((w.setWidth 32).setWidth 64)) ∧
  (∀ (s : State) (w : W96) (r : ARun) (g : Gang), headGang s = some (r, g) →
    exec (.illegalInstruction true w) s = Expect.trapsLane s 0x01 0 g (Expect.wordActive s r g w))

namespace Sys2Proof.Expect

/-- The events that end one operation of a crew's memory traffic or one of its runs (R97, R182, R184, R195, R257). -/
noncomputable def memoryEvents : List (CrewKey → Instr) :=
  [.loadReturn, .gatherComplete, .storePerformed, .scatterPerformed, .scatterAddApply, .amoExecute, .laneRunComplete]

end Sys2Proof.Expect

/-! ## The whole machine -/

/-- R10, R97: bringing a crew into focus loses nothing. The crew in focus is the one named, with its team and job slice;
every crew, team and job slice is found as before, and memory is as before. An event of a crew that is not in focus does to
the machine what it does with that crew in focus, and the focus stays where it was; of a crew that does not exist it does
nothing. -/
def Obligations.EventsReachTheirCrew : Prop :=
  (∀ (s t : State) (k : CrewKey), focus k s = some t → t.crew.key = k ∧ Expect.inFocus t ∧ t.mem = s.mem ∧
    (∀ k', findCrew t k' = findCrew s k') ∧ (∀ j i, findTeam t j i = findTeam s j i) ∧
    (∀ j, findJob t j = findJob s j)) ∧
  (∀ e ∈ Expect.memoryEvents, ∀ (s t u v : State) (k : CrewKey), focus k s = some t → exec (e k) t = .next u →
    focus s.crew.key u = some v → exec (e k) s = .next v) ∧
  (∀ e ∈ Expect.memoryEvents, ∀ (s : State) (k : CrewKey), focus k s = none → exec (e k) s = .next s)

/-- R42, R47, R97, R23, R279, R363: a step runs the decoded instruction. On a turn of a scalar stream that may issue, with no
trap due, the bytes at its pc are fetched and decoded and the instruction is executed, once no value it needs is still to
come; one that reads a register with a parity error traps 0x15, an illegal word is the row for illegal words, and a fetch that
fails traps or parks the crew. On a turn of a lane stream the gang that is next in rotation comes to the head and the lane
word at its pc is executed the same way. A turn of the device is its row. Before its turn a step does upkeep: lines and
translations beyond what the caches hold leave, and now and then a core's lines (R5, R40, R280). What a fetch leaves in the
instruction caches and translations is noteFetch. The schedule is the model's own (log entry 5), as are upkeep and what the
instruction caches hold (8, 9), that the second word is fetched before the first is judged (49), and trap.info of a parity
error (29). -/
def Obligations.StepRunsTheDecodedInstruction : Prop :=
  (∀ (s t : State) (r : List Turn) (k : CrewKey), s.dev.tripped = false → s.turns = .scalar k :: r →
    focus k (upkeep { s with turns := r }) = some t → scalarMay t = true →
    (trapFirst t = true → step s = exec (.deferredTrap t.crew.key) t) ∧
    (∀ e, trapFirst t = false → fetchScalar t = .error e → step s = .next (haltScalar e t)) ∧
    (∀ (w0 w1 : W32) (u : State), trapFirst t = false → fetchScalar t = .ok (w0, w1) →
      u = noteFetch false t.crew.sc.pc (if isLong w0 then 8 else 4) t →
      (∀ i, decodeScalar w0 w1 = some i →
        (∀ o ∈ u.crew.ops, needsAmo i o = false ∧ needsLoad i o = false ∧ needsPart i o = false) →
        (scalarParity u i = false → step s = exec i u) ∧
        (scalarParity u i = true → step s = Expect.traps u 0x15 (BitVec.allOnes 64))) ∧
      (decodeScalar w0 w1 = none → step s = exec (.illegalInstruction false (w0.setWidth 96)) u))) ∧
  (∀ (s t v : State) (r : List Turn) (k : CrewKey) (g : Gang) (x : ARun), s.dev.tripped = false →
    s.turns = .lane k :: r → focus k (upkeep { s with turns := r }) = some t →
    atCrew k freshLane (upkeep { s with turns := r }) = true →
    nextGang false t = some g → curRun t.crew = some x → trapFirst t = false → v = modRun (toHead g) t →
    (∀ e, laneWordAt v g.pc = .error e → step s = .next (haltLane e 0 g (lanesMask (maskLanes x g.members)) v)) ∧
    (∀ (w : W96) (u : State), laneWordAt v g.pc = .ok w → u = noteFetch true g.pc 12 v →
      (∀ i, decodeLane w = some i →
        (∀ o ∈ u.crew.ops, isVamo o = false ∧ needsLaneLoad i o = false ∧ needsGather i o = false) →
        (laneParity u x g i = false → step s = exec i u) ∧
        (laneParity u x g i = true → step s = Expect.trapsLane u 0x15 (BitVec.allOnes 64) g (Expect.wordActive u x g w))) ∧
      (decodeLane w = none → step s = exec (.illegalInstruction true w) u))) ∧
  (∀ (s : State) (r : List Turn) (i : Instr), s.dev.tripped = false → s.turns = .event i :: r →
    step s = exec i (upkeep { s with turns := r }))

/-- R43 to R46, R48, R56, R57: the words that the spec assembles by hand decode to their instructions, here one of each
scalar format and of several families, the branch of the worked lane routine, a single-form word and a pair; and words that
R46 and R47 call illegal decode to none. -/
def Obligations.DecodedWords : Prop :=
  decodeScalar 0x04310520 0 = some (.addW 3 4 5) ∧ decodeScalar 0x2421C864 0 = some (.cmpi 2 7 2 100) ∧
  decodeScalar 0x34028200 0 = some (.jr 10 0 2) ∧ decodeScalar 0x2CFFFFF0 0 = some (.bra 3 1 0x1FFFF0) ∧
  decodeScalar 0xF8900300 0x12345678 = some (.liW 9 0x12345678) ∧ decodeScalar 0x5C008501 0 = some (.trap 0x85) ∧
  decodeScalar 0x44A10999 0 = some (.amo 10 4 9 9 1 1) ∧ decodeScalar 0x68322200 0 = some (.cpIssueBar 3 2 2) ∧
  decodeScalar 0xF8220101 0x40 = some (.mloop 2 8 0 0 1 0x40) ∧ decodeScalar 0x7C72400D 0 = some (.qPop 7 9 5) ∧
  decodeScalar 0x8C030003 0 = some (.svRef 12) ∧ decodeScalar 0xA0A00004 0 = none ∧ decodeScalar 0 0 = none ∧
  decodeScalar 0xFC000000 0 = none ∧ decodeScalar 0x5C000501 0 = none ∧
  decodeLane 0x9C0000000600060000000100 = some (.laneBra ⟨true, 0, 0, 0, 3, 0, 0x300, 0, 0, 0, 0, 0, 0x100⟩) ∧
  decodeLane 0x3108_0400_1001_8000_0000_0000 = some (.eadd ⟨false, 8, 16, 0, 8, 12, 0, 0, 0, 0, 0, 0, 0⟩) ∧
  decodeLane 0x5040_2000_4008_3080_8801_8020 =
    some (.lanePairWord ⟨0x20, 4, 8, 1, 2, 0⟩ ⟨0x30, 4, 17, 3, 4, 0⟩) ∧
  decodeLane 0xC00000000000000000000000 = none

/-- R42 to R61: every encoding that an instruction has decodes to it, with every operand at every value the encoding admits:
the first word of a scalar instruction, followed by its immediate word where it has one and by any word where it has none,
and the 96-bit word of a lane instruction. -/
def Obligations.DecodeAndEncodeAgree : Prop :=
  (∀ (i : Instr) (q : SWord) (w1 : W32), encFields i = some q → i.wf = true → (∀ x ∈ encImm i, w1 = x) →
    decodeScalar (joinS q) w1 = some i) ∧
  (∀ (i : Instr) (v : W96), encLane i = some v → i.wf = true → decodeLane v = some i)

/-- R44, R47, R55: a word that decodes to an instruction is that instruction's one encoding, so that no two words mean the
same instruction and no bit of a word goes unread. -/
def Obligations.EveryWordIsItsEncoding : Prop :=
  (∀ (w0 w1 : W32) (i : Instr), decodeScalar w0 w1 = some i → i.wf = true ∧
    encode i = if isLong w0 then [w0, w1] else [w0]) ∧
  (∀ (v : W96) (i : Instr), decodeLane v = some i → i.wf = true ∧ encode i = laneWords v)

/-- Physical memory in canonical form, rising and without an entry of the value an unlisted address reads as, stays so in
every step from every state. -/
def Obligations.EveryStepKeepsMemoryCanonical : Prop :=
  ∀ s t : State, s.sound = true → step s = .next t → t.sound = true

/-- R85, R170, R219, R305, R326, R357, R358: what reset leaves: memory canonical and zero, device time zero, RMDEF 000, every
bank in cache mode, not secure and DONE, every matrix token free, every chain value zero, every slice queue disabled and
empty, and the power cap at 3,400 W. That host memory reads as zero before anything is written there is the model's choice
(notes/assumptions/1.md). -/
def Obligations.ResetState : Prop :=
  State.reset.sound = true ∧ (∀ pa n, memRd State.reset pa n = List.replicate n 0) ∧ devTime State.reset = 0 ∧
  State.reset.crew.sc.rmdef = 0 ∧ (∀ r, rdS State.reset r = 0) ∧ (∀ v l, rdV State.reset v l = 0) ∧
  (∀ c b, bankWord (smGet BankReg.reset State.reset.bankRegs (64 * c + b)) = 2 ^ 30) ∧
  (∀ c, (coreAt State.reset c).token = none) ∧
  (∀ q, (sliceQ State.reset q).digest = List.replicate 32 0 ∧ qEn (sliceQ State.reset q).qctl = false ∧
    (sliceQ State.reset q).recs = []) ∧ State.reset.dev.pcap = 3400
end

