-- ==== Sys2Proof/Laws/State.lean ====
section
/-! SUPPORT. One lemma per field and update of the state: what each named update leaves in each field. -/

namespace Sys2Proof.Machine

/-! ### onC -/

@[simp] theorem onC_turns (f : Crew → Crew) (s : State) : (onC f s).turns = s.turns := rfl
@[simp] theorem onC_beat (f : Crew → Crew) (s : State) : (onC f s).beat = s.beat := rfl
@[simp] theorem onC_sweep (f : Crew → Crew) (s : State) : (onC f s).sweep = s.sweep := rfl
@[simp] theorem onC_free (f : Crew → Crew) (s : State) : (onC f s).free = s.free := rfl
@[simp] theorem onC_fine (f : Crew → Crew) (s : State) : (onC f s).fine = s.fine := rfl
@[simp] theorem onC_cycles (f : Crew → Crew) (s : State) : (onC f s).cycles = s.cycles := rfl
@[simp] theorem onC_team (f : Crew → Crew) (s : State) : (onC f s).team = s.team := rfl
@[simp] theorem onC_job (f : Crew → Crew) (s : State) : (onC f s).job = s.job := rfl
@[simp] theorem onC_crews (f : Crew → Crew) (s : State) : (onC f s).crews = s.crews := rfl
@[simp] theorem onC_teams (f : Crew → Crew) (s : State) : (onC f s).teams = s.teams := rfl
@[simp] theorem onC_jobs (f : Crew → Crew) (s : State) : (onC f s).jobs = s.jobs := rfl
@[simp] theorem onC_nextTake (f : Crew → Crew) (s : State) : (onC f s).nextTake = s.nextTake := rfl
@[simp] theorem onC_mem (f : Crew → Crew) (s : State) : (onC f s).mem = s.mem := rfl
@[simp] theorem onC_memBad (f : Crew → Crew) (s : State) : (onC f s).memBad = s.memBad := rfl
@[simp] theorem onC_l1 (f : Crew → Crew) (s : State) : (onC f s).l1 = s.l1 := rfl
@[simp] theorem onC_cspad (f : Crew → Crew) (s : State) : (onC f s).cspad = s.cspad := rfl
@[simp] theorem onC_cspadBad (f : Crew → Crew) (s : State) : (onC f s).cspadBad = s.cspadBad := rfl
@[simp] theorem onC_bankRegs (f : Crew → Crew) (s : State) : (onC f s).bankRegs = s.bankRegs := rfl
@[simp] theorem onC_queues (f : Crew → Crew) (s : State) : (onC f s).queues = s.queues := rfl
@[simp] theorem onC_dataQueues (f : Crew → Crew) (s : State) : (onC f s).dataQueues = s.dataQueues := rfl
@[simp] theorem onC_cores (f : Crew → Crew) (s : State) : (onC f s).cores = s.cores := rfl
@[simp] theorem onC_rings (f : Crew → Crew) (s : State) : (onC f s).rings = s.rings := rfl
@[simp] theorem onC_events (f : Crew → Crew) (s : State) : (onC f s).events = s.events := rfl
@[simp] theorem onC_merges (f : Crew → Crew) (s : State) : (onC f s).merges = s.merges := rfl
@[simp] theorem onC_tlbs (f : Crew → Crew) (s : State) : (onC f s).tlbs = s.tlbs := rfl
@[simp] theorem onC_espalier (f : Crew → Crew) (s : State) : (onC f s).espalier = s.espalier := rfl
@[simp] theorem onC_replicas (f : Crew → Crew) (s : State) : (onC f s).replicas = s.replicas := rfl
@[simp] theorem onC_monitor (f : Crew → Crew) (s : State) : (onC f s).monitor = s.monitor := rfl
@[simp] theorem onC_reduces (f : Crew → Crew) (s : State) : (onC f s).reduces = s.reduces := rfl
@[simp] theorem onC_dev (f : Crew → Crew) (s : State) : (onC f s).dev = s.dev := rfl
@[simp] theorem onC_crew (f : Crew → Crew) (s : State) : (onC f s).crew = f s.crew := rfl

/-! ### onSc -/

@[simp] theorem onSc_turns (f : ScalarSt → ScalarSt) (s : State) : (onSc f s).turns = s.turns := rfl
@[simp] theorem onSc_beat (f : ScalarSt → ScalarSt) (s : State) : (onSc f s).beat = s.beat := rfl
@[simp] theorem onSc_sweep (f : ScalarSt → ScalarSt) (s : State) : (onSc f s).sweep = s.sweep := rfl
@[simp] theorem onSc_free (f : ScalarSt → ScalarSt) (s : State) : (onSc f s).free = s.free := rfl
@[simp] theorem onSc_fine (f : ScalarSt → ScalarSt) (s : State) : (onSc f s).fine = s.fine := rfl
@[simp] theorem onSc_cycles (f : ScalarSt → ScalarSt) (s : State) : (onSc f s).cycles = s.cycles := rfl
@[simp] theorem onSc_team (f : ScalarSt → ScalarSt) (s : State) : (onSc f s).team = s.team := rfl
@[simp] theorem onSc_job (f : ScalarSt → ScalarSt) (s : State) : (onSc f s).job = s.job := rfl
@[simp] theorem onSc_crews (f : ScalarSt → ScalarSt) (s : State) : (onSc f s).crews = s.crews := rfl
@[simp] theorem onSc_teams (f : ScalarSt → ScalarSt) (s : State) : (onSc f s).teams = s.teams := rfl
@[simp] theorem onSc_jobs (f : ScalarSt → ScalarSt) (s : State) : (onSc f s).jobs = s.jobs := rfl
@[simp] theorem onSc_nextTake (f : ScalarSt → ScalarSt) (s : State) : (onSc f s).nextTake = s.nextTake := rfl
@[simp] theorem onSc_mem (f : ScalarSt → ScalarSt) (s : State) : (onSc f s).mem = s.mem := rfl
@[simp] theorem onSc_memBad (f : ScalarSt → ScalarSt) (s : State) : (onSc f s).memBad = s.memBad := rfl
@[simp] theorem onSc_l1 (f : ScalarSt → ScalarSt) (s : State) : (onSc f s).l1 = s.l1 := rfl
@[simp] theorem onSc_cspad (f : ScalarSt → ScalarSt) (s : State) : (onSc f s).cspad = s.cspad := rfl
@[simp] theorem onSc_cspadBad (f : ScalarSt → ScalarSt) (s : State) : (onSc f s).cspadBad = s.cspadBad := rfl
@[simp] theorem onSc_bankRegs (f : ScalarSt → ScalarSt) (s : State) : (onSc f s).bankRegs = s.bankRegs := rfl
@[simp] theorem onSc_queues (f : ScalarSt → ScalarSt) (s : State) : (onSc f s).queues = s.queues := rfl
@[simp] theorem onSc_dataQueues (f : ScalarSt → ScalarSt) (s : State) : (onSc f s).dataQueues = s.dataQueues := rfl
@[simp] theorem onSc_cores (f : ScalarSt → ScalarSt) (s : State) : (onSc f s).cores = s.cores := rfl
@[simp] theorem onSc_rings (f : ScalarSt → ScalarSt) (s : State) : (onSc f s).rings = s.rings := rfl
@[simp] theorem onSc_events (f : ScalarSt → ScalarSt) (s : State) : (onSc f s).events = s.events := rfl
@[simp] theorem onSc_merges (f : ScalarSt → ScalarSt) (s : State) : (onSc f s).merges = s.merges := rfl
@[simp] theorem onSc_tlbs (f : ScalarSt → ScalarSt) (s : State) : (onSc f s).tlbs = s.tlbs := rfl
@[simp] theorem onSc_espalier (f : ScalarSt → ScalarSt) (s : State) : (onSc f s).espalier = s.espalier := rfl
@[simp] theorem onSc_replicas (f : ScalarSt → ScalarSt) (s : State) : (onSc f s).replicas = s.replicas := rfl
@[simp] theorem onSc_monitor (f : ScalarSt → ScalarSt) (s : State) : (onSc f s).monitor = s.monitor := rfl
@[simp] theorem onSc_reduces (f : ScalarSt → ScalarSt) (s : State) : (onSc f s).reduces = s.reduces := rfl
@[simp] theorem onSc_dev (f : ScalarSt → ScalarSt) (s : State) : (onSc f s).dev = s.dev := rfl
@[simp] theorem onSc_sc (f : ScalarSt → ScalarSt) (s : State) : (onSc f s).crew.sc = f s.crew.sc := rfl
@[simp] theorem onSc_crew_key (f : ScalarSt → ScalarSt) (s : State) : (onSc f s).crew.key = s.crew.key := rfl
@[simp] theorem onSc_crew_status (f : ScalarSt → ScalarSt) (s : State) : (onSc f s).crew.status = s.crew.status := rfl
@[simp] theorem onSc_crew_active (f : ScalarSt → ScalarSt) (s : State) : (onSc f s).crew.active = s.crew.active := rfl
@[simp] theorem onSc_crew_offered (f : ScalarSt → ScalarSt) (s : State) :
    (onSc f s).crew.offered = s.crew.offered := rfl
@[simp] theorem onSc_crew_ln (f : ScalarSt → ScalarSt) (s : State) : (onSc f s).crew.ln = s.crew.ln := rfl
@[simp] theorem onSc_crew_ops (f : ScalarSt → ScalarSt) (s : State) : (onSc f s).crew.ops = s.crew.ops := rfl
@[simp] theorem onSc_crew_sieve (f : ScalarSt → ScalarSt) (s : State) : (onSc f s).crew.sieve = s.crew.sieve := rfl
@[simp] theorem onSc_crew_sieveOrder (f : ScalarSt → ScalarSt) (s : State) :
    (onSc f s).crew.sieveOrder = s.crew.sieveOrder := rfl
@[simp] theorem onSc_crew_clock (f : ScalarSt → ScalarSt) (s : State) : (onSc f s).crew.clock = s.crew.clock := rfl
@[simp] theorem onSc_crew_entryCycle (f : ScalarSt → ScalarSt) (s : State) :
    (onSc f s).crew.entryCycle = s.crew.entryCycle := rfl
@[simp] theorem onSc_crew_wait (f : ScalarSt → ScalarSt) (s : State) : (onSc f s).crew.wait = s.crew.wait := rfl
@[simp] theorem onSc_crew_park (f : ScalarSt → ScalarSt) (s : State) : (onSc f s).crew.park = s.crew.park := rfl
@[simp] theorem onSc_crew_handler (f : ScalarSt → ScalarSt) (s : State) :
    (onSc f s).crew.handler = s.crew.handler := rfl
@[simp] theorem onSc_crew_ptraps (f : ScalarSt → ScalarSt) (s : State) : (onSc f s).crew.ptraps = s.crew.ptraps := rfl
@[simp] theorem onSc_crew_region (f : ScalarSt → ScalarSt) (s : State) : (onSc f s).crew.region = s.crew.region := rfl
@[simp] theorem onSc_crew_barKept (f : ScalarSt → ScalarSt) (s : State) :
    (onSc f s).crew.barKept = s.crew.barKept := rfl
@[simp] theorem onSc_crew_graftKept (f : ScalarSt → ScalarSt) (s : State) :
    (onSc f s).crew.graftKept = s.crew.graftKept := rfl
@[simp] theorem onSc_crew_solve (f : ScalarSt → ScalarSt) (s : State) : (onSc f s).crew.solve = s.crew.solve := rfl
@[simp] theorem onSc_crew_svStat (f : ScalarSt → ScalarSt) (s : State) : (onSc f s).crew.svStat = s.crew.svStat := rfl
@[simp] theorem onSc_crew_cmo (f : ScalarSt → ScalarSt) (s : State) : (onSc f s).crew.cmo = s.crew.cmo := rfl
@[simp] theorem onSc_crew_banks (f : ScalarSt → ScalarSt) (s : State) : (onSc f s).crew.banks = s.crew.banks := rfl
@[simp] theorem onSc_crew_spilled (f : ScalarSt → ScalarSt) (s : State) :
    (onSc f s).crew.spilled = s.crew.spilled := rfl
@[simp] theorem onSc_crew_carried (f : ScalarSt → ScalarSt) (s : State) :
    (onSc f s).crew.carried = s.crew.carried := rfl
@[simp] theorem onSc_crew_tiles (f : ScalarSt → ScalarSt) (s : State) : (onSc f s).crew.tiles = s.crew.tiles := rfl
@[simp] theorem onSc_crew_hadToken (f : ScalarSt → ScalarSt) (s : State) :
    (onSc f s).crew.hadToken = s.crew.hadToken := rfl
@[simp] theorem onSc_crew_budgetTrap (f : ScalarSt → ScalarSt) (s : State) :
    (onSc f s).crew.budgetTrap = s.crew.budgetTrap := rfl

/-! ### onLn -/

@[simp] theorem onLn_turns (f : LaneSt → LaneSt) (s : State) : (onLn f s).turns = s.turns := rfl
@[simp] theorem onLn_beat (f : LaneSt → LaneSt) (s : State) : (onLn f s).beat = s.beat := rfl
@[simp] theorem onLn_sweep (f : LaneSt → LaneSt) (s : State) : (onLn f s).sweep = s.sweep := rfl
@[simp] theorem onLn_free (f : LaneSt → LaneSt) (s : State) : (onLn f s).free = s.free := rfl
@[simp] theorem onLn_fine (f : LaneSt → LaneSt) (s : State) : (onLn f s).fine = s.fine := rfl
@[simp] theorem onLn_cycles (f : LaneSt → LaneSt) (s : State) : (onLn f s).cycles = s.cycles := rfl
@[simp] theorem onLn_team (f : LaneSt → LaneSt) (s : State) : (onLn f s).team = s.team := rfl
@[simp] theorem onLn_job (f : LaneSt → LaneSt) (s : State) : (onLn f s).job = s.job := rfl
@[simp] theorem onLn_crews (f : LaneSt → LaneSt) (s : State) : (onLn f s).crews = s.crews := rfl
@[simp] theorem onLn_teams (f : LaneSt → LaneSt) (s : State) : (onLn f s).teams = s.teams := rfl
@[simp] theorem onLn_jobs (f : LaneSt → LaneSt) (s : State) : (onLn f s).jobs = s.jobs := rfl
@[simp] theorem onLn_nextTake (f : LaneSt → LaneSt) (s : State) : (onLn f s).nextTake = s.nextTake := rfl
@[simp] theorem onLn_mem (f : LaneSt → LaneSt) (s : State) : (onLn f s).mem = s.mem := rfl
@[simp] theorem onLn_memBad (f : LaneSt → LaneSt) (s : State) : (onLn f s).memBad = s.memBad := rfl
@[simp] theorem onLn_l1 (f : LaneSt → LaneSt) (s : State) : (onLn f s).l1 = s.l1 := rfl
@[simp] theorem onLn_cspad (f : LaneSt → LaneSt) (s : State) : (onLn f s).cspad = s.cspad := rfl
@[simp] theorem onLn_cspadBad (f : LaneSt → LaneSt) (s : State) : (onLn f s).cspadBad = s.cspadBad := rfl
@[simp] theorem onLn_bankRegs (f : LaneSt → LaneSt) (s : State) : (onLn f s).bankRegs = s.bankRegs := rfl
@[simp] theorem onLn_queues (f : LaneSt → LaneSt) (s : State) : (onLn f s).queues = s.queues := rfl
@[simp] theorem onLn_dataQueues (f : LaneSt → LaneSt) (s : State) : (onLn f s).dataQueues = s.dataQueues := rfl
@[simp] theorem onLn_cores (f : LaneSt → LaneSt) (s : State) : (onLn f s).cores = s.cores := rfl
@[simp] theorem onLn_rings (f : LaneSt → LaneSt) (s : State) : (onLn f s).rings = s.rings := rfl
@[simp] theorem onLn_events (f : LaneSt → LaneSt) (s : State) : (onLn f s).events = s.events := rfl
@[simp] theorem onLn_merges (f : LaneSt → LaneSt) (s : State) : (onLn f s).merges = s.merges := rfl
@[simp] theorem onLn_tlbs (f : LaneSt → LaneSt) (s : State) : (onLn f s).tlbs = s.tlbs := rfl
@[simp] theorem onLn_espalier (f : LaneSt → LaneSt) (s : State) : (onLn f s).espalier = s.espalier := rfl
@[simp] theorem onLn_replicas (f : LaneSt → LaneSt) (s : State) : (onLn f s).replicas = s.replicas := rfl
@[simp] theorem onLn_monitor (f : LaneSt → LaneSt) (s : State) : (onLn f s).monitor = s.monitor := rfl
@[simp] theorem onLn_reduces (f : LaneSt → LaneSt) (s : State) : (onLn f s).reduces = s.reduces := rfl
@[simp] theorem onLn_dev (f : LaneSt → LaneSt) (s : State) : (onLn f s).dev = s.dev := rfl
@[simp] theorem onLn_ln (f : LaneSt → LaneSt) (s : State) : (onLn f s).crew.ln = f s.crew.ln := rfl
@[simp] theorem onLn_crew_key (f : LaneSt → LaneSt) (s : State) : (onLn f s).crew.key = s.crew.key := rfl
@[simp] theorem onLn_crew_status (f : LaneSt → LaneSt) (s : State) : (onLn f s).crew.status = s.crew.status := rfl
@[simp] theorem onLn_crew_active (f : LaneSt → LaneSt) (s : State) : (onLn f s).crew.active = s.crew.active := rfl
@[simp] theorem onLn_crew_offered (f : LaneSt → LaneSt) (s : State) : (onLn f s).crew.offered = s.crew.offered := rfl
@[simp] theorem onLn_crew_sc (f : LaneSt → LaneSt) (s : State) : (onLn f s).crew.sc = s.crew.sc := rfl
@[simp] theorem onLn_crew_ops (f : LaneSt → LaneSt) (s : State) : (onLn f s).crew.ops = s.crew.ops := rfl
@[simp] theorem onLn_crew_sieve (f : LaneSt → LaneSt) (s : State) : (onLn f s).crew.sieve = s.crew.sieve := rfl
@[simp] theorem onLn_crew_sieveOrder (f : LaneSt → LaneSt) (s : State) :
    (onLn f s).crew.sieveOrder = s.crew.sieveOrder := rfl
@[simp] theorem onLn_crew_clock (f : LaneSt → LaneSt) (s : State) : (onLn f s).crew.clock = s.crew.clock := rfl
@[simp] theorem onLn_crew_entryCycle (f : LaneSt → LaneSt) (s : State) :
    (onLn f s).crew.entryCycle = s.crew.entryCycle := rfl
@[simp] theorem onLn_crew_wait (f : LaneSt → LaneSt) (s : State) : (onLn f s).crew.wait = s.crew.wait := rfl
@[simp] theorem onLn_crew_park (f : LaneSt → LaneSt) (s : State) : (onLn f s).crew.park = s.crew.park := rfl
@[simp] theorem onLn_crew_handler (f : LaneSt → LaneSt) (s : State) : (onLn f s).crew.handler = s.crew.handler := rfl
@[simp] theorem onLn_crew_ptraps (f : LaneSt → LaneSt) (s : State) : (onLn f s).crew.ptraps = s.crew.ptraps := rfl
@[simp] theorem onLn_crew_region (f : LaneSt → LaneSt) (s : State) : (onLn f s).crew.region = s.crew.region := rfl
@[simp] theorem onLn_crew_barKept (f : LaneSt → LaneSt) (s : State) : (onLn f s).crew.barKept = s.crew.barKept := rfl
@[simp] theorem onLn_crew_graftKept (f : LaneSt → LaneSt) (s : State) :
    (onLn f s).crew.graftKept = s.crew.graftKept := rfl
@[simp] theorem onLn_crew_solve (f : LaneSt → LaneSt) (s : State) : (onLn f s).crew.solve = s.crew.solve := rfl
@[simp] theorem onLn_crew_svStat (f : LaneSt → LaneSt) (s : State) : (onLn f s).crew.svStat = s.crew.svStat := rfl
@[simp] theorem onLn_crew_cmo (f : LaneSt → LaneSt) (s : State) : (onLn f s).crew.cmo = s.crew.cmo := rfl
@[simp] theorem onLn_crew_banks (f : LaneSt → LaneSt) (s : State) : (onLn f s).crew.banks = s.crew.banks := rfl
@[simp] theorem onLn_crew_spilled (f : LaneSt → LaneSt) (s : State) : (onLn f s).crew.spilled = s.crew.spilled := rfl
@[simp] theorem onLn_crew_carried (f : LaneSt → LaneSt) (s : State) : (onLn f s).crew.carried = s.crew.carried := rfl
@[simp] theorem onLn_crew_tiles (f : LaneSt → LaneSt) (s : State) : (onLn f s).crew.tiles = s.crew.tiles := rfl
@[simp] theorem onLn_crew_hadToken (f : LaneSt → LaneSt) (s : State) : (onLn f s).crew.hadToken = s.crew.hadToken := rfl
@[simp] theorem onLn_crew_budgetTrap (f : LaneSt → LaneSt) (s : State) :
    (onLn f s).crew.budgetTrap = s.crew.budgetTrap := rfl

/-! ### onRegs -/

@[simp] theorem onRegs_turns (f : LaneRegs → LaneRegs) (s : State) : (onRegs f s).turns = s.turns := rfl
@[simp] theorem onRegs_beat (f : LaneRegs → LaneRegs) (s : State) : (onRegs f s).beat = s.beat := rfl
@[simp] theorem onRegs_sweep (f : LaneRegs → LaneRegs) (s : State) : (onRegs f s).sweep = s.sweep := rfl
@[simp] theorem onRegs_free (f : LaneRegs → LaneRegs) (s : State) : (onRegs f s).free = s.free := rfl
@[simp] theorem onRegs_fine (f : LaneRegs → LaneRegs) (s : State) : (onRegs f s).fine = s.fine := rfl
@[simp] theorem onRegs_cycles (f : LaneRegs → LaneRegs) (s : State) : (onRegs f s).cycles = s.cycles := rfl
@[simp] theorem onRegs_team (f : LaneRegs → LaneRegs) (s : State) : (onRegs f s).team = s.team := rfl
@[simp] theorem onRegs_job (f : LaneRegs → LaneRegs) (s : State) : (onRegs f s).job = s.job := rfl
@[simp] theorem onRegs_crews (f : LaneRegs → LaneRegs) (s : State) : (onRegs f s).crews = s.crews := rfl
@[simp] theorem onRegs_teams (f : LaneRegs → LaneRegs) (s : State) : (onRegs f s).teams = s.teams := rfl
@[simp] theorem onRegs_jobs (f : LaneRegs → LaneRegs) (s : State) : (onRegs f s).jobs = s.jobs := rfl
@[simp] theorem onRegs_nextTake (f : LaneRegs → LaneRegs) (s : State) : (onRegs f s).nextTake = s.nextTake := rfl
@[simp] theorem onRegs_mem (f : LaneRegs → LaneRegs) (s : State) : (onRegs f s).mem = s.mem := rfl
@[simp] theorem onRegs_memBad (f : LaneRegs → LaneRegs) (s : State) : (onRegs f s).memBad = s.memBad := rfl
@[simp] theorem onRegs_l1 (f : LaneRegs → LaneRegs) (s : State) : (onRegs f s).l1 = s.l1 := rfl
@[simp] theorem onRegs_cspad (f : LaneRegs → LaneRegs) (s : State) : (onRegs f s).cspad = s.cspad := rfl
@[simp] theorem onRegs_cspadBad (f : LaneRegs → LaneRegs) (s : State) : (onRegs f s).cspadBad = s.cspadBad := rfl
@[simp] theorem onRegs_bankRegs (f : LaneRegs → LaneRegs) (s : State) : (onRegs f s).bankRegs = s.bankRegs := rfl
@[simp] theorem onRegs_queues (f : LaneRegs → LaneRegs) (s : State) : (onRegs f s).queues = s.queues := rfl
@[simp] theorem onRegs_dataQueues (f : LaneRegs → LaneRegs) (s : State) : (onRegs f s).dataQueues = s.dataQueues := rfl
@[simp] theorem onRegs_cores (f : LaneRegs → LaneRegs) (s : State) : (onRegs f s).cores = s.cores := rfl
@[simp] theorem onRegs_rings (f : LaneRegs → LaneRegs) (s : State) : (onRegs f s).rings = s.rings := rfl
@[simp] theorem onRegs_events (f : LaneRegs → LaneRegs) (s : State) : (onRegs f s).events = s.events := rfl
@[simp] theorem onRegs_merges (f : LaneRegs → LaneRegs) (s : State) : (onRegs f s).merges = s.merges := rfl
@[simp] theorem onRegs_tlbs (f : LaneRegs → LaneRegs) (s : State) : (onRegs f s).tlbs = s.tlbs := rfl
@[simp] theorem onRegs_espalier (f : LaneRegs → LaneRegs) (s : State) : (onRegs f s).espalier = s.espalier := rfl
@[simp] theorem onRegs_replicas (f : LaneRegs → LaneRegs) (s : State) : (onRegs f s).replicas = s.replicas := rfl
@[simp] theorem onRegs_monitor (f : LaneRegs → LaneRegs) (s : State) : (onRegs f s).monitor = s.monitor := rfl
@[simp] theorem onRegs_reduces (f : LaneRegs → LaneRegs) (s : State) : (onRegs f s).reduces = s.reduces := rfl
@[simp] theorem onRegs_dev (f : LaneRegs → LaneRegs) (s : State) : (onRegs f s).dev = s.dev := rfl
@[simp] theorem onRegs_regs (f : LaneRegs → LaneRegs) (s : State) : (onRegs f s).crew.ln.regs = f s.crew.ln.regs := rfl
@[simp] theorem onRegs_crew_key (f : LaneRegs → LaneRegs) (s : State) : (onRegs f s).crew.key = s.crew.key := rfl
@[simp] theorem onRegs_crew_status (f : LaneRegs → LaneRegs) (s : State) :
    (onRegs f s).crew.status = s.crew.status := rfl
@[simp] theorem onRegs_crew_active (f : LaneRegs → LaneRegs) (s : State) :
    (onRegs f s).crew.active = s.crew.active := rfl
@[simp] theorem onRegs_crew_offered (f : LaneRegs → LaneRegs) (s : State) :
    (onRegs f s).crew.offered = s.crew.offered := rfl
@[simp] theorem onRegs_crew_sc (f : LaneRegs → LaneRegs) (s : State) : (onRegs f s).crew.sc = s.crew.sc := rfl
@[simp] theorem onRegs_crew_ops (f : LaneRegs → LaneRegs) (s : State) : (onRegs f s).crew.ops = s.crew.ops := rfl
@[simp] theorem onRegs_crew_sieve (f : LaneRegs → LaneRegs) (s : State) : (onRegs f s).crew.sieve = s.crew.sieve := rfl
@[simp] theorem onRegs_crew_sieveOrder (f : LaneRegs → LaneRegs) (s : State) :
    (onRegs f s).crew.sieveOrder = s.crew.sieveOrder := rfl
@[simp] theorem onRegs_crew_clock (f : LaneRegs → LaneRegs) (s : State) : (onRegs f s).crew.clock = s.crew.clock := rfl
@[simp] theorem onRegs_crew_entryCycle (f : LaneRegs → LaneRegs) (s : State) :
    (onRegs f s).crew.entryCycle = s.crew.entryCycle := rfl
@[simp] theorem onRegs_crew_wait (f : LaneRegs → LaneRegs) (s : State) : (onRegs f s).crew.wait = s.crew.wait := rfl
@[simp] theorem onRegs_crew_park (f : LaneRegs → LaneRegs) (s : State) : (onRegs f s).crew.park = s.crew.park := rfl
@[simp] theorem onRegs_crew_handler (f : LaneRegs → LaneRegs) (s : State) :
    (onRegs f s).crew.handler = s.crew.handler := rfl
@[simp] theorem onRegs_crew_ptraps (f : LaneRegs → LaneRegs) (s : State) :
    (onRegs f s).crew.ptraps = s.crew.ptraps := rfl
@[simp] theorem onRegs_crew_region (f : LaneRegs → LaneRegs) (s : State) :
    (onRegs f s).crew.region = s.crew.region := rfl
@[simp] theorem onRegs_crew_barKept (f : LaneRegs → LaneRegs) (s : State) :
    (onRegs f s).crew.barKept = s.crew.barKept := rfl
@[simp] theorem onRegs_crew_graftKept (f : LaneRegs → LaneRegs) (s : State) :
    (onRegs f s).crew.graftKept = s.crew.graftKept := rfl
@[simp] theorem onRegs_crew_solve (f : LaneRegs → LaneRegs) (s : State) : (onRegs f s).crew.solve = s.crew.solve := rfl
@[simp] theorem onRegs_crew_svStat (f : LaneRegs → LaneRegs) (s : State) :
    (onRegs f s).crew.svStat = s.crew.svStat := rfl
@[simp] theorem onRegs_crew_cmo (f : LaneRegs → LaneRegs) (s : State) : (onRegs f s).crew.cmo = s.crew.cmo := rfl
@[simp] theorem onRegs_crew_banks (f : LaneRegs → LaneRegs) (s : State) : (onRegs f s).crew.banks = s.crew.banks := rfl
@[simp] theorem onRegs_crew_spilled (f : LaneRegs → LaneRegs) (s : State) :
    (onRegs f s).crew.spilled = s.crew.spilled := rfl
@[simp] theorem onRegs_crew_carried (f : LaneRegs → LaneRegs) (s : State) :
    (onRegs f s).crew.carried = s.crew.carried := rfl
@[simp] theorem onRegs_crew_tiles (f : LaneRegs → LaneRegs) (s : State) : (onRegs f s).crew.tiles = s.crew.tiles := rfl
@[simp] theorem onRegs_crew_hadToken (f : LaneRegs → LaneRegs) (s : State) :
    (onRegs f s).crew.hadToken = s.crew.hadToken := rfl
@[simp] theorem onRegs_crew_budgetTrap (f : LaneRegs → LaneRegs) (s : State) :
    (onRegs f s).crew.budgetTrap = s.crew.budgetTrap := rfl

/-! ### onT -/

@[simp] theorem onT_turns (f : Team → Team) (s : State) : (onT f s).turns = s.turns := rfl
@[simp] theorem onT_beat (f : Team → Team) (s : State) : (onT f s).beat = s.beat := rfl
@[simp] theorem onT_sweep (f : Team → Team) (s : State) : (onT f s).sweep = s.sweep := rfl
@[simp] theorem onT_free (f : Team → Team) (s : State) : (onT f s).free = s.free := rfl
@[simp] theorem onT_fine (f : Team → Team) (s : State) : (onT f s).fine = s.fine := rfl
@[simp] theorem onT_cycles (f : Team → Team) (s : State) : (onT f s).cycles = s.cycles := rfl
@[simp] theorem onT_crew (f : Team → Team) (s : State) : (onT f s).crew = s.crew := rfl
@[simp] theorem onT_job (f : Team → Team) (s : State) : (onT f s).job = s.job := rfl
@[simp] theorem onT_crews (f : Team → Team) (s : State) : (onT f s).crews = s.crews := rfl
@[simp] theorem onT_teams (f : Team → Team) (s : State) : (onT f s).teams = s.teams := rfl
@[simp] theorem onT_jobs (f : Team → Team) (s : State) : (onT f s).jobs = s.jobs := rfl
@[simp] theorem onT_nextTake (f : Team → Team) (s : State) : (onT f s).nextTake = s.nextTake := rfl
@[simp] theorem onT_mem (f : Team → Team) (s : State) : (onT f s).mem = s.mem := rfl
@[simp] theorem onT_memBad (f : Team → Team) (s : State) : (onT f s).memBad = s.memBad := rfl
@[simp] theorem onT_l1 (f : Team → Team) (s : State) : (onT f s).l1 = s.l1 := rfl
@[simp] theorem onT_cspad (f : Team → Team) (s : State) : (onT f s).cspad = s.cspad := rfl
@[simp] theorem onT_cspadBad (f : Team → Team) (s : State) : (onT f s).cspadBad = s.cspadBad := rfl
@[simp] theorem onT_bankRegs (f : Team → Team) (s : State) : (onT f s).bankRegs = s.bankRegs := rfl
@[simp] theorem onT_queues (f : Team → Team) (s : State) : (onT f s).queues = s.queues := rfl
@[simp] theorem onT_dataQueues (f : Team → Team) (s : State) : (onT f s).dataQueues = s.dataQueues := rfl
@[simp] theorem onT_cores (f : Team → Team) (s : State) : (onT f s).cores = s.cores := rfl
@[simp] theorem onT_rings (f : Team → Team) (s : State) : (onT f s).rings = s.rings := rfl
@[simp] theorem onT_events (f : Team → Team) (s : State) : (onT f s).events = s.events := rfl
@[simp] theorem onT_merges (f : Team → Team) (s : State) : (onT f s).merges = s.merges := rfl
@[simp] theorem onT_tlbs (f : Team → Team) (s : State) : (onT f s).tlbs = s.tlbs := rfl
@[simp] theorem onT_espalier (f : Team → Team) (s : State) : (onT f s).espalier = s.espalier := rfl
@[simp] theorem onT_replicas (f : Team → Team) (s : State) : (onT f s).replicas = s.replicas := rfl
@[simp] theorem onT_monitor (f : Team → Team) (s : State) : (onT f s).monitor = s.monitor := rfl
@[simp] theorem onT_reduces (f : Team → Team) (s : State) : (onT f s).reduces = s.reduces := rfl
@[simp] theorem onT_dev (f : Team → Team) (s : State) : (onT f s).dev = s.dev := rfl
@[simp] theorem onT_team (f : Team → Team) (s : State) : (onT f s).team = f s.team := rfl

/-! ### onJ -/

@[simp] theorem onJ_turns (f : Job → Job) (s : State) : (onJ f s).turns = s.turns := rfl
@[simp] theorem onJ_beat (f : Job → Job) (s : State) : (onJ f s).beat = s.beat := rfl
@[simp] theorem onJ_sweep (f : Job → Job) (s : State) : (onJ f s).sweep = s.sweep := rfl
@[simp] theorem onJ_free (f : Job → Job) (s : State) : (onJ f s).free = s.free := rfl
@[simp] theorem onJ_fine (f : Job → Job) (s : State) : (onJ f s).fine = s.fine := rfl
@[simp] theorem onJ_cycles (f : Job → Job) (s : State) : (onJ f s).cycles = s.cycles := rfl
@[simp] theorem onJ_crew (f : Job → Job) (s : State) : (onJ f s).crew = s.crew := rfl
@[simp] theorem onJ_team (f : Job → Job) (s : State) : (onJ f s).team = s.team := rfl
@[simp] theorem onJ_crews (f : Job → Job) (s : State) : (onJ f s).crews = s.crews := rfl
@[simp] theorem onJ_teams (f : Job → Job) (s : State) : (onJ f s).teams = s.teams := rfl
@[simp] theorem onJ_jobs (f : Job → Job) (s : State) : (onJ f s).jobs = s.jobs := rfl
@[simp] theorem onJ_nextTake (f : Job → Job) (s : State) : (onJ f s).nextTake = s.nextTake := rfl
@[simp] theorem onJ_mem (f : Job → Job) (s : State) : (onJ f s).mem = s.mem := rfl
@[simp] theorem onJ_memBad (f : Job → Job) (s : State) : (onJ f s).memBad = s.memBad := rfl
@[simp] theorem onJ_l1 (f : Job → Job) (s : State) : (onJ f s).l1 = s.l1 := rfl
@[simp] theorem onJ_cspad (f : Job → Job) (s : State) : (onJ f s).cspad = s.cspad := rfl
@[simp] theorem onJ_cspadBad (f : Job → Job) (s : State) : (onJ f s).cspadBad = s.cspadBad := rfl
@[simp] theorem onJ_bankRegs (f : Job → Job) (s : State) : (onJ f s).bankRegs = s.bankRegs := rfl
@[simp] theorem onJ_queues (f : Job → Job) (s : State) : (onJ f s).queues = s.queues := rfl
@[simp] theorem onJ_dataQueues (f : Job → Job) (s : State) : (onJ f s).dataQueues = s.dataQueues := rfl
@[simp] theorem onJ_cores (f : Job → Job) (s : State) : (onJ f s).cores = s.cores := rfl
@[simp] theorem onJ_rings (f : Job → Job) (s : State) : (onJ f s).rings = s.rings := rfl
@[simp] theorem onJ_events (f : Job → Job) (s : State) : (onJ f s).events = s.events := rfl
@[simp] theorem onJ_merges (f : Job → Job) (s : State) : (onJ f s).merges = s.merges := rfl
@[simp] theorem onJ_tlbs (f : Job → Job) (s : State) : (onJ f s).tlbs = s.tlbs := rfl
@[simp] theorem onJ_espalier (f : Job → Job) (s : State) : (onJ f s).espalier = s.espalier := rfl
@[simp] theorem onJ_replicas (f : Job → Job) (s : State) : (onJ f s).replicas = s.replicas := rfl
@[simp] theorem onJ_monitor (f : Job → Job) (s : State) : (onJ f s).monitor = s.monitor := rfl
@[simp] theorem onJ_reduces (f : Job → Job) (s : State) : (onJ f s).reduces = s.reduces := rfl
@[simp] theorem onJ_dev (f : Job → Job) (s : State) : (onJ f s).dev = s.dev := rfl
@[simp] theorem onJ_job (f : Job → Job) (s : State) : (onJ f s).job = f s.job := rfl

@[simp] theorem onRegs_ln_cur (f : LaneRegs → LaneRegs) (s : State) : (onRegs f s).crew.ln.cur = s.crew.ln.cur := rfl
@[simp] theorem onRegs_ln_queue (f : LaneRegs → LaneRegs) (s : State) :
    (onRegs f s).crew.ln.queue = s.crew.ln.queue := rfl
@[simp] theorem onRegs_ln_hqueue (f : LaneRegs → LaneRegs) (s : State) :
    (onRegs f s).crew.ln.hqueue = s.crew.ln.hqueue := rfl
@[simp] theorem onRegs_ln_hcur (f : LaneRegs → LaneRegs) (s : State) : (onRegs f s).crew.ln.hcur = s.crew.ln.hcur := rfl
@[simp] theorem onRegs_ln_nextSeq (f : LaneRegs → LaneRegs) (s : State) :
    (onRegs f s).crew.ln.nextSeq = s.crew.ln.nextSeq := rfl
@[simp] theorem onRegs_ln_nextHSeq (f : LaneRegs → LaneRegs) (s : State) :
    (onRegs f s).crew.ln.nextHSeq = s.crew.ln.nextHSeq := rfl
@[simp] theorem onRegs_ln_held (f : LaneRegs → LaneRegs) (s : State) : (onRegs f s).crew.ln.held = s.crew.ln.held := rfl
@[simp] theorem onRegs_ln_edge (f : LaneRegs → LaneRegs) (s : State) : (onRegs f s).crew.ln.edge = s.crew.ln.edge := rfl

/-! ### wrS -/

@[simp] theorem wrS_turns (r : Nat) (v : W64) (s : State) : (wrS r v s).turns = s.turns := rfl
@[simp] theorem wrS_beat (r : Nat) (v : W64) (s : State) : (wrS r v s).beat = s.beat := rfl
@[simp] theorem wrS_sweep (r : Nat) (v : W64) (s : State) : (wrS r v s).sweep = s.sweep := rfl
@[simp] theorem wrS_free (r : Nat) (v : W64) (s : State) : (wrS r v s).free = s.free := rfl
@[simp] theorem wrS_fine (r : Nat) (v : W64) (s : State) : (wrS r v s).fine = s.fine := rfl
@[simp] theorem wrS_cycles (r : Nat) (v : W64) (s : State) : (wrS r v s).cycles = s.cycles := rfl
@[simp] theorem wrS_team (r : Nat) (v : W64) (s : State) : (wrS r v s).team = s.team := rfl
@[simp] theorem wrS_job (r : Nat) (v : W64) (s : State) : (wrS r v s).job = s.job := rfl
@[simp] theorem wrS_crews (r : Nat) (v : W64) (s : State) : (wrS r v s).crews = s.crews := rfl
@[simp] theorem wrS_teams (r : Nat) (v : W64) (s : State) : (wrS r v s).teams = s.teams := rfl
@[simp] theorem wrS_jobs (r : Nat) (v : W64) (s : State) : (wrS r v s).jobs = s.jobs := rfl
@[simp] theorem wrS_nextTake (r : Nat) (v : W64) (s : State) : (wrS r v s).nextTake = s.nextTake := rfl
@[simp] theorem wrS_mem (r : Nat) (v : W64) (s : State) : (wrS r v s).mem = s.mem := rfl
@[simp] theorem wrS_memBad (r : Nat) (v : W64) (s : State) : (wrS r v s).memBad = s.memBad := rfl
@[simp] theorem wrS_l1 (r : Nat) (v : W64) (s : State) : (wrS r v s).l1 = s.l1 := rfl
@[simp] theorem wrS_cspad (r : Nat) (v : W64) (s : State) : (wrS r v s).cspad = s.cspad := rfl
@[simp] theorem wrS_cspadBad (r : Nat) (v : W64) (s : State) : (wrS r v s).cspadBad = s.cspadBad := rfl
@[simp] theorem wrS_bankRegs (r : Nat) (v : W64) (s : State) : (wrS r v s).bankRegs = s.bankRegs := rfl
@[simp] theorem wrS_queues (r : Nat) (v : W64) (s : State) : (wrS r v s).queues = s.queues := rfl
@[simp] theorem wrS_dataQueues (r : Nat) (v : W64) (s : State) : (wrS r v s).dataQueues = s.dataQueues := rfl
@[simp] theorem wrS_cores (r : Nat) (v : W64) (s : State) : (wrS r v s).cores = s.cores := rfl
@[simp] theorem wrS_rings (r : Nat) (v : W64) (s : State) : (wrS r v s).rings = s.rings := rfl
@[simp] theorem wrS_events (r : Nat) (v : W64) (s : State) : (wrS r v s).events = s.events := rfl
@[simp] theorem wrS_merges (r : Nat) (v : W64) (s : State) : (wrS r v s).merges = s.merges := rfl
@[simp] theorem wrS_tlbs (r : Nat) (v : W64) (s : State) : (wrS r v s).tlbs = s.tlbs := rfl
@[simp] theorem wrS_espalier (r : Nat) (v : W64) (s : State) : (wrS r v s).espalier = s.espalier := rfl
@[simp] theorem wrS_replicas (r : Nat) (v : W64) (s : State) : (wrS r v s).replicas = s.replicas := rfl
@[simp] theorem wrS_monitor (r : Nat) (v : W64) (s : State) : (wrS r v s).monitor = s.monitor := rfl
@[simp] theorem wrS_reduces (r : Nat) (v : W64) (s : State) : (wrS r v s).reduces = s.reduces := rfl
@[simp] theorem wrS_dev (r : Nat) (v : W64) (s : State) : (wrS r v s).dev = s.dev := rfl
@[simp] theorem wrS_crew_key (r : Nat) (v : W64) (s : State) : (wrS r v s).crew.key = s.crew.key := rfl
@[simp] theorem wrS_crew_status (r : Nat) (v : W64) (s : State) : (wrS r v s).crew.status = s.crew.status := rfl
@[simp] theorem wrS_crew_active (r : Nat) (v : W64) (s : State) : (wrS r v s).crew.active = s.crew.active := rfl
@[simp] theorem wrS_crew_offered (r : Nat) (v : W64) (s : State) : (wrS r v s).crew.offered = s.crew.offered := rfl
@[simp] theorem wrS_crew_ln (r : Nat) (v : W64) (s : State) : (wrS r v s).crew.ln = s.crew.ln := rfl
@[simp] theorem wrS_crew_ops (r : Nat) (v : W64) (s : State) : (wrS r v s).crew.ops = s.crew.ops := rfl
@[simp] theorem wrS_crew_sieve (r : Nat) (v : W64) (s : State) : (wrS r v s).crew.sieve = s.crew.sieve := rfl
@[simp] theorem wrS_crew_sieveOrder (r : Nat) (v : W64) (s : State) :
    (wrS r v s).crew.sieveOrder = s.crew.sieveOrder := rfl
@[simp] theorem wrS_crew_clock (r : Nat) (v : W64) (s : State) : (wrS r v s).crew.clock = s.crew.clock := rfl
@[simp] theorem wrS_crew_entryCycle (r : Nat) (v : W64) (s : State) :
    (wrS r v s).crew.entryCycle = s.crew.entryCycle := rfl
@[simp] theorem wrS_crew_wait (r : Nat) (v : W64) (s : State) : (wrS r v s).crew.wait = s.crew.wait := rfl
@[simp] theorem wrS_crew_park (r : Nat) (v : W64) (s : State) : (wrS r v s).crew.park = s.crew.park := rfl
@[simp] theorem wrS_crew_handler (r : Nat) (v : W64) (s : State) : (wrS r v s).crew.handler = s.crew.handler := rfl
@[simp] theorem wrS_crew_ptraps (r : Nat) (v : W64) (s : State) : (wrS r v s).crew.ptraps = s.crew.ptraps := rfl
@[simp] theorem wrS_crew_region (r : Nat) (v : W64) (s : State) : (wrS r v s).crew.region = s.crew.region := rfl
@[simp] theorem wrS_crew_barKept (r : Nat) (v : W64) (s : State) : (wrS r v s).crew.barKept = s.crew.barKept := rfl
@[simp] theorem wrS_crew_graftKept (r : Nat) (v : W64) (s : State) :
    (wrS r v s).crew.graftKept = s.crew.graftKept := rfl
@[simp] theorem wrS_crew_solve (r : Nat) (v : W64) (s : State) : (wrS r v s).crew.solve = s.crew.solve := rfl
@[simp] theorem wrS_crew_svStat (r : Nat) (v : W64) (s : State) : (wrS r v s).crew.svStat = s.crew.svStat := rfl
@[simp] theorem wrS_crew_cmo (r : Nat) (v : W64) (s : State) : (wrS r v s).crew.cmo = s.crew.cmo := rfl
@[simp] theorem wrS_crew_banks (r : Nat) (v : W64) (s : State) : (wrS r v s).crew.banks = s.crew.banks := rfl
@[simp] theorem wrS_crew_spilled (r : Nat) (v : W64) (s : State) : (wrS r v s).crew.spilled = s.crew.spilled := rfl
@[simp] theorem wrS_crew_carried (r : Nat) (v : W64) (s : State) : (wrS r v s).crew.carried = s.crew.carried := rfl
@[simp] theorem wrS_crew_tiles (r : Nat) (v : W64) (s : State) : (wrS r v s).crew.tiles = s.crew.tiles := rfl
@[simp] theorem wrS_crew_hadToken (r : Nat) (v : W64) (s : State) : (wrS r v s).crew.hadToken = s.crew.hadToken := rfl
@[simp] theorem wrS_crew_budgetTrap (r : Nat) (v : W64) (s : State) :
    (wrS r v s).crew.budgetTrap = s.crew.budgetTrap := rfl
@[simp] theorem wrS_sc_preds (r : Nat) (v : W64) (s : State) : (wrS r v s).crew.sc.preds = s.crew.sc.preds := rfl
@[simp] theorem wrS_sc_pc (r : Nat) (v : W64) (s : State) : (wrS r v s).crew.sc.pc = s.crew.sc.pc := rfl
@[simp] theorem wrS_sc_astat (r : Nat) (v : W64) (s : State) : (wrS r v s).crew.sc.astat = s.crew.sc.astat := rfl
@[simp] theorem wrS_sc_fmte (r : Nat) (v : W64) (s : State) : (wrS r v s).crew.sc.fmte = s.crew.sc.fmte := rfl
@[simp] theorem wrS_sc_rmdef (r : Nat) (v : W64) (s : State) : (wrS r v s).crew.sc.rmdef = s.crew.sc.rmdef := rfl
@[simp] theorem wrS_sc_rseed (r : Nat) (v : W64) (s : State) : (wrS r v s).crew.sc.rseed = s.crew.sc.rseed := rfl
@[simp] theorem wrS_sc_snaps (r : Nat) (v : W64) (s : State) : (wrS r v s).crew.sc.snaps = s.crew.sc.snaps := rfl
@[simp] theorem wrS_sc_trap (r : Nat) (v : W64) (s : State) : (wrS r v s).crew.sc.trap = s.crew.sc.trap := rfl

/-! ### wrC -/

@[simp] theorem wrC_turns (r : Nat) (v : Bool) (s : State) : (wrC r v s).turns = s.turns := rfl
@[simp] theorem wrC_beat (r : Nat) (v : Bool) (s : State) : (wrC r v s).beat = s.beat := rfl
@[simp] theorem wrC_sweep (r : Nat) (v : Bool) (s : State) : (wrC r v s).sweep = s.sweep := rfl
@[simp] theorem wrC_free (r : Nat) (v : Bool) (s : State) : (wrC r v s).free = s.free := rfl
@[simp] theorem wrC_fine (r : Nat) (v : Bool) (s : State) : (wrC r v s).fine = s.fine := rfl
@[simp] theorem wrC_cycles (r : Nat) (v : Bool) (s : State) : (wrC r v s).cycles = s.cycles := rfl
@[simp] theorem wrC_team (r : Nat) (v : Bool) (s : State) : (wrC r v s).team = s.team := rfl
@[simp] theorem wrC_job (r : Nat) (v : Bool) (s : State) : (wrC r v s).job = s.job := rfl
@[simp] theorem wrC_crews (r : Nat) (v : Bool) (s : State) : (wrC r v s).crews = s.crews := rfl
@[simp] theorem wrC_teams (r : Nat) (v : Bool) (s : State) : (wrC r v s).teams = s.teams := rfl
@[simp] theorem wrC_jobs (r : Nat) (v : Bool) (s : State) : (wrC r v s).jobs = s.jobs := rfl
@[simp] theorem wrC_nextTake (r : Nat) (v : Bool) (s : State) : (wrC r v s).nextTake = s.nextTake := rfl
@[simp] theorem wrC_mem (r : Nat) (v : Bool) (s : State) : (wrC r v s).mem = s.mem := rfl
@[simp] theorem wrC_memBad (r : Nat) (v : Bool) (s : State) : (wrC r v s).memBad = s.memBad := rfl
@[simp] theorem wrC_l1 (r : Nat) (v : Bool) (s : State) : (wrC r v s).l1 = s.l1 := rfl
@[simp] theorem wrC_cspad (r : Nat) (v : Bool) (s : State) : (wrC r v s).cspad = s.cspad := rfl
@[simp] theorem wrC_cspadBad (r : Nat) (v : Bool) (s : State) : (wrC r v s).cspadBad = s.cspadBad := rfl
@[simp] theorem wrC_bankRegs (r : Nat) (v : Bool) (s : State) : (wrC r v s).bankRegs = s.bankRegs := rfl
@[simp] theorem wrC_queues (r : Nat) (v : Bool) (s : State) : (wrC r v s).queues = s.queues := rfl
@[simp] theorem wrC_dataQueues (r : Nat) (v : Bool) (s : State) : (wrC r v s).dataQueues = s.dataQueues := rfl
@[simp] theorem wrC_cores (r : Nat) (v : Bool) (s : State) : (wrC r v s).cores = s.cores := rfl
@[simp] theorem wrC_rings (r : Nat) (v : Bool) (s : State) : (wrC r v s).rings = s.rings := rfl
@[simp] theorem wrC_events (r : Nat) (v : Bool) (s : State) : (wrC r v s).events = s.events := rfl
@[simp] theorem wrC_merges (r : Nat) (v : Bool) (s : State) : (wrC r v s).merges = s.merges := rfl
@[simp] theorem wrC_tlbs (r : Nat) (v : Bool) (s : State) : (wrC r v s).tlbs = s.tlbs := rfl
@[simp] theorem wrC_espalier (r : Nat) (v : Bool) (s : State) : (wrC r v s).espalier = s.espalier := rfl
@[simp] theorem wrC_replicas (r : Nat) (v : Bool) (s : State) : (wrC r v s).replicas = s.replicas := rfl
@[simp] theorem wrC_monitor (r : Nat) (v : Bool) (s : State) : (wrC r v s).monitor = s.monitor := rfl
@[simp] theorem wrC_reduces (r : Nat) (v : Bool) (s : State) : (wrC r v s).reduces = s.reduces := rfl
@[simp] theorem wrC_dev (r : Nat) (v : Bool) (s : State) : (wrC r v s).dev = s.dev := rfl
@[simp] theorem wrC_crew_key (r : Nat) (v : Bool) (s : State) : (wrC r v s).crew.key = s.crew.key := rfl
@[simp] theorem wrC_crew_status (r : Nat) (v : Bool) (s : State) : (wrC r v s).crew.status = s.crew.status := rfl
@[simp] theorem wrC_crew_active (r : Nat) (v : Bool) (s : State) : (wrC r v s).crew.active = s.crew.active := rfl
@[simp] theorem wrC_crew_offered (r : Nat) (v : Bool) (s : State) : (wrC r v s).crew.offered = s.crew.offered := rfl
@[simp] theorem wrC_crew_ln (r : Nat) (v : Bool) (s : State) : (wrC r v s).crew.ln = s.crew.ln := rfl
@[simp] theorem wrC_crew_ops (r : Nat) (v : Bool) (s : State) : (wrC r v s).crew.ops = s.crew.ops := rfl
@[simp] theorem wrC_crew_sieve (r : Nat) (v : Bool) (s : State) : (wrC r v s).crew.sieve = s.crew.sieve := rfl
@[simp] theorem wrC_crew_sieveOrder (r : Nat) (v : Bool) (s : State) :
    (wrC r v s).crew.sieveOrder = s.crew.sieveOrder := rfl
@[simp] theorem wrC_crew_clock (r : Nat) (v : Bool) (s : State) : (wrC r v s).crew.clock = s.crew.clock := rfl
@[simp] theorem wrC_crew_entryCycle (r : Nat) (v : Bool) (s : State) :
    (wrC r v s).crew.entryCycle = s.crew.entryCycle := rfl
@[simp] theorem wrC_crew_wait (r : Nat) (v : Bool) (s : State) : (wrC r v s).crew.wait = s.crew.wait := rfl
@[simp] theorem wrC_crew_park (r : Nat) (v : Bool) (s : State) : (wrC r v s).crew.park = s.crew.park := rfl
@[simp] theorem wrC_crew_handler (r : Nat) (v : Bool) (s : State) : (wrC r v s).crew.handler = s.crew.handler := rfl
@[simp] theorem wrC_crew_ptraps (r : Nat) (v : Bool) (s : State) : (wrC r v s).crew.ptraps = s.crew.ptraps := rfl
@[simp] theorem wrC_crew_region (r : Nat) (v : Bool) (s : State) : (wrC r v s).crew.region = s.crew.region := rfl
@[simp] theorem wrC_crew_barKept (r : Nat) (v : Bool) (s : State) : (wrC r v s).crew.barKept = s.crew.barKept := rfl
@[simp] theorem wrC_crew_graftKept (r : Nat) (v : Bool) (s : State) :
    (wrC r v s).crew.graftKept = s.crew.graftKept := rfl
@[simp] theorem wrC_crew_solve (r : Nat) (v : Bool) (s : State) : (wrC r v s).crew.solve = s.crew.solve := rfl
@[simp] theorem wrC_crew_svStat (r : Nat) (v : Bool) (s : State) : (wrC r v s).crew.svStat = s.crew.svStat := rfl
@[simp] theorem wrC_crew_cmo (r : Nat) (v : Bool) (s : State) : (wrC r v s).crew.cmo = s.crew.cmo := rfl
@[simp] theorem wrC_crew_banks (r : Nat) (v : Bool) (s : State) : (wrC r v s).crew.banks = s.crew.banks := rfl
@[simp] theorem wrC_crew_spilled (r : Nat) (v : Bool) (s : State) : (wrC r v s).crew.spilled = s.crew.spilled := rfl
@[simp] theorem wrC_crew_carried (r : Nat) (v : Bool) (s : State) : (wrC r v s).crew.carried = s.crew.carried := rfl
@[simp] theorem wrC_crew_tiles (r : Nat) (v : Bool) (s : State) : (wrC r v s).crew.tiles = s.crew.tiles := rfl
@[simp] theorem wrC_crew_hadToken (r : Nat) (v : Bool) (s : State) : (wrC r v s).crew.hadToken = s.crew.hadToken := rfl
@[simp] theorem wrC_crew_budgetTrap (r : Nat) (v : Bool) (s : State) :
    (wrC r v s).crew.budgetTrap = s.crew.budgetTrap := rfl
@[simp] theorem wrC_sc_regs (r : Nat) (v : Bool) (s : State) : (wrC r v s).crew.sc.regs = s.crew.sc.regs := rfl
@[simp] theorem wrC_sc_pc (r : Nat) (v : Bool) (s : State) : (wrC r v s).crew.sc.pc = s.crew.sc.pc := rfl
@[simp] theorem wrC_sc_astat (r : Nat) (v : Bool) (s : State) : (wrC r v s).crew.sc.astat = s.crew.sc.astat := rfl
@[simp] theorem wrC_sc_fmte (r : Nat) (v : Bool) (s : State) : (wrC r v s).crew.sc.fmte = s.crew.sc.fmte := rfl
@[simp] theorem wrC_sc_rmdef (r : Nat) (v : Bool) (s : State) : (wrC r v s).crew.sc.rmdef = s.crew.sc.rmdef := rfl
@[simp] theorem wrC_sc_rseed (r : Nat) (v : Bool) (s : State) : (wrC r v s).crew.sc.rseed = s.crew.sc.rseed := rfl
@[simp] theorem wrC_sc_snaps (r : Nat) (v : Bool) (s : State) : (wrC r v s).crew.sc.snaps = s.crew.sc.snaps := rfl
@[simp] theorem wrC_sc_trap (r : Nat) (v : Bool) (s : State) : (wrC r v s).crew.sc.trap = s.crew.sc.trap := rfl
@[simp] theorem wrC_sc_parity (r : Nat) (v : Bool) (s : State) : (wrC r v s).crew.sc.parity = s.crew.sc.parity := rfl

/-! ### addFlags -/

@[simp] theorem addFlags_turns (f : Flags) (s : State) : (addFlags f s).turns = s.turns := rfl
@[simp] theorem addFlags_beat (f : Flags) (s : State) : (addFlags f s).beat = s.beat := rfl
@[simp] theorem addFlags_sweep (f : Flags) (s : State) : (addFlags f s).sweep = s.sweep := rfl
@[simp] theorem addFlags_free (f : Flags) (s : State) : (addFlags f s).free = s.free := rfl
@[simp] theorem addFlags_fine (f : Flags) (s : State) : (addFlags f s).fine = s.fine := rfl
@[simp] theorem addFlags_cycles (f : Flags) (s : State) : (addFlags f s).cycles = s.cycles := rfl
@[simp] theorem addFlags_team (f : Flags) (s : State) : (addFlags f s).team = s.team := rfl
@[simp] theorem addFlags_job (f : Flags) (s : State) : (addFlags f s).job = s.job := rfl
@[simp] theorem addFlags_crews (f : Flags) (s : State) : (addFlags f s).crews = s.crews := rfl
@[simp] theorem addFlags_teams (f : Flags) (s : State) : (addFlags f s).teams = s.teams := rfl
@[simp] theorem addFlags_jobs (f : Flags) (s : State) : (addFlags f s).jobs = s.jobs := rfl
@[simp] theorem addFlags_nextTake (f : Flags) (s : State) : (addFlags f s).nextTake = s.nextTake := rfl
@[simp] theorem addFlags_mem (f : Flags) (s : State) : (addFlags f s).mem = s.mem := rfl
@[simp] theorem addFlags_memBad (f : Flags) (s : State) : (addFlags f s).memBad = s.memBad := rfl
@[simp] theorem addFlags_l1 (f : Flags) (s : State) : (addFlags f s).l1 = s.l1 := rfl
@[simp] theorem addFlags_cspad (f : Flags) (s : State) : (addFlags f s).cspad = s.cspad := rfl
@[simp] theorem addFlags_cspadBad (f : Flags) (s : State) : (addFlags f s).cspadBad = s.cspadBad := rfl
@[simp] theorem addFlags_bankRegs (f : Flags) (s : State) : (addFlags f s).bankRegs = s.bankRegs := rfl
@[simp] theorem addFlags_queues (f : Flags) (s : State) : (addFlags f s).queues = s.queues := rfl
@[simp] theorem addFlags_dataQueues (f : Flags) (s : State) : (addFlags f s).dataQueues = s.dataQueues := rfl
@[simp] theorem addFlags_cores (f : Flags) (s : State) : (addFlags f s).cores = s.cores := rfl
@[simp] theorem addFlags_rings (f : Flags) (s : State) : (addFlags f s).rings = s.rings := rfl
@[simp] theorem addFlags_events (f : Flags) (s : State) : (addFlags f s).events = s.events := rfl
@[simp] theorem addFlags_merges (f : Flags) (s : State) : (addFlags f s).merges = s.merges := rfl
@[simp] theorem addFlags_tlbs (f : Flags) (s : State) : (addFlags f s).tlbs = s.tlbs := rfl
@[simp] theorem addFlags_espalier (f : Flags) (s : State) : (addFlags f s).espalier = s.espalier := rfl
@[simp] theorem addFlags_replicas (f : Flags) (s : State) : (addFlags f s).replicas = s.replicas := rfl
@[simp] theorem addFlags_monitor (f : Flags) (s : State) : (addFlags f s).monitor = s.monitor := rfl
@[simp] theorem addFlags_reduces (f : Flags) (s : State) : (addFlags f s).reduces = s.reduces := rfl
@[simp] theorem addFlags_dev (f : Flags) (s : State) : (addFlags f s).dev = s.dev := rfl
@[simp] theorem addFlags_crew_key (f : Flags) (s : State) : (addFlags f s).crew.key = s.crew.key := rfl
@[simp] theorem addFlags_crew_status (f : Flags) (s : State) : (addFlags f s).crew.status = s.crew.status := rfl
@[simp] theorem addFlags_crew_active (f : Flags) (s : State) : (addFlags f s).crew.active = s.crew.active := rfl
@[simp] theorem addFlags_crew_offered (f : Flags) (s : State) : (addFlags f s).crew.offered = s.crew.offered := rfl
@[simp] theorem addFlags_crew_ln (f : Flags) (s : State) : (addFlags f s).crew.ln = s.crew.ln := rfl
@[simp] theorem addFlags_crew_ops (f : Flags) (s : State) : (addFlags f s).crew.ops = s.crew.ops := rfl
@[simp] theorem addFlags_crew_sieve (f : Flags) (s : State) : (addFlags f s).crew.sieve = s.crew.sieve := rfl
@[simp] theorem addFlags_crew_sieveOrder (f : Flags) (s : State) :
    (addFlags f s).crew.sieveOrder = s.crew.sieveOrder := rfl
@[simp] theorem addFlags_crew_clock (f : Flags) (s : State) : (addFlags f s).crew.clock = s.crew.clock := rfl
@[simp] theorem addFlags_crew_entryCycle (f : Flags) (s : State) :
    (addFlags f s).crew.entryCycle = s.crew.entryCycle := rfl
@[simp] theorem addFlags_crew_wait (f : Flags) (s : State) : (addFlags f s).crew.wait = s.crew.wait := rfl
@[simp] theorem addFlags_crew_park (f : Flags) (s : State) : (addFlags f s).crew.park = s.crew.park := rfl
@[simp] theorem addFlags_crew_handler (f : Flags) (s : State) : (addFlags f s).crew.handler = s.crew.handler := rfl
@[simp] theorem addFlags_crew_ptraps (f : Flags) (s : State) : (addFlags f s).crew.ptraps = s.crew.ptraps := rfl
@[simp] theorem addFlags_crew_region (f : Flags) (s : State) : (addFlags f s).crew.region = s.crew.region := rfl
@[simp] theorem addFlags_crew_barKept (f : Flags) (s : State) : (addFlags f s).crew.barKept = s.crew.barKept := rfl
@[simp] theorem addFlags_crew_graftKept (f : Flags) (s : State) :
    (addFlags f s).crew.graftKept = s.crew.graftKept := rfl
@[simp] theorem addFlags_crew_solve (f : Flags) (s : State) : (addFlags f s).crew.solve = s.crew.solve := rfl
@[simp] theorem addFlags_crew_svStat (f : Flags) (s : State) : (addFlags f s).crew.svStat = s.crew.svStat := rfl
@[simp] theorem addFlags_crew_cmo (f : Flags) (s : State) : (addFlags f s).crew.cmo = s.crew.cmo := rfl
@[simp] theorem addFlags_crew_banks (f : Flags) (s : State) : (addFlags f s).crew.banks = s.crew.banks := rfl
@[simp] theorem addFlags_crew_spilled (f : Flags) (s : State) : (addFlags f s).crew.spilled = s.crew.spilled := rfl
@[simp] theorem addFlags_crew_carried (f : Flags) (s : State) : (addFlags f s).crew.carried = s.crew.carried := rfl
@[simp] theorem addFlags_crew_tiles (f : Flags) (s : State) : (addFlags f s).crew.tiles = s.crew.tiles := rfl
@[simp] theorem addFlags_crew_hadToken (f : Flags) (s : State) : (addFlags f s).crew.hadToken = s.crew.hadToken := rfl
@[simp] theorem addFlags_crew_budgetTrap (f : Flags) (s : State) :
    (addFlags f s).crew.budgetTrap = s.crew.budgetTrap := rfl
@[simp] theorem addFlags_sc_regs (f : Flags) (s : State) : (addFlags f s).crew.sc.regs = s.crew.sc.regs := rfl
@[simp] theorem addFlags_sc_preds (f : Flags) (s : State) : (addFlags f s).crew.sc.preds = s.crew.sc.preds := rfl
@[simp] theorem addFlags_sc_pc (f : Flags) (s : State) : (addFlags f s).crew.sc.pc = s.crew.sc.pc := rfl
@[simp] theorem addFlags_sc_fmte (f : Flags) (s : State) : (addFlags f s).crew.sc.fmte = s.crew.sc.fmte := rfl
@[simp] theorem addFlags_sc_rmdef (f : Flags) (s : State) : (addFlags f s).crew.sc.rmdef = s.crew.sc.rmdef := rfl
@[simp] theorem addFlags_sc_rseed (f : Flags) (s : State) : (addFlags f s).crew.sc.rseed = s.crew.sc.rseed := rfl
@[simp] theorem addFlags_sc_snaps (f : Flags) (s : State) : (addFlags f s).crew.sc.snaps = s.crew.sc.snaps := rfl
@[simp] theorem addFlags_sc_trap (f : Flags) (s : State) : (addFlags f s).crew.sc.trap = s.crew.sc.trap := rfl
@[simp] theorem addFlags_sc_parity (f : Flags) (s : State) : (addFlags f s).crew.sc.parity = s.crew.sc.parity := rfl

/-! ### setPc -/

@[simp] theorem setPc_turns (pc : W64) (s : State) : (setPc pc s).turns = s.turns := rfl
@[simp] theorem setPc_beat (pc : W64) (s : State) : (setPc pc s).beat = s.beat := rfl
@[simp] theorem setPc_sweep (pc : W64) (s : State) : (setPc pc s).sweep = s.sweep := rfl
@[simp] theorem setPc_free (pc : W64) (s : State) : (setPc pc s).free = s.free := rfl
@[simp] theorem setPc_fine (pc : W64) (s : State) : (setPc pc s).fine = s.fine := rfl
@[simp] theorem setPc_cycles (pc : W64) (s : State) : (setPc pc s).cycles = s.cycles := rfl
@[simp] theorem setPc_team (pc : W64) (s : State) : (setPc pc s).team = s.team := rfl
@[simp] theorem setPc_job (pc : W64) (s : State) : (setPc pc s).job = s.job := rfl
@[simp] theorem setPc_crews (pc : W64) (s : State) : (setPc pc s).crews = s.crews := rfl
@[simp] theorem setPc_teams (pc : W64) (s : State) : (setPc pc s).teams = s.teams := rfl
@[simp] theorem setPc_jobs (pc : W64) (s : State) : (setPc pc s).jobs = s.jobs := rfl
@[simp] theorem setPc_nextTake (pc : W64) (s : State) : (setPc pc s).nextTake = s.nextTake := rfl
@[simp] theorem setPc_mem (pc : W64) (s : State) : (setPc pc s).mem = s.mem := rfl
@[simp] theorem setPc_memBad (pc : W64) (s : State) : (setPc pc s).memBad = s.memBad := rfl
@[simp] theorem setPc_l1 (pc : W64) (s : State) : (setPc pc s).l1 = s.l1 := rfl
@[simp] theorem setPc_cspad (pc : W64) (s : State) : (setPc pc s).cspad = s.cspad := rfl
@[simp] theorem setPc_cspadBad (pc : W64) (s : State) : (setPc pc s).cspadBad = s.cspadBad := rfl
@[simp] theorem setPc_bankRegs (pc : W64) (s : State) : (setPc pc s).bankRegs = s.bankRegs := rfl
@[simp] theorem setPc_queues (pc : W64) (s : State) : (setPc pc s).queues = s.queues := rfl
@[simp] theorem setPc_dataQueues (pc : W64) (s : State) : (setPc pc s).dataQueues = s.dataQueues := rfl
@[simp] theorem setPc_cores (pc : W64) (s : State) : (setPc pc s).cores = s.cores := rfl
@[simp] theorem setPc_rings (pc : W64) (s : State) : (setPc pc s).rings = s.rings := rfl
@[simp] theorem setPc_events (pc : W64) (s : State) : (setPc pc s).events = s.events := rfl
@[simp] theorem setPc_merges (pc : W64) (s : State) : (setPc pc s).merges = s.merges := rfl
@[simp] theorem setPc_tlbs (pc : W64) (s : State) : (setPc pc s).tlbs = s.tlbs := rfl
@[simp] theorem setPc_espalier (pc : W64) (s : State) : (setPc pc s).espalier = s.espalier := rfl
@[simp] theorem setPc_replicas (pc : W64) (s : State) : (setPc pc s).replicas = s.replicas := rfl
@[simp] theorem setPc_monitor (pc : W64) (s : State) : (setPc pc s).monitor = s.monitor := rfl
@[simp] theorem setPc_reduces (pc : W64) (s : State) : (setPc pc s).reduces = s.reduces := rfl
@[simp] theorem setPc_dev (pc : W64) (s : State) : (setPc pc s).dev = s.dev := rfl
@[simp] theorem setPc_crew_key (pc : W64) (s : State) : (setPc pc s).crew.key = s.crew.key := rfl
@[simp] theorem setPc_crew_status (pc : W64) (s : State) : (setPc pc s).crew.status = s.crew.status := rfl
@[simp] theorem setPc_crew_active (pc : W64) (s : State) : (setPc pc s).crew.active = s.crew.active := rfl
@[simp] theorem setPc_crew_offered (pc : W64) (s : State) : (setPc pc s).crew.offered = s.crew.offered := rfl
@[simp] theorem setPc_crew_ln (pc : W64) (s : State) : (setPc pc s).crew.ln = s.crew.ln := rfl
@[simp] theorem setPc_crew_ops (pc : W64) (s : State) : (setPc pc s).crew.ops = s.crew.ops := rfl
@[simp] theorem setPc_crew_sieve (pc : W64) (s : State) : (setPc pc s).crew.sieve = s.crew.sieve := rfl
@[simp] theorem setPc_crew_sieveOrder (pc : W64) (s : State) : (setPc pc s).crew.sieveOrder = s.crew.sieveOrder := rfl
@[simp] theorem setPc_crew_clock (pc : W64) (s : State) : (setPc pc s).crew.clock = s.crew.clock := rfl
@[simp] theorem setPc_crew_entryCycle (pc : W64) (s : State) : (setPc pc s).crew.entryCycle = s.crew.entryCycle := rfl
@[simp] theorem setPc_crew_wait (pc : W64) (s : State) : (setPc pc s).crew.wait = s.crew.wait := rfl
@[simp] theorem setPc_crew_park (pc : W64) (s : State) : (setPc pc s).crew.park = s.crew.park := rfl
@[simp] theorem setPc_crew_handler (pc : W64) (s : State) : (setPc pc s).crew.handler = s.crew.handler := rfl
@[simp] theorem setPc_crew_ptraps (pc : W64) (s : State) : (setPc pc s).crew.ptraps = s.crew.ptraps := rfl
@[simp] theorem setPc_crew_region (pc : W64) (s : State) : (setPc pc s).crew.region = s.crew.region := rfl
@[simp] theorem setPc_crew_barKept (pc : W64) (s : State) : (setPc pc s).crew.barKept = s.crew.barKept := rfl
@[simp] theorem setPc_crew_graftKept (pc : W64) (s : State) : (setPc pc s).crew.graftKept = s.crew.graftKept := rfl
@[simp] theorem setPc_crew_solve (pc : W64) (s : State) : (setPc pc s).crew.solve = s.crew.solve := rfl
@[simp] theorem setPc_crew_svStat (pc : W64) (s : State) : (setPc pc s).crew.svStat = s.crew.svStat := rfl
@[simp] theorem setPc_crew_cmo (pc : W64) (s : State) : (setPc pc s).crew.cmo = s.crew.cmo := rfl
@[simp] theorem setPc_crew_banks (pc : W64) (s : State) : (setPc pc s).crew.banks = s.crew.banks := rfl
@[simp] theorem setPc_crew_spilled (pc : W64) (s : State) : (setPc pc s).crew.spilled = s.crew.spilled := rfl
@[simp] theorem setPc_crew_carried (pc : W64) (s : State) : (setPc pc s).crew.carried = s.crew.carried := rfl
@[simp] theorem setPc_crew_tiles (pc : W64) (s : State) : (setPc pc s).crew.tiles = s.crew.tiles := rfl
@[simp] theorem setPc_crew_hadToken (pc : W64) (s : State) : (setPc pc s).crew.hadToken = s.crew.hadToken := rfl
@[simp] theorem setPc_crew_budgetTrap (pc : W64) (s : State) : (setPc pc s).crew.budgetTrap = s.crew.budgetTrap := rfl
@[simp] theorem setPc_sc_regs (pc : W64) (s : State) : (setPc pc s).crew.sc.regs = s.crew.sc.regs := rfl
@[simp] theorem setPc_sc_preds (pc : W64) (s : State) : (setPc pc s).crew.sc.preds = s.crew.sc.preds := rfl
@[simp] theorem setPc_sc_astat (pc : W64) (s : State) : (setPc pc s).crew.sc.astat = s.crew.sc.astat := rfl
@[simp] theorem setPc_sc_fmte (pc : W64) (s : State) : (setPc pc s).crew.sc.fmte = s.crew.sc.fmte := rfl
@[simp] theorem setPc_sc_rmdef (pc : W64) (s : State) : (setPc pc s).crew.sc.rmdef = s.crew.sc.rmdef := rfl
@[simp] theorem setPc_sc_rseed (pc : W64) (s : State) : (setPc pc s).crew.sc.rseed = s.crew.sc.rseed := rfl
@[simp] theorem setPc_sc_snaps (pc : W64) (s : State) : (setPc pc s).crew.sc.snaps = s.crew.sc.snaps := rfl
@[simp] theorem setPc_sc_trap (pc : W64) (s : State) : (setPc pc s).crew.sc.trap = s.crew.sc.trap := rfl
@[simp] theorem setPc_sc_parity (pc : W64) (s : State) : (setPc pc s).crew.sc.parity = s.crew.sc.parity := rfl
@[simp] theorem addFlags_sc_astat (f : Flags) (s : State) : (addFlags f s).crew.sc.astat = s.crew.sc.astat ||| f := rfl
@[simp] theorem setPc_sc_pc (pc : W64) (s : State) : (setPc pc s).crew.sc.pc = pc := rfl

/-! ### dropLatches, dropOps -/

@[simp] theorem dropLatches_turns (s : State) : (dropLatches s).turns = s.turns := rfl
@[simp] theorem dropLatches_beat (s : State) : (dropLatches s).beat = s.beat := rfl
@[simp] theorem dropLatches_sweep (s : State) : (dropLatches s).sweep = s.sweep := rfl
@[simp] theorem dropLatches_free (s : State) : (dropLatches s).free = s.free := rfl
@[simp] theorem dropLatches_fine (s : State) : (dropLatches s).fine = s.fine := rfl
@[simp] theorem dropLatches_cycles (s : State) : (dropLatches s).cycles = s.cycles := rfl
@[simp] theorem dropLatches_team (s : State) : (dropLatches s).team = s.team := rfl
@[simp] theorem dropLatches_job (s : State) : (dropLatches s).job = s.job := rfl
@[simp] theorem dropLatches_crews (s : State) : (dropLatches s).crews = s.crews := rfl
@[simp] theorem dropLatches_teams (s : State) : (dropLatches s).teams = s.teams := rfl
@[simp] theorem dropLatches_jobs (s : State) : (dropLatches s).jobs = s.jobs := rfl
@[simp] theorem dropLatches_nextTake (s : State) : (dropLatches s).nextTake = s.nextTake := rfl
@[simp] theorem dropLatches_mem (s : State) : (dropLatches s).mem = s.mem := rfl
@[simp] theorem dropLatches_memBad (s : State) : (dropLatches s).memBad = s.memBad := rfl
@[simp] theorem dropLatches_l1 (s : State) : (dropLatches s).l1 = s.l1 := rfl
@[simp] theorem dropLatches_cspad (s : State) : (dropLatches s).cspad = s.cspad := rfl
@[simp] theorem dropLatches_cspadBad (s : State) : (dropLatches s).cspadBad = s.cspadBad := rfl
@[simp] theorem dropLatches_bankRegs (s : State) : (dropLatches s).bankRegs = s.bankRegs := rfl
@[simp] theorem dropLatches_queues (s : State) : (dropLatches s).queues = s.queues := rfl
@[simp] theorem dropLatches_dataQueues (s : State) : (dropLatches s).dataQueues = s.dataQueues := rfl
@[simp] theorem dropLatches_cores (s : State) : (dropLatches s).cores = s.cores := rfl
@[simp] theorem dropLatches_rings (s : State) : (dropLatches s).rings = s.rings := rfl
@[simp] theorem dropLatches_events (s : State) : (dropLatches s).events = s.events := rfl
@[simp] theorem dropLatches_merges (s : State) : (dropLatches s).merges = s.merges := rfl
@[simp] theorem dropLatches_tlbs (s : State) : (dropLatches s).tlbs = s.tlbs := rfl
@[simp] theorem dropLatches_espalier (s : State) : (dropLatches s).espalier = s.espalier := rfl
@[simp] theorem dropLatches_replicas (s : State) : (dropLatches s).replicas = s.replicas := rfl
@[simp] theorem dropLatches_monitor (s : State) : (dropLatches s).monitor = s.monitor := rfl
@[simp] theorem dropLatches_reduces (s : State) : (dropLatches s).reduces = s.reduces := rfl
@[simp] theorem dropLatches_dev (s : State) : (dropLatches s).dev = s.dev := rfl
@[simp] theorem dropLatches_crew_key (s : State) : (dropLatches s).crew.key = s.crew.key := rfl
@[simp] theorem dropLatches_crew_status (s : State) : (dropLatches s).crew.status = s.crew.status := rfl
@[simp] theorem dropLatches_crew_active (s : State) : (dropLatches s).crew.active = s.crew.active := rfl
@[simp] theorem dropLatches_crew_offered (s : State) : (dropLatches s).crew.offered = s.crew.offered := rfl
@[simp] theorem dropLatches_crew_sc (s : State) : (dropLatches s).crew.sc = s.crew.sc := rfl
@[simp] theorem dropLatches_crew_ops (s : State) : (dropLatches s).crew.ops = s.crew.ops := rfl
@[simp] theorem dropLatches_crew_sieve (s : State) : (dropLatches s).crew.sieve = s.crew.sieve := rfl
@[simp] theorem dropLatches_crew_sieveOrder (s : State) : (dropLatches s).crew.sieveOrder = s.crew.sieveOrder := rfl
@[simp] theorem dropLatches_crew_clock (s : State) : (dropLatches s).crew.clock = s.crew.clock := rfl
@[simp] theorem dropLatches_crew_entryCycle (s : State) : (dropLatches s).crew.entryCycle = s.crew.entryCycle := rfl
@[simp] theorem dropLatches_crew_wait (s : State) : (dropLatches s).crew.wait = s.crew.wait := rfl
@[simp] theorem dropLatches_crew_park (s : State) : (dropLatches s).crew.park = s.crew.park := rfl
@[simp] theorem dropLatches_crew_handler (s : State) : (dropLatches s).crew.handler = s.crew.handler := rfl
@[simp] theorem dropLatches_crew_ptraps (s : State) : (dropLatches s).crew.ptraps = s.crew.ptraps := rfl
@[simp] theorem dropLatches_crew_region (s : State) : (dropLatches s).crew.region = s.crew.region := rfl
@[simp] theorem dropLatches_crew_barKept (s : State) : (dropLatches s).crew.barKept = s.crew.barKept := rfl
@[simp] theorem dropLatches_crew_graftKept (s : State) : (dropLatches s).crew.graftKept = s.crew.graftKept := rfl
@[simp] theorem dropLatches_crew_solve (s : State) : (dropLatches s).crew.solve = s.crew.solve := rfl
@[simp] theorem dropLatches_crew_svStat (s : State) : (dropLatches s).crew.svStat = s.crew.svStat := rfl
@[simp] theorem dropLatches_crew_cmo (s : State) : (dropLatches s).crew.cmo = s.crew.cmo := rfl
@[simp] theorem dropLatches_crew_banks (s : State) : (dropLatches s).crew.banks = s.crew.banks := rfl
@[simp] theorem dropLatches_crew_spilled (s : State) : (dropLatches s).crew.spilled = s.crew.spilled := rfl
@[simp] theorem dropLatches_crew_carried (s : State) : (dropLatches s).crew.carried = s.crew.carried := rfl
@[simp] theorem dropLatches_crew_tiles (s : State) : (dropLatches s).crew.tiles = s.crew.tiles := rfl
@[simp] theorem dropLatches_crew_hadToken (s : State) : (dropLatches s).crew.hadToken = s.crew.hadToken := rfl
@[simp] theorem dropLatches_crew_budgetTrap (s : State) : (dropLatches s).crew.budgetTrap = s.crew.budgetTrap := rfl
@[simp] theorem dropOps_turns (p : Op → Bool) (s : State) : (dropOps p s).turns = s.turns := rfl
@[simp] theorem dropOps_beat (p : Op → Bool) (s : State) : (dropOps p s).beat = s.beat := rfl
@[simp] theorem dropOps_sweep (p : Op → Bool) (s : State) : (dropOps p s).sweep = s.sweep := rfl
@[simp] theorem dropOps_free (p : Op → Bool) (s : State) : (dropOps p s).free = s.free := rfl
@[simp] theorem dropOps_fine (p : Op → Bool) (s : State) : (dropOps p s).fine = s.fine := rfl
@[simp] theorem dropOps_cycles (p : Op → Bool) (s : State) : (dropOps p s).cycles = s.cycles := rfl
@[simp] theorem dropOps_team (p : Op → Bool) (s : State) : (dropOps p s).team = s.team := rfl
@[simp] theorem dropOps_job (p : Op → Bool) (s : State) : (dropOps p s).job = s.job := rfl
@[simp] theorem dropOps_crews (p : Op → Bool) (s : State) : (dropOps p s).crews = s.crews := rfl
@[simp] theorem dropOps_teams (p : Op → Bool) (s : State) : (dropOps p s).teams = s.teams := rfl
@[simp] theorem dropOps_jobs (p : Op → Bool) (s : State) : (dropOps p s).jobs = s.jobs := rfl
@[simp] theorem dropOps_nextTake (p : Op → Bool) (s : State) : (dropOps p s).nextTake = s.nextTake := rfl
@[simp] theorem dropOps_mem (p : Op → Bool) (s : State) : (dropOps p s).mem = s.mem := rfl
@[simp] theorem dropOps_memBad (p : Op → Bool) (s : State) : (dropOps p s).memBad = s.memBad := rfl
@[simp] theorem dropOps_l1 (p : Op → Bool) (s : State) : (dropOps p s).l1 = s.l1 := rfl
@[simp] theorem dropOps_cspad (p : Op → Bool) (s : State) : (dropOps p s).cspad = s.cspad := rfl
@[simp] theorem dropOps_cspadBad (p : Op → Bool) (s : State) : (dropOps p s).cspadBad = s.cspadBad := rfl
@[simp] theorem dropOps_bankRegs (p : Op → Bool) (s : State) : (dropOps p s).bankRegs = s.bankRegs := rfl
@[simp] theorem dropOps_queues (p : Op → Bool) (s : State) : (dropOps p s).queues = s.queues := rfl
@[simp] theorem dropOps_dataQueues (p : Op → Bool) (s : State) : (dropOps p s).dataQueues = s.dataQueues := rfl
@[simp] theorem dropOps_cores (p : Op → Bool) (s : State) : (dropOps p s).cores = s.cores := rfl
@[simp] theorem dropOps_rings (p : Op → Bool) (s : State) : (dropOps p s).rings = s.rings := rfl
@[simp] theorem dropOps_events (p : Op → Bool) (s : State) : (dropOps p s).events = s.events := rfl
@[simp] theorem dropOps_merges (p : Op → Bool) (s : State) : (dropOps p s).merges = s.merges := rfl
@[simp] theorem dropOps_tlbs (p : Op → Bool) (s : State) : (dropOps p s).tlbs = s.tlbs := rfl
@[simp] theorem dropOps_espalier (p : Op → Bool) (s : State) : (dropOps p s).espalier = s.espalier := rfl
@[simp] theorem dropOps_replicas (p : Op → Bool) (s : State) : (dropOps p s).replicas = s.replicas := rfl
@[simp] theorem dropOps_monitor (p : Op → Bool) (s : State) : (dropOps p s).monitor = s.monitor := rfl
@[simp] theorem dropOps_reduces (p : Op → Bool) (s : State) : (dropOps p s).reduces = s.reduces := rfl
@[simp] theorem dropOps_dev (p : Op → Bool) (s : State) : (dropOps p s).dev = s.dev := rfl
@[simp] theorem dropOps_crew_key (p : Op → Bool) (s : State) : (dropOps p s).crew.key = s.crew.key := rfl
@[simp] theorem dropOps_crew_status (p : Op → Bool) (s : State) : (dropOps p s).crew.status = s.crew.status := rfl
@[simp] theorem dropOps_crew_active (p : Op → Bool) (s : State) : (dropOps p s).crew.active = s.crew.active := rfl
@[simp] theorem dropOps_crew_offered (p : Op → Bool) (s : State) : (dropOps p s).crew.offered = s.crew.offered := rfl
@[simp] theorem dropOps_crew_sc (p : Op → Bool) (s : State) : (dropOps p s).crew.sc = s.crew.sc := rfl
@[simp] theorem dropOps_crew_ln (p : Op → Bool) (s : State) : (dropOps p s).crew.ln = s.crew.ln := rfl
@[simp] theorem dropOps_crew_sieve (p : Op → Bool) (s : State) : (dropOps p s).crew.sieve = s.crew.sieve := rfl
@[simp] theorem dropOps_crew_sieveOrder (p : Op → Bool) (s : State) :
    (dropOps p s).crew.sieveOrder = s.crew.sieveOrder := rfl
@[simp] theorem dropOps_crew_clock (p : Op → Bool) (s : State) : (dropOps p s).crew.clock = s.crew.clock := rfl
@[simp] theorem dropOps_crew_entryCycle (p : Op → Bool) (s : State) :
    (dropOps p s).crew.entryCycle = s.crew.entryCycle := rfl
@[simp] theorem dropOps_crew_wait (p : Op → Bool) (s : State) : (dropOps p s).crew.wait = s.crew.wait := rfl
@[simp] theorem dropOps_crew_park (p : Op → Bool) (s : State) : (dropOps p s).crew.park = s.crew.park := rfl
@[simp] theorem dropOps_crew_handler (p : Op → Bool) (s : State) : (dropOps p s).crew.handler = s.crew.handler := rfl
@[simp] theorem dropOps_crew_ptraps (p : Op → Bool) (s : State) : (dropOps p s).crew.ptraps = s.crew.ptraps := rfl
@[simp] theorem dropOps_crew_region (p : Op → Bool) (s : State) : (dropOps p s).crew.region = s.crew.region := rfl
@[simp] theorem dropOps_crew_barKept (p : Op → Bool) (s : State) : (dropOps p s).crew.barKept = s.crew.barKept := rfl
@[simp] theorem dropOps_crew_graftKept (p : Op → Bool) (s : State) :
    (dropOps p s).crew.graftKept = s.crew.graftKept := rfl
@[simp] theorem dropOps_crew_solve (p : Op → Bool) (s : State) : (dropOps p s).crew.solve = s.crew.solve := rfl
@[simp] theorem dropOps_crew_svStat (p : Op → Bool) (s : State) : (dropOps p s).crew.svStat = s.crew.svStat := rfl
@[simp] theorem dropOps_crew_cmo (p : Op → Bool) (s : State) : (dropOps p s).crew.cmo = s.crew.cmo := rfl
@[simp] theorem dropOps_crew_banks (p : Op → Bool) (s : State) : (dropOps p s).crew.banks = s.crew.banks := rfl
@[simp] theorem dropOps_crew_spilled (p : Op → Bool) (s : State) : (dropOps p s).crew.spilled = s.crew.spilled := rfl
@[simp] theorem dropOps_crew_carried (p : Op → Bool) (s : State) : (dropOps p s).crew.carried = s.crew.carried := rfl
@[simp] theorem dropOps_crew_tiles (p : Op → Bool) (s : State) : (dropOps p s).crew.tiles = s.crew.tiles := rfl
@[simp] theorem dropOps_crew_hadToken (p : Op → Bool) (s : State) : (dropOps p s).crew.hadToken = s.crew.hadToken := rfl
@[simp] theorem dropOps_crew_budgetTrap (p : Op → Bool) (s : State) :
    (dropOps p s).crew.budgetTrap = s.crew.budgetTrap := rfl
@[simp] theorem dropLatches_latches (s : State) : (dropLatches s).crew.ln.regs.latches = [] := rfl

/-! ### charge, retire, finish -/

@[simp] theorem charge_turns (n : Nat) (s : State) : (charge n s).turns = s.turns := by
  unfold charge; split <;> rfl
@[simp] theorem charge_beat (n : Nat) (s : State) : (charge n s).beat = s.beat := by
  unfold charge; split <;> rfl
@[simp] theorem charge_sweep (n : Nat) (s : State) : (charge n s).sweep = s.sweep := by
  unfold charge; split <;> rfl
@[simp] theorem charge_free (n : Nat) (s : State) : (charge n s).free = s.free := by
  unfold charge; split <;> rfl
@[simp] theorem charge_fine (n : Nat) (s : State) : (charge n s).fine = s.fine := by
  unfold charge; split <;> rfl
@[simp] theorem charge_cycles (n : Nat) (s : State) : (charge n s).cycles = s.cycles := by
  unfold charge; split <;> rfl
@[simp] theorem charge_team (n : Nat) (s : State) : (charge n s).team = s.team := by
  unfold charge; split <;> rfl
@[simp] theorem charge_crews (n : Nat) (s : State) : (charge n s).crews = s.crews := by
  unfold charge; split <;> rfl
@[simp] theorem charge_teams (n : Nat) (s : State) : (charge n s).teams = s.teams := by
  unfold charge; split <;> rfl
@[simp] theorem charge_nextTake (n : Nat) (s : State) : (charge n s).nextTake = s.nextTake := by
  unfold charge; split <;> rfl
@[simp] theorem charge_mem (n : Nat) (s : State) : (charge n s).mem = s.mem := by
  unfold charge; split <;> rfl
@[simp] theorem charge_memBad (n : Nat) (s : State) : (charge n s).memBad = s.memBad := by
  unfold charge; split <;> rfl
@[simp] theorem charge_l1 (n : Nat) (s : State) : (charge n s).l1 = s.l1 := by
  unfold charge; split <;> rfl
@[simp] theorem charge_cspad (n : Nat) (s : State) : (charge n s).cspad = s.cspad := by
  unfold charge; split <;> rfl
@[simp] theorem charge_cspadBad (n : Nat) (s : State) : (charge n s).cspadBad = s.cspadBad := by
  unfold charge; split <;> rfl
@[simp] theorem charge_bankRegs (n : Nat) (s : State) : (charge n s).bankRegs = s.bankRegs := by
  unfold charge; split <;> rfl
@[simp] theorem charge_queues (n : Nat) (s : State) : (charge n s).queues = s.queues := by
  unfold charge; split <;> rfl
@[simp] theorem charge_dataQueues (n : Nat) (s : State) : (charge n s).dataQueues = s.dataQueues := by
  unfold charge; split <;> rfl
@[simp] theorem charge_cores (n : Nat) (s : State) : (charge n s).cores = s.cores := by
  unfold charge; split <;> rfl
@[simp] theorem charge_rings (n : Nat) (s : State) : (charge n s).rings = s.rings := by
  unfold charge; split <;> rfl
@[simp] theorem charge_events (n : Nat) (s : State) : (charge n s).events = s.events := by
  unfold charge; split <;> rfl
@[simp] theorem charge_merges (n : Nat) (s : State) : (charge n s).merges = s.merges := by
  unfold charge; split <;> rfl
@[simp] theorem charge_tlbs (n : Nat) (s : State) : (charge n s).tlbs = s.tlbs := by
  unfold charge; split <;> rfl
@[simp] theorem charge_espalier (n : Nat) (s : State) : (charge n s).espalier = s.espalier := by
  unfold charge; split <;> rfl
@[simp] theorem charge_replicas (n : Nat) (s : State) : (charge n s).replicas = s.replicas := by
  unfold charge; split <;> rfl
@[simp] theorem charge_monitor (n : Nat) (s : State) : (charge n s).monitor = s.monitor := by
  unfold charge; split <;> rfl
@[simp] theorem charge_reduces (n : Nat) (s : State) : (charge n s).reduces = s.reduces := by
  unfold charge; split <;> rfl
@[simp] theorem charge_dev (n : Nat) (s : State) : (charge n s).dev = s.dev := by
  unfold charge; split <;> rfl
@[simp] theorem charge_crew_key (n : Nat) (s : State) : (charge n s).crew.key = s.crew.key := by
  unfold charge; split <;> rfl
@[simp] theorem charge_crew_status (n : Nat) (s : State) : (charge n s).crew.status = s.crew.status := by
  unfold charge; split <;> rfl
@[simp] theorem charge_crew_active (n : Nat) (s : State) : (charge n s).crew.active = s.crew.active := by
  unfold charge; split <;> rfl
@[simp] theorem charge_crew_offered (n : Nat) (s : State) : (charge n s).crew.offered = s.crew.offered := by
  unfold charge; split <;> rfl
@[simp] theorem charge_crew_sc (n : Nat) (s : State) : (charge n s).crew.sc = s.crew.sc := by
  unfold charge; split <;> rfl
@[simp] theorem charge_crew_ln (n : Nat) (s : State) : (charge n s).crew.ln = s.crew.ln := by
  unfold charge; split <;> rfl
@[simp] theorem charge_crew_ops (n : Nat) (s : State) : (charge n s).crew.ops = s.crew.ops := by
  unfold charge; split <;> rfl
@[simp] theorem charge_crew_sieve (n : Nat) (s : State) : (charge n s).crew.sieve = s.crew.sieve := by
  unfold charge; split <;> rfl
@[simp] theorem charge_crew_sieveOrder (n : Nat) (s : State) : (charge n s).crew.sieveOrder = s.crew.sieveOrder := by
  unfold charge; split <;> rfl
@[simp] theorem charge_crew_clock (n : Nat) (s : State) : (charge n s).crew.clock = s.crew.clock := by
  unfold charge; split <;> rfl
@[simp] theorem charge_crew_entryCycle (n : Nat) (s : State) : (charge n s).crew.entryCycle = s.crew.entryCycle := by
  unfold charge; split <;> rfl
@[simp] theorem charge_crew_wait (n : Nat) (s : State) : (charge n s).crew.wait = s.crew.wait := by
  unfold charge; split <;> rfl
@[simp] theorem charge_crew_park (n : Nat) (s : State) : (charge n s).crew.park = s.crew.park := by
  unfold charge; split <;> rfl
@[simp] theorem charge_crew_handler (n : Nat) (s : State) : (charge n s).crew.handler = s.crew.handler := by
  unfold charge; split <;> rfl
@[simp] theorem charge_crew_ptraps (n : Nat) (s : State) : (charge n s).crew.ptraps = s.crew.ptraps := by
  unfold charge; split <;> rfl
@[simp] theorem charge_crew_barKept (n : Nat) (s : State) : (charge n s).crew.barKept = s.crew.barKept := by
  unfold charge; split <;> rfl
@[simp] theorem charge_crew_graftKept (n : Nat) (s : State) : (charge n s).crew.graftKept = s.crew.graftKept := by
  unfold charge; split <;> rfl
@[simp] theorem charge_crew_solve (n : Nat) (s : State) : (charge n s).crew.solve = s.crew.solve := by
  unfold charge; split <;> rfl
@[simp] theorem charge_crew_svStat (n : Nat) (s : State) : (charge n s).crew.svStat = s.crew.svStat := by
  unfold charge; split <;> rfl
@[simp] theorem charge_crew_cmo (n : Nat) (s : State) : (charge n s).crew.cmo = s.crew.cmo := by
  unfold charge; split <;> rfl
@[simp] theorem charge_crew_banks (n : Nat) (s : State) : (charge n s).crew.banks = s.crew.banks := by
  unfold charge; split <;> rfl
@[simp] theorem charge_crew_spilled (n : Nat) (s : State) : (charge n s).crew.spilled = s.crew.spilled := by
  unfold charge; split <;> rfl
@[simp] theorem charge_crew_carried (n : Nat) (s : State) : (charge n s).crew.carried = s.crew.carried := by
  unfold charge; split <;> rfl
@[simp] theorem charge_crew_tiles (n : Nat) (s : State) : (charge n s).crew.tiles = s.crew.tiles := by
  unfold charge; split <;> rfl
@[simp] theorem charge_crew_hadToken (n : Nat) (s : State) : (charge n s).crew.hadToken = s.crew.hadToken := by
  unfold charge; split <;> rfl
@[simp] theorem charge_crew_budgetTrap (n : Nat) (s : State) : (charge n s).crew.budgetTrap = s.crew.budgetTrap := by
  unfold charge; split <;> rfl
@[simp] theorem retire_turns (s : State) : (retire s).turns = s.turns := by
  simp [retire]
@[simp] theorem retire_beat (s : State) : (retire s).beat = s.beat := by
  simp [retire]
@[simp] theorem retire_sweep (s : State) : (retire s).sweep = s.sweep := by
  simp [retire]
@[simp] theorem retire_free (s : State) : (retire s).free = s.free := by
  simp [retire]
@[simp] theorem retire_fine (s : State) : (retire s).fine = s.fine := by
  simp [retire]
@[simp] theorem retire_cycles (s : State) : (retire s).cycles = s.cycles := by
  simp [retire]
@[simp] theorem retire_team (s : State) : (retire s).team = s.team := by
  simp [retire]
@[simp] theorem retire_crews (s : State) : (retire s).crews = s.crews := by
  simp [retire]
@[simp] theorem retire_teams (s : State) : (retire s).teams = s.teams := by
  simp [retire]
@[simp] theorem retire_nextTake (s : State) : (retire s).nextTake = s.nextTake := by
  simp [retire]
@[simp] theorem retire_mem (s : State) : (retire s).mem = s.mem := by
  simp [retire]
@[simp] theorem retire_memBad (s : State) : (retire s).memBad = s.memBad := by
  simp [retire]
@[simp] theorem retire_l1 (s : State) : (retire s).l1 = s.l1 := by
  simp [retire]
@[simp] theorem retire_cspad (s : State) : (retire s).cspad = s.cspad := by
  simp [retire]
@[simp] theorem retire_cspadBad (s : State) : (retire s).cspadBad = s.cspadBad := by
  simp [retire]
@[simp] theorem retire_bankRegs (s : State) : (retire s).bankRegs = s.bankRegs := by
  simp [retire]
@[simp] theorem retire_queues (s : State) : (retire s).queues = s.queues := by
  simp [retire]
@[simp] theorem retire_dataQueues (s : State) : (retire s).dataQueues = s.dataQueues := by
  simp [retire]
@[simp] theorem retire_cores (s : State) : (retire s).cores = s.cores := by
  simp [retire]
@[simp] theorem retire_rings (s : State) : (retire s).rings = s.rings := by
  simp [retire]
@[simp] theorem retire_events (s : State) : (retire s).events = s.events := by
  simp [retire]
@[simp] theorem retire_merges (s : State) : (retire s).merges = s.merges := by
  simp [retire]
@[simp] theorem retire_tlbs (s : State) : (retire s).tlbs = s.tlbs := by
  simp [retire]
@[simp] theorem retire_espalier (s : State) : (retire s).espalier = s.espalier := by
  simp [retire]
@[simp] theorem retire_replicas (s : State) : (retire s).replicas = s.replicas := by
  simp [retire]
@[simp] theorem retire_monitor (s : State) : (retire s).monitor = s.monitor := by
  simp [retire]
@[simp] theorem retire_reduces (s : State) : (retire s).reduces = s.reduces := by
  simp [retire]
@[simp] theorem retire_dev (s : State) : (retire s).dev = s.dev := by
  simp [retire]
@[simp] theorem retire_crew_key (s : State) : (retire s).crew.key = s.crew.key := by
  simp [retire]
@[simp] theorem retire_crew_status (s : State) : (retire s).crew.status = s.crew.status := by
  simp [retire]
@[simp] theorem retire_crew_active (s : State) : (retire s).crew.active = s.crew.active := by
  simp [retire]
@[simp] theorem retire_crew_offered (s : State) : (retire s).crew.offered = s.crew.offered := by
  simp [retire]
@[simp] theorem retire_crew_sc (s : State) : (retire s).crew.sc = s.crew.sc := by
  simp [retire]
@[simp] theorem retire_crew_ln (s : State) : (retire s).crew.ln = s.crew.ln := by
  simp [retire]
@[simp] theorem retire_crew_ops (s : State) : (retire s).crew.ops = s.crew.ops := by
  simp [retire]
@[simp] theorem retire_crew_sieve (s : State) : (retire s).crew.sieve = s.crew.sieve := by
  simp [retire]
@[simp] theorem retire_crew_sieveOrder (s : State) : (retire s).crew.sieveOrder = s.crew.sieveOrder := by
  simp [retire]
@[simp] theorem retire_crew_entryCycle (s : State) : (retire s).crew.entryCycle = s.crew.entryCycle := by
  simp [retire]
@[simp] theorem retire_crew_wait (s : State) : (retire s).crew.wait = s.crew.wait := by
  simp [retire]
@[simp] theorem retire_crew_park (s : State) : (retire s).crew.park = s.crew.park := by
  simp [retire]
@[simp] theorem retire_crew_handler (s : State) : (retire s).crew.handler = s.crew.handler := by
  simp [retire]
@[simp] theorem retire_crew_ptraps (s : State) : (retire s).crew.ptraps = s.crew.ptraps := by
  simp [retire]
@[simp] theorem retire_crew_barKept (s : State) : (retire s).crew.barKept = s.crew.barKept := by
  simp [retire]
@[simp] theorem retire_crew_graftKept (s : State) : (retire s).crew.graftKept = s.crew.graftKept := by
  simp [retire]
@[simp] theorem retire_crew_solve (s : State) : (retire s).crew.solve = s.crew.solve := by
  simp [retire]
@[simp] theorem retire_crew_svStat (s : State) : (retire s).crew.svStat = s.crew.svStat := by
  simp [retire]
@[simp] theorem retire_crew_cmo (s : State) : (retire s).crew.cmo = s.crew.cmo := by
  simp [retire]
@[simp] theorem retire_crew_banks (s : State) : (retire s).crew.banks = s.crew.banks := by
  simp [retire]
@[simp] theorem retire_crew_spilled (s : State) : (retire s).crew.spilled = s.crew.spilled := by
  simp [retire]
@[simp] theorem retire_crew_carried (s : State) : (retire s).crew.carried = s.crew.carried := by
  simp [retire]
@[simp] theorem retire_crew_tiles (s : State) : (retire s).crew.tiles = s.crew.tiles := by
  simp [retire]
@[simp] theorem retire_crew_hadToken (s : State) : (retire s).crew.hadToken = s.crew.hadToken := by
  simp [retire]
@[simp] theorem retire_crew_budgetTrap (s : State) : (retire s).crew.budgetTrap = s.crew.budgetTrap := by
  simp [retire]
@[simp] theorem finish_turns (pc : W64) (s : State) : (finish pc s).turns = s.turns := by
  simp [finish]
@[simp] theorem finish_beat (pc : W64) (s : State) : (finish pc s).beat = s.beat := by
  simp [finish]
@[simp] theorem finish_sweep (pc : W64) (s : State) : (finish pc s).sweep = s.sweep := by
  simp [finish]
@[simp] theorem finish_free (pc : W64) (s : State) : (finish pc s).free = s.free := by
  simp [finish]
@[simp] theorem finish_fine (pc : W64) (s : State) : (finish pc s).fine = s.fine := by
  simp [finish]
@[simp] theorem finish_cycles (pc : W64) (s : State) : (finish pc s).cycles = s.cycles := by
  simp [finish]
@[simp] theorem finish_team (pc : W64) (s : State) : (finish pc s).team = s.team := by
  simp [finish]
@[simp] theorem finish_crews (pc : W64) (s : State) : (finish pc s).crews = s.crews := by
  simp [finish]
@[simp] theorem finish_teams (pc : W64) (s : State) : (finish pc s).teams = s.teams := by
  simp [finish]
@[simp] theorem finish_nextTake (pc : W64) (s : State) : (finish pc s).nextTake = s.nextTake := by
  simp [finish]
@[simp] theorem finish_mem (pc : W64) (s : State) : (finish pc s).mem = s.mem := by
  simp [finish]
@[simp] theorem finish_memBad (pc : W64) (s : State) : (finish pc s).memBad = s.memBad := by
  simp [finish]
@[simp] theorem finish_l1 (pc : W64) (s : State) : (finish pc s).l1 = s.l1 := by
  simp [finish]
@[simp] theorem finish_cspad (pc : W64) (s : State) : (finish pc s).cspad = s.cspad := by
  simp [finish]
@[simp] theorem finish_cspadBad (pc : W64) (s : State) : (finish pc s).cspadBad = s.cspadBad := by
  simp [finish]
@[simp] theorem finish_bankRegs (pc : W64) (s : State) : (finish pc s).bankRegs = s.bankRegs := by
  simp [finish]
@[simp] theorem finish_queues (pc : W64) (s : State) : (finish pc s).queues = s.queues := by
  simp [finish]
@[simp] theorem finish_dataQueues (pc : W64) (s : State) : (finish pc s).dataQueues = s.dataQueues := by
  simp [finish]
@[simp] theorem finish_cores (pc : W64) (s : State) : (finish pc s).cores = s.cores := by
  simp [finish]
@[simp] theorem finish_rings (pc : W64) (s : State) : (finish pc s).rings = s.rings := by
  simp [finish]
@[simp] theorem finish_events (pc : W64) (s : State) : (finish pc s).events = s.events := by
  simp [finish]
@[simp] theorem finish_merges (pc : W64) (s : State) : (finish pc s).merges = s.merges := by
  simp [finish]
@[simp] theorem finish_tlbs (pc : W64) (s : State) : (finish pc s).tlbs = s.tlbs := by
  simp [finish]
@[simp] theorem finish_espalier (pc : W64) (s : State) : (finish pc s).espalier = s.espalier := by
  simp [finish]
@[simp] theorem finish_replicas (pc : W64) (s : State) : (finish pc s).replicas = s.replicas := by
  simp [finish]
@[simp] theorem finish_monitor (pc : W64) (s : State) : (finish pc s).monitor = s.monitor := by
  simp [finish]
@[simp] theorem finish_reduces (pc : W64) (s : State) : (finish pc s).reduces = s.reduces := by
  simp [finish]
@[simp] theorem finish_dev (pc : W64) (s : State) : (finish pc s).dev = s.dev := by
  simp [finish]
@[simp] theorem finish_crew_key (pc : W64) (s : State) : (finish pc s).crew.key = s.crew.key := by
  simp [finish]
@[simp] theorem finish_crew_status (pc : W64) (s : State) : (finish pc s).crew.status = s.crew.status := by
  simp [finish]
@[simp] theorem finish_crew_active (pc : W64) (s : State) : (finish pc s).crew.active = s.crew.active := by
  simp [finish]
@[simp] theorem finish_crew_offered (pc : W64) (s : State) : (finish pc s).crew.offered = s.crew.offered := by
  simp [finish]
@[simp] theorem finish_crew_ln (pc : W64) (s : State) : (finish pc s).crew.ln = s.crew.ln := by
  simp [finish]
@[simp] theorem finish_crew_ops (pc : W64) (s : State) : (finish pc s).crew.ops = s.crew.ops := by
  simp [finish]
@[simp] theorem finish_crew_sieve (pc : W64) (s : State) : (finish pc s).crew.sieve = s.crew.sieve := by
  simp [finish]
@[simp] theorem finish_crew_sieveOrder (pc : W64) (s : State) : (finish pc s).crew.sieveOrder = s.crew.sieveOrder := by
  simp [finish]
@[simp] theorem finish_crew_entryCycle (pc : W64) (s : State) : (finish pc s).crew.entryCycle = s.crew.entryCycle := by
  simp [finish]
@[simp] theorem finish_crew_park (pc : W64) (s : State) : (finish pc s).crew.park = s.crew.park := by
  simp [finish]
@[simp] theorem finish_crew_handler (pc : W64) (s : State) : (finish pc s).crew.handler = s.crew.handler := by
  simp [finish]
@[simp] theorem finish_crew_ptraps (pc : W64) (s : State) : (finish pc s).crew.ptraps = s.crew.ptraps := by
  simp [finish]
@[simp] theorem finish_crew_barKept (pc : W64) (s : State) : (finish pc s).crew.barKept = s.crew.barKept := by
  simp [finish]
@[simp] theorem finish_crew_graftKept (pc : W64) (s : State) : (finish pc s).crew.graftKept = s.crew.graftKept := by
  simp [finish]
@[simp] theorem finish_crew_solve (pc : W64) (s : State) : (finish pc s).crew.solve = s.crew.solve := by
  simp [finish]
@[simp] theorem finish_crew_svStat (pc : W64) (s : State) : (finish pc s).crew.svStat = s.crew.svStat := by
  simp [finish]
@[simp] theorem finish_crew_cmo (pc : W64) (s : State) : (finish pc s).crew.cmo = s.crew.cmo := by
  simp [finish]
@[simp] theorem finish_crew_banks (pc : W64) (s : State) : (finish pc s).crew.banks = s.crew.banks := by
  simp [finish]
@[simp] theorem finish_crew_spilled (pc : W64) (s : State) : (finish pc s).crew.spilled = s.crew.spilled := by
  simp [finish]
@[simp] theorem finish_crew_carried (pc : W64) (s : State) : (finish pc s).crew.carried = s.crew.carried := by
  simp [finish]
@[simp] theorem finish_crew_tiles (pc : W64) (s : State) : (finish pc s).crew.tiles = s.crew.tiles := by
  simp [finish]
@[simp] theorem finish_crew_hadToken (pc : W64) (s : State) : (finish pc s).crew.hadToken = s.crew.hadToken := by
  simp [finish]
@[simp] theorem finish_crew_budgetTrap (pc : W64) (s : State) : (finish pc s).crew.budgetTrap = s.crew.budgetTrap := by
  simp [finish]
@[simp] theorem retire_crew_clock (s : State) : (retire s).crew.clock = s.crew.clock + 1 := by
  simp [retire]
@[simp] theorem finish_crew_clock (pc : W64) (s : State) : (finish pc s).crew.clock = s.crew.clock + 1 := by
  simp [finish]
@[simp] theorem finish_crew_wait (pc : W64) (s : State) : (finish pc s).crew.wait = .none := by
  simp [finish]
@[simp] theorem finish_crew_sc (pc : W64) (s : State) : (finish pc s).crew.sc = { s.crew.sc with pc := pc } := by
  simp [finish, setPc]

end Sys2Proof.Machine
end

