-- ==== Sys2Proof/Laws/Ops.lean ====
section
/-! SUPPORT. What the shared operations can answer, said once: running a body, finishing, stopping, entering a handler,
returning from one, and issuing an operation. -/

namespace Sys2Proof.Machine

/-! ### Running a scalar instruction -/

theorem run_ok {body : State → Res State} {s t : State} (h : body s = .ok t) :
    run body s = .next (finish (s.crew.sc.pc + 4) t) := by
  simp [run, runTo, h, Except.map]

theorem run_error {body : State → Res State} {s : State} {e : Stop} (h : body s = .error e) :
    run body s = .next (stopScalar e s) := by
  simp [run, runTo, h, Except.map]

theorem runLong_ok {body : State → Res State} {s t : State} (h : body s = .ok t) :
    runLong body s = .next (finish (s.crew.sc.pc + 8) t) := by
  simp [runLong, runTo, h, Except.map]

theorem runLong_error {body : State → Res State} {s : State} {e : Stop} (h : body s = .error e) :
    runLong body s = .next (stopScalar e s) := by
  simp [runLong, runTo, h, Except.map]

theorem runTo_ok {body : State → Res (State × W64)} {s t : State} {pc : W64} (h : body s = .ok (t, pc)) :
    runTo body s = .next (finish pc t) := by
  simp [runTo, h]

theorem runTo_error {body : State → Res (State × W64)} {s : State} {e : Stop} (h : body s = .error e) :
    runTo body s = .next (stopScalar e s) := by
  simp [runTo, h]

theorem runSelf_ok {body : State → Res State} {s t : State} (h : body s = .ok t) : runSelf body s = .next t := by
  simp [runSelf, h]

theorem runSelf_error {body : State → Res State} {s : State} {e : Stop} (h : body s = .error e) :
    runSelf body s = .next (stopScalar e s) := by
  simp [runSelf, h]

/-! ### Monadic bodies -/

theorem need_true {e : Stop} : need true e = .ok () := rfl
theorem need_false {e : Stop} : need false e = .error e := rfl

theorem need_ok {c : Bool} {e : Stop} : need c e = .ok () ↔ c = true := by
  cases c <;> simp [need]

theorem res_bind_ok {α β : Type} {x : Res α} {f : α → Res β} {b : β} (h : x >>= f = .ok b) :
    ∃ a, x = .ok a ∧ f a = .ok b := by
  cases x with
  | error e => exact absurd h (by simp [Bind.bind, Except.bind])
  | ok a => exact ⟨a, rfl, h⟩

theorem putS_ok {r : Nat} {v : W64} {s : State} (h : liveIn s r = false) : putS r v s = .ok (wrS r v s) := by
  simp [putS, h]

theorem putS_liveIn {r : Nat} {v : W64} {s : State} (h : liveIn s r = true) : putS r v s = .error (.trap 0x02 0) := by
  simp [putS, h]

/-! ### Code addresses -/

theorem codeCheck_ok {p : W64} (h : codeBad p = false) : codeCheck p = .ok () := by
  unfold codeBad at h
  unfold codeCheck
  simp only [Bool.or_eq_false_iff, decide_eq_false_iff_not, bne_eq_false_iff_eq] at h
  obtain ⟨⟨h1, h2⟩, h3⟩ := h
  simp [h1, h2, h3]

/-! ### Taking a trap -/

/-- Where no handler can be entered, the job slice fails. -/
theorem enterTrap_fails {cause : Nat} {info pc lpc mask : W64} {sl : List Nat} {lane : Bool} {s : State}
    (h : s.job.rcd.handler = 0 ∨ s.crew.handler.isSome = true ∨ codeBad s.job.rcd.handler = true) :
    enterTrap cause info pc lpc mask sl lane s = abortJob s.crew.key.job 6 cause s := by
  simp only [enterTrap]
  rw [if_pos h]

/-- A crew that enters its handler keeps its registers, its predicates, and all of the machine outside itself. -/
theorem enterTrap_frame {cause : Nat} {info pc lpc mask : W64} {sl : List Nat} {lane : Bool} {s : State}
    (h0 : s.job.rcd.handler ≠ 0) (h1 : codeBad s.job.rcd.handler = false) (h2 : s.crew.handler = none) :
    ∃ c, enterTrap cause info pc lpc mask sl lane s = { s with crew := c } ∧ c.sc.regs = s.crew.sc.regs ∧
      c.sc.preds = s.crew.sc.preds ∧ c.sc.astat = s.crew.sc.astat ∧ c.key = s.crew.key := by
  unfold enterTrap
  simp only [h0, h1, h2, Option.isSome_none, Bool.false_eq_true, or_self, if_false]
  exact ⟨_, rfl, rfl, rfl, rfl, rfl⟩

theorem firstTrap_nil {c : Crew} (h : c.ptraps = []) : firstTrap c = none := by
  simp [firstTrap, h]

theorem takeDeferred_nil {s : State} (h : s.crew.ptraps = []) : takeDeferred s = s := by
  simp [takeDeferred, firstTrap_nil h]

theorem dropOps_nil {p : Op → Bool} {s : State} (h : s.crew.ops = []) : dropOps p s = s := by
  have key : ∀ c : Crew, c.ops = [] → { c with ops := c.ops.filter (fun o => !p o) } = c := by
    intro c hc
    cases c
    simp_all
  exact congrArg (fun c => { s with crew := c }) (key s.crew h)

/-- With nothing in flight, delivering the returning loads changes nothing. -/
theorem settleLoads_quiet {s : State} (h : s.crew.ops = []) : settleLoads s = s := by
  simp only [settleLoads, firstLoads, h, List.filter_nil, List.takeWhile_nil, List.foldl_nil]
  rfl

theorem returnsOut_quiet {c : Crew} (ho : c.ops = []) (hv : c.sieve = []) (hu : c.solve = none) : returnsOut c = false := by
  simp [returnsOut, ho, hv, hu]

theorem trapScalar_quiet {cause : Nat} {info pc : W64} {s : State} (ho : s.crew.ops = []) (hv : s.crew.sieve = [])
    (hu : s.crew.solve = none) (hp : s.crew.ptraps = []) : trapScalar cause info pc s = enterTrap cause info pc 0 0 [] false s := by
  simp [trapScalar, settleLoads_quiet ho, returnsOut_quiet ho hv hu, firstTrap_nil hp]

/-! ### Registers -/

theorem rdS_finish (pc : W64) (s : State) (r : Nat) : rdS (finish pc s) r = rdS s r := by
  simp [rdS]

theorem rdC_finish (pc : W64) (s : State) (r : Nat) : rdC (finish pc s) r = rdC s r := by
  simp [rdC]

end Sys2Proof.Machine
end

