-- ==== Sys2Proof/Laws/SMap.lean ====
section
/-! SUPPORT. Laws of the sparse maps: reading after writing, and that every write keeps the canonical form. -/

namespace Sys2Proof.Machine

variable {α : Type}

/-- Every key of a canonical map's tail is above its head. -/
def smAbove (k : Nat) (m : SMap α) : Prop := ∀ p ∈ m, k < p.1

theorem smWf_cons [DecidableEq α] {d : α} {a : Nat} {v : α} {r : SMap α} :
    smWf d ((a, v) :: r) = true ↔ v ≠ d ∧ smAbove a r ∧ smWf d r = true := by
  induction r generalizing a v with
  | nil => simp [smWf, smAbove]
  | cons p r ih =>
    obtain ⟨b, w⟩ := p
    constructor
    · intro h
      simp only [smWf, Bool.and_eq_true, decide_eq_true_eq] at h
      obtain ⟨⟨h1, h2⟩, h3⟩ := h
      refine ⟨h1, ?_, h3⟩
      intro q hq
      rcases List.mem_cons.mp hq with rfl | hq
      · exact h2
      · exact Nat.lt_trans h2 ((ih.mp h3).2.1 q hq)
    · rintro ⟨h1, h2, h3⟩
      simp only [smWf, Bool.and_eq_true, decide_eq_true_eq]
      exact ⟨⟨h1, h2 (b, w) (by simp)⟩, h3⟩

theorem smGet_of_above {d : α} {k : Nat} {m : SMap α} (h : smAbove k m) : smGet d m k = d := by
  induction m with
  | nil => rfl
  | cons p r ih =>
    obtain ⟨b, w⟩ := p
    have hb : k < b := h (b, w) (by simp)
    have : k ≠ b := Nat.ne_of_lt hb
    simp only [smGet, this, if_false]
    exact ih (fun q hq => h q (by simp [hq]))

theorem mem_smDel {k : Nat} {m : SMap α} {p : Nat × α} (h : p ∈ smDel m k) : p ∈ m ∧ p.1 ≠ k := by
  induction m with
  | nil => simp [smDel] at h
  | cons q r ih =>
    obtain ⟨b, w⟩ := q
    by_cases hb : b = k
    · rw [smDel, if_pos hb] at h
      exact ⟨by simp [(ih h).1], (ih h).2⟩
    · rw [smDel, if_neg hb] at h
      rcases List.mem_cons.mp h with rfl | h
      · exact ⟨by simp, hb⟩
      · exact ⟨by simp [(ih h).1], (ih h).2⟩

theorem smGet_smDel_same {d : α} {k : Nat} {m : SMap α} : smGet d (smDel m k) k = d := by
  induction m with
  | nil => rfl
  | cons p r ih =>
    obtain ⟨b, w⟩ := p
    by_cases hb : b = k
    · rw [smDel, if_pos hb]; exact ih
    · rw [smDel, if_neg hb, smGet, if_neg (Ne.symm hb)]; exact ih

theorem smGet_smDel_other {d : α} {k j : Nat} {m : SMap α} (h : j ≠ k) : smGet d (smDel m k) j = smGet d m j := by
  induction m with
  | nil => rfl
  | cons p r ih =>
    obtain ⟨b, w⟩ := p
    by_cases hb : b = k
    · rw [smDel, if_pos hb, smGet, if_neg (by omega)]; exact ih
    · by_cases hj : j = b
      · simp [smDel, smGet, hb, hj]
      · simp [smDel, smGet, hb, hj, ih]

theorem smGet_smIns {d : α} {k j : Nat} {v : α} {m : SMap α} (h : ∀ p ∈ m, p.1 ≠ k) :
    smGet d (smIns m k v) j = if j = k then v else smGet d m j := by
  induction m with
  | nil => simp [smIns, smGet]
  | cons p r ih =>
    obtain ⟨b, w⟩ := p
    have hb : b ≠ k := h (b, w) (by simp)
    have ih' := ih (fun q hq => h q (by simp [hq]))
    by_cases hk : k < b
    · simp [smIns, hk, smGet]
    · by_cases hj : j = b
      · simp [smIns, hk, smGet, hj, hb]
      · simp [smIns, hk, smGet, hj, ih']

theorem smGet_smSet [DecidableEq α] (d : α) (m : SMap α) (k j : Nat) (v : α) :
    smGet d (smSet d m k v) j = if j = k then v else smGet d m j := by
  unfold smSet
  by_cases hv : v = d
  · rw [if_pos hv]
    by_cases hj : j = k
    · simp [hj, smGet_smDel_same, hv]
    · simp [hj, smGet_smDel_other hj]
  · rw [if_neg hv, smGet_smIns (fun p hp => (mem_smDel hp).2)]
    by_cases hj : j = k
    · simp [hj]
    · simp [hj, smGet_smDel_other hj]

@[simp] theorem smGet_smSet_same [DecidableEq α] (d : α) (m : SMap α) (k : Nat) (v : α) :
    smGet d (smSet d m k v) k = v := by simp [smGet_smSet]

theorem smGet_smSet_other [DecidableEq α] (d : α) (m : SMap α) {k j : Nat} (v : α) (h : j ≠ k) :
    smGet d (smSet d m k v) j = smGet d m j := by simp [smGet_smSet, h]

theorem smWf_smDel [DecidableEq α] {d : α} {k : Nat} {m : SMap α} (h : smWf d m = true) : smWf d (smDel m k) = true := by
  induction m with
  | nil => rfl
  | cons p r ih =>
    obtain ⟨b, w⟩ := p
    obtain ⟨h1, h2, h3⟩ := smWf_cons.mp h
    by_cases hb : b = k
    · rw [smDel, if_pos hb]; exact ih h3
    · rw [smDel, if_neg hb]
      exact smWf_cons.mpr ⟨h1, fun q hq => h2 q (mem_smDel hq).1, ih h3⟩

theorem mem_smIns {k : Nat} {v : α} {m : SMap α} {p : Nat × α} (h : p ∈ smIns m k v) : p = (k, v) ∨ p ∈ m := by
  induction m with
  | nil => simpa [smIns] using h
  | cons q r ih =>
    obtain ⟨b, w⟩ := q
    by_cases hk : k < b
    · simpa [smIns, hk] using h
    · rw [smIns, if_neg hk] at h
      rcases List.mem_cons.mp h with rfl | h
      · simp
      · rcases ih h with h | h
        · exact .inl h
        · exact .inr (by simp [h])

theorem smWf_smIns [DecidableEq α] {d : α} {k : Nat} {v : α} {m : SMap α} (hv : v ≠ d) (hk : ∀ p ∈ m, p.1 ≠ k)
    (h : smWf d m = true) : smWf d (smIns m k v) = true := by
  induction m with
  | nil => simp [smIns, smWf, hv]
  | cons p r ih =>
    obtain ⟨b, w⟩ := p
    obtain ⟨h1, h2, h3⟩ := smWf_cons.mp h
    have hb : b ≠ k := hk (b, w) (by simp)
    by_cases hlt : k < b
    · rw [smIns, if_pos hlt]
      refine smWf_cons.mpr ⟨hv, ?_, h⟩
      intro q hq
      rcases List.mem_cons.mp hq with rfl | hq
      · exact hlt
      · exact Nat.lt_trans hlt (h2 q hq)
    · rw [smIns, if_neg hlt]
      refine smWf_cons.mpr ⟨h1, ?_, ih (fun q hq => hk q (by simp [hq])) h3⟩
      intro q hq
      rcases mem_smIns hq with rfl | hq
      · show b < k; omega
      · exact h2 q hq

/-- A write keeps the canonical form. -/
theorem smWf_smSet [DecidableEq α] {d : α} {k : Nat} {v : α} {m : SMap α} (h : smWf d m = true) :
    smWf d (smSet d m k v) = true := by
  unfold smSet
  by_cases hv : v = d
  · rw [if_pos hv]; exact smWf_smDel h
  · rw [if_neg hv]; exact smWf_smIns hv (fun p hp => (mem_smDel hp).2) (smWf_smDel h)

/-- A write of several values keeps the canonical form. -/
theorem smWf_smSetMany [DecidableEq α] {d : α} {m : SMap α} {k : Nat} {vs : List α} (h : smWf d m = true) :
    smWf d (smSetMany d m k vs) = true := by
  induction vs generalizing m k with
  | nil => exact h
  | cons v r ih => exact ih (smWf_smSet h)

/-- A write of several values leaves every other key alone. -/
theorem smGet_smSetMany_outside [DecidableEq α] {d : α} {m : SMap α} {k j : Nat} {vs : List α}
    (h : j < k ∨ k + vs.length ≤ j) : smGet d (smSetMany d m k vs) j = smGet d m j := by
  induction vs generalizing m k with
  | nil => rfl
  | cons v r ih =>
    rw [smSetMany, ih (by simp at h; omega), smGet_smSet_other]
    simp at h; omega

/-- A write of several values puts the i-th at key k + i. -/
theorem smGet_smSetMany_inside [DecidableEq α] {d : α} {m : SMap α} {k i : Nat} {vs : List α} (h : i < vs.length) :
    smGet d (smSetMany d m k vs) (k + i) = vs[i] := by
  induction vs generalizing m k i with
  | nil => simp at h
  | cons v r ih =>
    rw [smSetMany]
    cases i with
    | zero => rw [smGet_smSetMany_outside (by omega)]; simp
    | succ i =>
      rw [show k + (i + 1) = (k + 1) + i by omega, ih (by simpa using h)]
      simp

end Sys2Proof.Machine
end

