-- ==== Sys2Proof/Laws/Lanes.lean ====
section
/-! SUPPORT. What the shared operations of lane instructions do: the checks before an instruction, issue, and the reads of
registers, predicates and latches after a write. -/

namespace Sys2Proof.Machine

/-! ### Issue -/

theorem headGang_some {s : State} {r : ARun} {g : Gang} {rest : List Gang} (h : curRun s.crew = some r)
    (hg : r.gangs = g :: rest) : headGang s = some (r, g) := by
  simp [headGang, h, hg]

theorem headGang_cases {s : State} {r : ARun} {g : Gang} (h : headGang s = some (r, g)) :
    curRun s.crew = some r ∧ ∃ rest, r.gangs = g :: rest := by
  unfold headGang at h
  split at h
  · split at h
    · cases h; exact ⟨by assumption, _, by assumption⟩
    · cases h
  · cases h

/-- A word that keeps the rules, within the budget, with valid latches and no live-in destination passes the checks. -/
theorem laneChecks_ok {f : LaneFmt} {w : LaneWord} {r : ARun} {act : List Nat} {s : State} (h1 : laneOk f w = true)
    (h2 : laneTop f w ≤ 64 * s.job.rcd.regg) (h3 : lostLatch s act (latchesOf f w) = none)
    (h4 : f.dn = 0 ∨ f.dpred = true ∨ w.nw = 1 ∨ liveInV s r w.d.toNat f.dn = false) :
    laneChecks f w r act s = .ok () := by
  unfold laneChecks
  rcases h4 with h | h | h | h <;> simp [need, h1, h2, h3, h, Bind.bind, Except.bind]

/-- A latch that an active lane reads is valid in every one of them. -/
theorem lostLatch_none {s : State} {act ls : List Nat} (h : ∀ b ∈ ls, ∀ l ∈ act, (latch s l b).isSome = true) :
    lostLatch s act ls = none := by
  unfold lostLatch
  rw [List.find?_eq_none]
  intro b hb
  simp only [List.any_eq_true, not_exists, not_and]
  intro l hl
  have e := h b hb l hl
  intro hn
  rw [Option.isNone_iff_eq_none.1 hn] at e
  cases e

theorem laneIssue_ok {f : LaneFmt} {w : LaneWord} {src : Nat} {body : List Nat → State → Res State}
    {fin : Gang → State → State} {s t : State} {r : ARun} {g : Gang} (hg : headGang s = some (r, g))
    (hc : laneChecks f w r (activeLanes s r g w) s = .ok ())
    (hb : body (activeLanes s r g w) (if f.window then dropGang g s else s) = .ok t) :
    laneIssue f w src body fin s = .next (fin g t) := by
  simp [laneIssue, hg, hc, hb, Bind.bind, Except.bind]

theorem laneIssue_stop {f : LaneFmt} {w : LaneWord} {src : Nat} {body : List Nat → State → Res State}
    {fin : Gang → State → State} {s : State} {e : Stop} {r : ARun} {g : Gang} (hg : headGang s = some (r, g))
    (hc : laneChecks f w r (activeLanes s r g w) s = .error e) :
    laneIssue f w src body fin s = .next (stopLane e src g (lanesMask (activeLanes s r g w)) s) := by
  simp [laneIssue, hg, hc, Bind.bind, Except.bind]

theorem laneIssue_idle {f : LaneFmt} {w : LaneWord} {src : Nat} {body : List Nat → State → Res State}
    {fin : Gang → State → State} {s : State} (hg : headGang s = none) : laneIssue f w src body fin s = .next s := by
  simp [laneIssue, hg]

/-! ### Registers, predicates, latches -/

theorem lane_key_inj {v u l m : Nat} (hl : l < 32) (hm : m < 32) : 32 * v + l = 32 * u + m ↔ v = u ∧ l = m := by
  constructor
  · intro h; omega
  · rintro ⟨rfl, rfl⟩; rfl

theorem rdV_putV {v u l m x : Nat} {s : State} (hl : l < 32) (hm : m < 32) :
    rdV (putV v l x s) u m = if u = v ∧ m = l then x % 2 ^ 32 else rdV s u m := by
  simp only [rdV, putV, onRegs_regs, smGet_smSet]
  by_cases h : u = v ∧ m = l
  · simp [h.1, h.2]
  · have h' : ¬(32 * u + m = 32 * v + l) := fun e => h ((lane_key_inj hm hl).1 e)
    simp [h, h']

theorem rdP_zero (s : State) (l : Nat) : rdP s 0 l = true := rfl

theorem rdV_pushLatch (v l m x : Nat) (s : State) : rdV (pushLatch l x s) v m = rdV s v m := rfl

theorem rdP_pushLatch (p l m x : Nat) (s : State) : rdP (pushLatch l x s) p m = rdP s p m := rfl

theorem rdP_putV (p v l m x : Nat) (s : State) : rdP (putV v l x s) p m = rdP s p m := rfl

theorem rdV_wrP (v p l m : Nat) (b : Bool) (s : State) : rdV (wrP p l b s) v m = rdV s v m := rfl

theorem latch_putV (v l m b x : Nat) (s : State) : latch (putV v l x s) m b = latch s m b := rfl

/-- A result in b0 moves the earlier ones of its lane up, and no other lane's. -/
theorem latch_pushLatch {l m b x : Nat} {s : State} (hb : b < 4) :
    latch (pushLatch l x s) m b = if m = l then (if b = 0 then some (BitVec.ofNat 64 x) else latch s l (b - 1))
      else latch s m b := by
  simp only [latch, pushLatch, onRegs_regs, smGet_smSet]
  by_cases h : m = l
  · subst h
    have e0 : 4 * m + b = 4 * m ↔ b = 0 := by omega
    have e1 : 4 * m + b = 4 * m + 1 ↔ b = 1 := by omega
    have e2 : 4 * m + b = 4 * m + 2 ↔ b = 2 := by omega
    have e3 : 4 * m + b = 4 * m + 3 ↔ b = 3 := by omega
    simp only [e0, e1, e2, e3, if_true]
    obtain rfl | rfl | rfl | rfl : b = 0 ∨ b = 1 ∨ b = 2 ∨ b = 3 := by omega
    all_goals simp
  · have e0 : ¬(4 * m + b = 4 * l) := by omega
    have e1 : ¬(4 * m + b = 4 * l + 1) := by omega
    have e2 : ¬(4 * m + b = 4 * l + 2) := by omega
    have e3 : ¬(4 * m + b = 4 * l + 3) := by omega
    simp [h, e0, e1, e2, e3]

end Sys2Proof.Machine
end

