-- ==== Sys2Proof/Laws/Memory.lean ====
section
/-! SUPPORT. Every operation on physical memory keeps its canonical form, and a byte read after a store is the byte stored
or the byte that was there. -/

namespace Sys2Proof.Machine

/-! ### The canonical form -/

theorem smWf_filter [DecidableEq α] {d : α} {m : SMap α} (p : Nat × α → Bool) (h : smWf d m = true) :
    smWf d (m.filter p) = true := by
  induction m with
  | nil => exact h
  | cons x r ih =>
    obtain ⟨a, v⟩ := x
    obtain ⟨hv, ha, hr⟩ := smWf_cons.1 h
    by_cases hp : p (a, v) = true
    · rw [List.filter_cons_of_pos hp]
      exact smWf_cons.2 ⟨hv, fun q hq => ha q (List.mem_filter.1 hq).1, ih hr⟩
    · rw [List.filter_cons_of_neg hp]
      exact ih hr

/-- Only memory decides whether a state is sound. -/
theorem sound_of_mem {s t : State} (h : s.sound = true) (hm : t.mem = s.mem) : t.sound = true := by
  unfold State.sound at *; rw [hm]; exact h

@[simp] theorem snoopStore_mem (who : List CrewKey) (pa n : Nat) (s : State) : (snoopStore who pa n s).mem = s.mem := rfl

@[simp] theorem stored_mem (who : List CrewKey) (pa n : Nat) (s : State) : (stored who pa n s).mem = s.mem := rfl

@[simp] theorem memWrBy_mem (who : List CrewKey) (pa : Nat) (b : List Byte) (s : State) :
    (memWrBy who pa b s).mem = smSetMany 0 s.mem pa b := rfl

@[simp] theorem memWr_mem (who : Option CrewKey) (pa : Nat) (b : List Byte) (s : State) :
    (memWr who pa b s).mem = smSetMany 0 s.mem pa b := rfl

theorem memWrBy_sound {who : List CrewKey} {pa : Nat} {b : List Byte} {s : State} (h : s.sound = true) :
    (memWrBy who pa b s).sound = true := by
  simpa [State.sound, Memory.wf] using smWf_smSetMany (h : smWf 0 s.mem = true)

theorem memWr_sound {who : Option CrewKey} {pa : Nat} {b : List Byte} {s : State} (h : s.sound = true) :
    (memWr who pa b s).sound = true := by
  simpa [State.sound, Memory.wf] using smWf_smSetMany (h : smWf 0 s.mem = true)

/-- A fold of operations that keep soundness keeps it. -/
theorem foldl_sound {α : Type} {f : State → α → State} (hf : ∀ s a, s.sound = true → (f s a).sound = true) (l : List α)
    {s : State} (h : s.sound = true) : (l.foldl f s).sound = true := by
  induction l generalizing s with
  | nil => exact h
  | cons a r ih => exact ih (hf s a h)

theorem wbBytes_sound {who : List CrewKey} {base dirty i : Nat} {l : List Byte} {s : State} (h : s.sound = true) :
    (wbBytes who base dirty i l s).sound = true := by
  induction l generalizing i s with
  | nil => exact h
  | cons b r ih =>
    unfold wbBytes
    split
    · exact ih (memWrBy_sound h)
    · exact ih h

theorem wbWords_sound {who : List CrewKey} {base dirty i : Nat} {l : List (List Byte)} {s : State} (h : s.sound = true) :
    (wbWords who base dirty i l s).sound = true := by
  induction l generalizing i s with
  | nil => exact h
  | cons b r ih =>
    unfold wbWords
    apply ih
    split
    · exact memWrBy_sound h
    · exact wbBytes_sound h

theorem wbLine_sound {l : L1Line} {s : State} (h : s.sound = true) :
    (wbLine l s).sound = true := by
  unfold wbLine
  split
  · exact h
  · exact wbWords_sound h

theorem wbLines_sound {p : L1Line → Bool} {drop : Bool} {s : State} (h : s.sound = true) :
    (wbLines p drop s).sound = true :=
  foldl_sound (fun _ _ ht => wbLine_sound ht) (s.l1.filter p) h

theorem dropLines_sound {p : L1Line → Bool} {s : State} (h : s.sound = true) : (dropLines p s).sound = true := h

theorem fillLine_mem (core line : Nat) (k : LineKind) (s : State) : (fillLine core line k s).2.mem = s.mem := by
  unfold fillLine
  split <;> rfl

/-- Writing back where no line is selected does nothing. -/
theorem wbLines_none {p : L1Line → Bool} {drop : Bool} {s : State} (h : ∀ l ∈ s.l1, p l = false) : wbLines p drop s = s := by
  have hf : s.l1.filter p = [] := by simpa [List.filter_eq_nil_iff] using h
  have hk : s.l1.filter (fun l => !p l) = s.l1 := by simpa [List.filter_eq_self] using h
  have hh : s.l1.filter (fun l => !(p l && l.kind == .hwc)) = s.l1 :=
    List.filter_eq_self.2 (fun l hl => by simp [h l hl])
  have hm : s.l1.map (fun l => if p l then { l with dirty := 0, writers := [] } else l) = s.l1 :=
    (List.map_congr_left (fun l hl => by simp [h l hl])).trans (List.map_id _)
  unfold wbLines
  simp only [hf, List.foldl_nil, hk, hh, hm, ite_self]

/-- A store into an L1 line leaves memory as it is. -/
theorem storeLine_mem {core : Nat} {k : LineKind} {pa : Nat} {b : List Byte} {s : State} :
    (storeLine core k pa b s).mem = s.mem := fillLine_mem core (pa / 128) k (staleMicro [pa / 128] s)

theorem storeLine_sound {core : Nat} {k : LineKind} {pa : Nat} {b : List Byte} {s : State} (h : s.sound = true) :
    (storeLine core k pa b s).sound = true :=
  sound_of_mem h (fillLine_mem core (pa / 128) k (staleMicro [pa / 128] s))

theorem switchAttr_sound {core pa n : Nat} {k : LineKind} {s : State} (h : s.sound = true) :
    (switchAttr core pa n k s).sound = true := wbLines_sound h

theorem lineFor_mem (core line : Nat) (k : LineKind) (s : State) : (lineFor core line k s).2.mem = s.mem := by
  unfold lineFor
  split
  · rfl
  · exact fillLine_mem _ _ _ _

theorem physRd_sound {core pa n coh : Nat} {ro : Bool} {s : State} (h : s.sound = true) :
    (physRd core pa n coh ro s).2.2.sound = true := by
  unfold physRd
  dsimp only
  split <;> exact sound_of_mem (switchAttr_sound h) (lineFor_mem _ _ _ _)

theorem physWr_sound {core pa : Nat} {b : List Byte} {coh : Nat} {s : State} (h : s.sound = true) :
    (physWr core pa b coh s).sound = true := by
  unfold physWr
  dsimp only
  split
  · exact memWr_sound (switchAttr_sound h)
  · exact storeLine_sound (switchAttr_sound h)

/-- What a store to an HWC page does where no line of the core's L1 overlaps it: it is at home at once, or the core's L1 holds
it. -/
theorem physWr_hwc {core pa coh : Nat} {b : List Byte} {s : State} (hc : cohKind coh = .hwc)
    (hl : (linesOf pa b.length).contains (pa / 128) = true)
    (hn : ∀ l ∈ s.l1, l.core = core → (linesOf pa b.length).contains l.line = false) :
    physWr core pa b coh s =
      if holdsStores s then storeLine core .hwc pa b s else memWr (some s.crew.key) pa b s := by
  have hw : switchAttr core pa b.length .hwc s = s := wbLines_none (fun l h => by
    by_cases e : l.core = core
    · simp only [hn l h e, Bool.and_false, Bool.false_and]
    · simp [e])
  have hf : findLine s core (pa / 128) .hwc = none := List.find?_eq_none.2 (fun l h => by
    by_cases e : l.core = core
    · have := hn l h e
      by_cases g : l.line = pa / 128
      · rw [g, hl] at this; cases this
      · simp [g]
    · simp [e])
  unfold physWr
  simp only [hc, hw, hf, true_and, and_true]
  cases holdsStores s <;> rfl

/-! ### Reading back -/

theorem smGetMany_length {α : Type} (d : α) (m : SMap α) (k n : Nat) : (smGetMany d m k n).length = n := by
  induction n generalizing k with
  | zero => rfl
  | succ n ih => simp [smGetMany, ih]

theorem smGetMany_getElem {α : Type} (d : α) (m : SMap α) (k n i : Nat) (h : i < (smGetMany d m k n).length) :
    (smGetMany d m k n)[i] = smGet d m (k + i) := by
  induction n generalizing k i with
  | zero => simp [smGetMany] at h
  | succ n ih =>
    cases i with
    | zero => rfl
    | succ i =>
      simp only [smGetMany, List.getElem_cons_succ]
      rw [ih (k + 1) i (by simpa [smGetMany] using h)]
      congr 1
      omega

/-- A store changes no byte outside the bytes it stores. -/
theorem memRd_memWr_outside {who : Option CrewKey} {pa a : Nat} {b : List Byte} {s : State}
    (h : a < pa ∨ pa + b.length ≤ a) : memRd (memWr who pa b s) a 1 = memRd s a 1 := by
  simp [memRd, smGetMany, smGet_smSetMany_outside h]

/-- A byte stored is the byte read. -/
theorem memRd_memWr_inside {who : Option CrewKey} {pa i : Nat} {b : List Byte} {s : State} (h : i < b.length) :
    memRd (memWr who pa b s) (pa + i) 1 = [b[i]] := by
  simp [memRd, smGetMany, smGet_smSetMany_inside h]

/-- The bytes stored are the bytes read. -/
theorem memRd_memWr_same {who : Option CrewKey} {pa : Nat} {b : List Byte} {s : State} :
    memRd (memWr who pa b s) pa b.length = b := by
  apply List.ext_getElem
  · simp [memRd, smGetMany_length]
  · intro i h1 h2
    simp only [memRd, memWr_mem, smGetMany_getElem]
    exact smGet_smSetMany_inside h2

end Sys2Proof.Machine
end

