-- ==== Sys2Proof/Laws/PerInstr.lean ====
section
/-! SUPPORT. Facts about every instruction as syntax, one lemma per constructor. -/

namespace Sys2Proof.Laws

/-- The number of 32-bit words that an instruction occupies in code: one for a scalar word, two for a long form,
three for a lane word, none for a step of the device (R42, R45). -/
def wordCount (i : Instr) : Nat :=
  match encFields i with
  | some _ => if encImm i = [] then 1 else 2
  | none => if (encLane i).isSome then 3 else 0

/-- What the family says of one instruction: its encoding has the number of words of its length class. -/
def Words.Statement (i : Instr) : Prop := (encode i).length = wordCount i

theorem Words.add (d a b : BitVec 6) : Words.Statement (.add d a b) := rfl
theorem Words.sub (d a b : BitVec 6) : Words.Statement (.sub d a b) := rfl
theorem Words.mul (d a b : BitVec 6) : Words.Statement (.mul d a b) := rfl
theorem Words.mulh (d a b : BitVec 6) : Words.Statement (.mulh d a b) := rfl
theorem Words.mulhz (d a b : BitVec 6) : Words.Statement (.mulhz d a b) := rfl
theorem Words.div (d a b : BitVec 6) : Words.Statement (.div d a b) := rfl
theorem Words.divz (d a b : BitVec 6) : Words.Statement (.divz d a b) := rfl
theorem Words.rem (d a b : BitVec 6) : Words.Statement (.rem d a b) := rfl
theorem Words.remz (d a b : BitVec 6) : Words.Statement (.remz d a b) := rfl
theorem Words.min (d a b : BitVec 6) : Words.Statement (.min d a b) := rfl
theorem Words.max (d a b : BitVec 6) : Words.Statement (.max d a b) := rfl
theorem Words.minz (d a b : BitVec 6) : Words.Statement (.minz d a b) := rfl
theorem Words.maxz (d a b : BitVec 6) : Words.Statement (.maxz d a b) := rfl
theorem Words.addSat (d a b : BitVec 6) : Words.Statement (.addSat d a b) := rfl
theorem Words.subSat (d a b : BitVec 6) : Words.Statement (.subSat d a b) := rfl
theorem Words.addzSat (d a b : BitVec 6) : Words.Statement (.addzSat d a b) := rfl
theorem Words.subzSat (d a b : BitVec 6) : Words.Statement (.subzSat d a b) := rfl
theorem Words.and (d a b : BitVec 6) : Words.Statement (.and d a b) := rfl
theorem Words.or (d a b : BitVec 6) : Words.Statement (.or d a b) := rfl
theorem Words.xor (d a b : BitVec 6) : Words.Statement (.xor d a b) := rfl
theorem Words.andn (d a b : BitVec 6) : Words.Statement (.andn d a b) := rfl
theorem Words.shl (d a b : BitVec 6) : Words.Statement (.shl d a b) := rfl
theorem Words.shr (d a b : BitVec 6) : Words.Statement (.shr d a b) := rfl
theorem Words.sar (d a b : BitVec 6) : Words.Statement (.sar d a b) := rfl
theorem Words.rol (d a b : BitVec 6) : Words.Statement (.rol d a b) := rfl
theorem Words.popc (d a : BitVec 6) : Words.Statement (.popc d a) := rfl
theorem Words.clz (d a : BitVec 6) : Words.Statement (.clz d a) := rfl
theorem Words.ctz (d a : BitVec 6) : Words.Statement (.ctz d a) := rfl
theorem Words.addW (d a b : BitVec 6) : Words.Statement (.addW d a b) := rfl
theorem Words.subW (d a b : BitVec 6) : Words.Statement (.subW d a b) := rfl
theorem Words.mulW (d a b : BitVec 6) : Words.Statement (.mulW d a b) := rfl
theorem Words.mulhW (d a b : BitVec 6) : Words.Statement (.mulhW d a b) := rfl
theorem Words.mulhzW (d a b : BitVec 6) : Words.Statement (.mulhzW d a b) := rfl
theorem Words.divW (d a b : BitVec 6) : Words.Statement (.divW d a b) := rfl
theorem Words.divzW (d a b : BitVec 6) : Words.Statement (.divzW d a b) := rfl
theorem Words.remW (d a b : BitVec 6) : Words.Statement (.remW d a b) := rfl
theorem Words.remzW (d a b : BitVec 6) : Words.Statement (.remzW d a b) := rfl
theorem Words.minW (d a b : BitVec 6) : Words.Statement (.minW d a b) := rfl
theorem Words.maxW (d a b : BitVec 6) : Words.Statement (.maxW d a b) := rfl
theorem Words.minzW (d a b : BitVec 6) : Words.Statement (.minzW d a b) := rfl
theorem Words.maxzW (d a b : BitVec 6) : Words.Statement (.maxzW d a b) := rfl
theorem Words.addSatW (d a b : BitVec 6) : Words.Statement (.addSatW d a b) := rfl
theorem Words.subSatW (d a b : BitVec 6) : Words.Statement (.subSatW d a b) := rfl
theorem Words.addzSatW (d a b : BitVec 6) : Words.Statement (.addzSatW d a b) := rfl
theorem Words.subzSatW (d a b : BitVec 6) : Words.Statement (.subzSatW d a b) := rfl
theorem Words.andW (d a b : BitVec 6) : Words.Statement (.andW d a b) := rfl
theorem Words.orW (d a b : BitVec 6) : Words.Statement (.orW d a b) := rfl
theorem Words.xorW (d a b : BitVec 6) : Words.Statement (.xorW d a b) := rfl
theorem Words.andnW (d a b : BitVec 6) : Words.Statement (.andnW d a b) := rfl
theorem Words.shlW (d a b : BitVec 6) : Words.Statement (.shlW d a b) := rfl
theorem Words.shrW (d a b : BitVec 6) : Words.Statement (.shrW d a b) := rfl
theorem Words.sarW (d a b : BitVec 6) : Words.Statement (.sarW d a b) := rfl
theorem Words.rolW (d a b : BitVec 6) : Words.Statement (.rolW d a b) := rfl
theorem Words.popcW (d a : BitVec 6) : Words.Statement (.popcW d a) := rfl
theorem Words.clzW (d a : BitVec 6) : Words.Statement (.clzW d a) := rfl
theorem Words.ctzW (d a : BitVec 6) : Words.Statement (.ctzW d a) := rfl
theorem Words.faddF64 (d a b : BitVec 6) : Words.Statement (.faddF64 d a b) := rfl
theorem Words.fsubF64 (d a b : BitVec 6) : Words.Statement (.fsubF64 d a b) := rfl
theorem Words.fmulF64 (d a b : BitVec 6) : Words.Statement (.fmulF64 d a b) := rfl
theorem Words.fdivF64 (d a b : BitVec 6) : Words.Statement (.fdivF64 d a b) := rfl
theorem Words.fsqrtF64 (d a : BitVec 6) : Words.Statement (.fsqrtF64 d a) := rfl
theorem Words.fminF64 (d a b : BitVec 6) : Words.Statement (.fminF64 d a b) := rfl
theorem Words.fmaxF64 (d a b : BitVec 6) : Words.Statement (.fmaxF64 d a b) := rfl
theorem Words.ffmaF64 (d a b : BitVec 6) : Words.Statement (.ffmaF64 d a b) := rfl
theorem Words.fcvtF64S64 (d a : BitVec 6) : Words.Statement (.fcvtF64S64 d a) := rfl
theorem Words.fcvtF64Z64 (d a : BitVec 6) : Words.Statement (.fcvtF64Z64 d a) := rfl
theorem Words.fcvtS64F64 (d a : BitVec 6) : Words.Statement (.fcvtS64F64 d a) := rfl
theorem Words.fcvtZ64F64 (d a : BitVec 6) : Words.Statement (.fcvtZ64F64 d a) := rfl
theorem Words.fcvtF64F32 (d a : BitVec 6) : Words.Statement (.fcvtF64F32 d a) := rfl
theorem Words.fabsF64 (d a : BitVec 6) : Words.Statement (.fabsF64 d a) := rfl
theorem Words.fnegF64 (d a : BitVec 6) : Words.Statement (.fnegF64 d a) := rfl
theorem Words.faddF32 (d a b : BitVec 6) : Words.Statement (.faddF32 d a b) := rfl
theorem Words.fsubF32 (d a b : BitVec 6) : Words.Statement (.fsubF32 d a b) := rfl
theorem Words.fmulF32 (d a b : BitVec 6) : Words.Statement (.fmulF32 d a b) := rfl
theorem Words.fdivF32 (d a b : BitVec 6) : Words.Statement (.fdivF32 d a b) := rfl
theorem Words.fsqrtF32 (d a : BitVec 6) : Words.Statement (.fsqrtF32 d a) := rfl
theorem Words.fminF32 (d a b : BitVec 6) : Words.Statement (.fminF32 d a b) := rfl
theorem Words.fmaxF32 (d a b : BitVec 6) : Words.Statement (.fmaxF32 d a b) := rfl
theorem Words.ffmaF32 (d a b : BitVec 6) : Words.Statement (.ffmaF32 d a b) := rfl
theorem Words.fcvtF32S64 (d a : BitVec 6) : Words.Statement (.fcvtF32S64 d a) := rfl
theorem Words.fcvtF32Z64 (d a : BitVec 6) : Words.Statement (.fcvtF32Z64 d a) := rfl
theorem Words.fcvtS64F32 (d a : BitVec 6) : Words.Statement (.fcvtS64F32 d a) := rfl
theorem Words.fcvtZ64F32 (d a : BitVec 6) : Words.Statement (.fcvtZ64F32 d a) := rfl
theorem Words.fcvtF32F64 (d a : BitVec 6) : Words.Statement (.fcvtF32F64 d a) := rfl
theorem Words.fabsF32 (d a : BitVec 6) : Words.Statement (.fabsF32 d a) := rfl
theorem Words.fnegF32 (d a : BitVec 6) : Words.Statement (.fnegF32 d a) := rfl
theorem Words.addi (d a : BitVec 6) (i : BitVec 14) : Words.Statement (.addi d a i) := rfl
theorem Words.andi (d a : BitVec 6) (i : BitVec 14) : Words.Statement (.andi d a i) := rfl
theorem Words.ori (d a : BitVec 6) (i : BitVec 14) : Words.Statement (.ori d a i) := rfl
theorem Words.xori (d a : BitVec 6) (i : BitVec 14) : Words.Statement (.xori d a i) := rfl
theorem Words.shli (d a n : BitVec 6) : Words.Statement (.shli d a n) := rfl
theorem Words.shliW (d a : BitVec 6) (n : BitVec 5) : Words.Statement (.shliW d a n) := rfl
theorem Words.shri (d a n : BitVec 6) : Words.Statement (.shri d a n) := rfl
theorem Words.shriW (d a : BitVec 6) (n : BitVec 5) : Words.Statement (.shriW d a n) := rfl
theorem Words.sari (d a n : BitVec 6) : Words.Statement (.sari d a n) := rfl
theorem Words.sariW (d a : BitVec 6) (n : BitVec 5) : Words.Statement (.sariW d a n) := rfl
theorem Words.roli (d a n : BitVec 6) : Words.Statement (.roli d a n) := rfl
theorem Words.roliW (d a : BitVec 6) (n : BitVec 5) : Words.Statement (.roliW d a n) := rfl
theorem Words.li (d : BitVec 6) (i : BitVec 20) : Words.Statement (.li d i) := rfl
theorem Words.liW (d : BitVec 6) (i : BitVec 32) : Words.Statement (.liW d i) := rfl
theorem Words.liWz (d : BitVec 6) (i : BitVec 32) : Words.Statement (.liWz d i) := rfl
theorem Words.liWh (d : BitVec 6) (i : BitVec 32) : Words.Statement (.liWh d i) := rfl
theorem Words.cmp (d : BitVec 4) (a b : BitVec 6) (c : BitVec 4) : Words.Statement (.cmp d a b c) := rfl
theorem Words.cmpF64 (d : BitVec 4) (a b : BitVec 6) (c : BitVec 3) : Words.Statement (.cmpF64 d a b c) := rfl
theorem Words.cmpF32 (d : BitVec 4) (a b : BitVec 6) (c : BitVec 3) : Words.Statement (.cmpF32 d a b c) := rfl
theorem Words.cmpi (d : BitVec 4) (a : BitVec 6) (c : BitVec 4) (i : BitVec 10) : Words.Statement (.cmpi d a c i) := rfl
theorem Words.predAnd (d a b : BitVec 4) : Words.Statement (.predAnd d a b) := rfl
theorem Words.predOr (d a b : BitVec 4) : Words.Statement (.predOr d a b) := rfl
theorem Words.predXor (d a b : BitVec 4) : Words.Statement (.predXor d a b) := rfl
theorem Words.predAndn (d a b : BitVec 4) : Words.Statement (.predAndn d a b) := rfl
theorem Words.predOrn (d a b : BitVec 4) : Words.Statement (.predOrn d a b) := rfl
theorem Words.predNand (d a b : BitVec 4) : Words.Statement (.predNand d a b) := rfl
theorem Words.predNor (d a b : BitVec 4) : Words.Statement (.predNor d a b) := rfl
theorem Words.predXnor (d a b : BitVec 4) : Words.Statement (.predXnor d a b) := rfl
theorem Words.predMov (d a : BitVec 4) : Words.Statement (.predMov d a) := rfl
theorem Words.predNot (d a : BitVec 4) : Words.Statement (.predNot d a) := rfl
theorem Words.predSet (d : BitVec 4) : Words.Statement (.predSet d) := rfl
theorem Words.predClr (d : BitVec 4) : Words.Statement (.predClr d) := rfl
theorem Words.predNz (d : BitVec 4) (a : BitVec 6) : Words.Statement (.predNz d a) := rfl
theorem Words.predGet (d : BitVec 6) (a : BitVec 4) : Words.Statement (.predGet d a) := rfl
theorem Words.bra (c : BitVec 4) (n : BitVec 1) (o : BitVec 21) : Words.Statement (.bra c n o) := rfl
theorem Words.call (c : BitVec 4) (n : BitVec 1) (o : BitVec 21) : Words.Statement (.call c n o) := rfl
theorem Words.jr (a : BitVec 6) (n : BitVec 1) (c : BitVec 4) : Words.Statement (.jr a n c) := rfl
theorem Words.ret (n : BitVec 1) (c : BitVec 4) : Words.Statement (.ret n c) := rfl
theorem Words.calli (d a : BitVec 6) (n : BitVec 1) (c : BitVec 4) : Words.Statement (.calli d a n c) := rfl
theorem Words.loop (d : BitVec 6) (i : BitVec 14) : Words.Statement (.loop d i) := rfl
theorem Words.lrun (i : BitVec 14) : Words.Statement (.lrun i) := rfl
theorem Words.lrunFar (i : BitVec 32) : Words.Statement (.lrunFar i) := rfl
theorem Words.lrunFarReg (a : BitVec 6) (i : BitVec 32) : Words.Statement (.lrunFarReg a i) := rfl
theorem Words.lsnap (a : BitVec 6) (k : BitVec 4) : Words.Statement (.lsnap a k) := rfl
theorem Words.lsnapPair (a b : BitVec 6) (k : BitVec 4) : Words.Statement (.lsnapPair a b k) := rfl
theorem Words.lwait : Words.Statement (.lwait) := rfl
theorem Words.lwaitLe (n : BitVec 4) : Words.Statement (.lwaitLe n) := rfl
theorem Words.xrd (d : BitVec 6) (s : BitVec 14) : Words.Statement (.xrd d s) := rfl
theorem Words.xwr (a : BitVec 6) (s : BitVec 14) : Words.Statement (.xwr a s) := rfl
theorem Words.nop : Words.Statement (.nop) := rfl
theorem Words.trap (c : BitVec 8) : Words.Statement (.trap c) := rfl
theorem Words.brk : Words.Statement (.brk) := rfl
theorem Words.yield : Words.Statement (.yield) := rfl
theorem Words.exit : Words.Statement (.exit) := rfl
theorem Words.resume : Words.Statement (.resume) := rfl
theorem Words.spawnTry (c : BitVec 4) (a b : BitVec 6) : Words.Statement (.spawnTry c a b) := rfl
theorem Words.graft (a : BitVec 6) : Words.Statement (.graft a) := rfl
theorem Words.ld (d a : BitVec 6) (w : BitVec 3) (o : BitVec 10) : Words.Statement (.ld d a w o) := rfl
theorem Words.ldRo (d a : BitVec 6) (w : BitVec 3) (o : BitVec 10) : Words.Statement (.ldRo d a w o) := rfl
theorem Words.st (d a : BitVec 6) (w : BitVec 2) (o : BitVec 12) : Words.Statement (.st d a w o) := rfl
theorem Words.amo (d a b : BitVec 6) (o : BitVec 4) (w : BitVec 1) (s : BitVec 3) : Words.Statement (.amo d a b o w s) := rfl
theorem Words.fence (o : BitVec 2) (s : BitVec 3) : Words.Statement (.fence o s) := rfl
theorem Words.ewait (n : BitVec 12) (c : BitVec 3) : Words.Statement (.ewait n c) := rfl
theorem Words.cpIssue (d : BitVec 6) (a : BitVec 4) : Words.Statement (.cpIssue d a) := rfl
theorem Words.cpIssueBar (d : BitVec 6) (a : BitVec 4) (b : BitVec 5) : Words.Statement (.cpIssueBar d a b) := rfl
theorem Words.cpIssueRing (d : BitVec 6) (a : BitVec 4) : Words.Statement (.cpIssueRing d a) := rfl
theorem Words.cpYield (d : BitVec 6) (i : BitVec 32) : Words.Statement (.cpYield d i) := rfl
theorem Words.hBind (d a : BitVec 6) (c : BitVec 4) : Words.Statement (.hBind d a c) := rfl
theorem Words.hUnbind (d : BitVec 6) : Words.Statement (.hUnbind d) := rfl
theorem Words.hClaim (d : BitVec 6) : Words.Statement (.hClaim d) := rfl
theorem Words.hRelease (d : BitVec 6) : Words.Statement (.hRelease d) := rfl
theorem Words.hWait (d : BitVec 6) : Words.Statement (.hWait d) := rfl
theorem Words.hTry (d : BitVec 6) (c : BitVec 4) : Words.Statement (.hTry d c) := rfl
theorem Words.hState (d a : BitVec 6) : Words.Statement (.hState d a) := rfl
theorem Words.hRclaim (a : BitVec 6) : Words.Statement (.hRclaim a) := rfl
theorem Words.hRadv (d a : BitVec 6) : Words.Statement (.hRadv d a) := rfl
theorem Words.barAlloc (c : BitVec 4) (a : BitVec 6) (b : BitVec 5) : Words.Statement (.barAlloc c a b) := rfl
theorem Words.barMark (b : BitVec 5) : Words.Statement (.barMark b) := rfl
theorem Words.barMeet (b : BitVec 5) : Words.Statement (.barMeet b) := rfl
theorem Words.barHold (p : BitVec 1) (b : BitVec 5) : Words.Statement (.barHold p b) := rfl
theorem Words.barPend (a : BitVec 6) (b : BitVec 5) : Words.Statement (.barPend a b) := rfl
theorem Words.barFree (b : BitVec 5) : Words.Statement (.barFree b) := rfl
theorem Words.barPhase (d : BitVec 6) (b : BitVec 5) : Words.Statement (.barPhase d b) := rfl
theorem Words.qPush (a b : BitVec 6) (s : BitVec 3) : Words.Statement (.qPush a b s) := rfl
theorem Words.qPushTry (c : BitVec 4) (a b : BitVec 6) (s : BitVec 3) : Words.Statement (.qPushTry c a b s) := rfl
theorem Words.qPop (d a : BitVec 6) (s : BitVec 3) : Words.Statement (.qPop d a s) := rfl
theorem Words.qPopTry (d a : BitVec 6) (c : BitVec 4) (s : BitVec 3) : Words.Statement (.qPopTry d a c s) := rfl
theorem Words.cmoWb (a b : BitVec 6) (s : BitVec 3) : Words.Statement (.cmoWb a b s) := rfl
theorem Words.cmoWbinv (a b : BitVec 6) (s : BitVec 3) : Words.Statement (.cmoWbinv a b s) := rfl
theorem Words.cmoInv (a b : BitVec 6) (s : BitVec 3) : Words.Statement (.cmoInv a b s) := rfl
theorem Words.cmoIinv (a b : BitVec 6) (s : BitVec 3) : Words.Statement (.cmoIinv a b s) := rfl
theorem Words.cmoRodrop (a b : BitVec 6) (s : BitVec 3) : Words.Statement (.cmoRodrop a b s) := rfl
theorem Words.matWload (a b : BitVec 6) : Words.Statement (.matWload a b) := rfl
theorem Words.matTokenTake : Words.Statement (.matTokenTake) := rfl
theorem Words.matTokenPass : Words.Statement (.matTokenPass) := rfl
theorem Words.matTokenQuery (c : BitVec 4) : Words.Statement (.matTokenQuery c) := rfl
theorem Words.accAlloc (d : BitVec 4) (n : BitVec 5) : Words.Statement (.accAlloc d n) := rfl
theorem Words.accFree (d : BitVec 4) (n : BitVec 5) : Words.Statement (.accFree d n) := rfl
theorem Words.matZeroFx (d : BitVec 4) (a : BitVec 6) : Words.Statement (.matZeroFx d a) := rfl
theorem Words.matZeroFp (d : BitVec 4) : Words.Statement (.matZeroFp d) := rfl
theorem Words.matDrain (d : BitVec 4) (a b : BitVec 6) : Words.Statement (.matDrain d a b) := rfl
theorem Words.mloop (d : BitVec 4) (a : BitVec 6) (rm fmt : BitVec 3) (f : BitVec 2) (i : BitVec 32) : Words.Statement (.mloop d a rm fmt f i) := rfl
theorem Words.spTload (t : BitVec 3) (a : BitVec 6) : Words.Statement (.spTload t a) := rfl
theorem Words.spTstat (d : BitVec 6) (t : BitVec 3) : Words.Statement (.spTstat d t) := rfl
theorem Words.spPart (d : BitVec 4) (a b : BitVec 6) : Words.Statement (.spPart d a b) := rfl
theorem Words.spTmul (d : BitVec 4) (a : BitVec 6) (t r : BitVec 3) : Words.Statement (.spTmul d a t r) := rfl
theorem Words.irBegin (a b : BitVec 6) : Words.Statement (.irBegin a b) := rfl
theorem Words.irEnd : Words.Statement (.irEnd) := rfl
theorem Words.tabLoad (c : BitVec 4) (a : BitVec 6) (b : BitVec 1) : Words.Statement (.tabLoad c a b) := rfl
theorem Words.slcExtend (c : BitVec 4) (a : BitVec 6) : Words.Statement (.slcExtend c a) := rfl
theorem Words.slcAbort : Words.Statement (.slcAbort) := rfl
theorem Words.slcQfree (d a : BitVec 6) : Words.Statement (.slcQfree d a) := rfl
theorem Words.detDigest (d : BitVec 4) (a : BitVec 6) : Words.Statement (.detDigest d a) := rfl
theorem Words.detOut (a b : BitVec 6) : Words.Statement (.detOut a b) := rfl
theorem Words.detFlush (d : BitVec 6) : Words.Statement (.detFlush d) := rfl
theorem Words.detSync : Words.Statement (.detSync) := rfl
theorem Words.fxPut (a : BitVec 4) : Words.Statement (.fxPut a) := rfl
theorem Words.fxPutSet (a : BitVec 4) (b : BitVec 6) : Words.Statement (.fxPutSet a b) := rfl
theorem Words.fxPutAdd (a : BitVec 4) (b : BitVec 6) : Words.Statement (.fxPutAdd a b) := rfl
theorem Words.fxGet (a : BitVec 4) : Words.Statement (.fxGet a) := rfl
theorem Words.fxSignalSet (a b : BitVec 6) : Words.Statement (.fxSignalSet a b) := rfl
theorem Words.fxSignalAdd (a b : BitVec 6) : Words.Statement (.fxSignalAdd a b) := rfl
theorem Words.fxWait (a b : BitVec 6) : Words.Statement (.fxWait a b) := rfl
theorem Words.fxWaitTry (c : BitVec 4) (a b : BitVec 6) : Words.Statement (.fxWaitTry c a b) := rfl
theorem Words.fxReduce (a : BitVec 4) : Words.Statement (.fxReduce a) := rfl
theorem Words.svLu (a : BitVec 6) : Words.Statement (.svLu a) := rfl
theorem Words.svChol (a : BitVec 6) : Words.Statement (.svChol a) := rfl
theorem Words.svTrs (a : BitVec 6) : Words.Statement (.svTrs a) := rfl
theorem Words.svRef (a : BitVec 6) : Words.Statement (.svRef a) := rfl
theorem Words.svStat (d : BitVec 6) : Words.Statement (.svStat d) := rfl
theorem Words.lanePairWord (op0 op1 : PairHalf) : Words.Statement (.lanePairWord op0 op1) := rfl
theorem Words.vadd (w : LaneWord) : Words.Statement (.vadd w) := rfl
theorem Words.vsub (w : LaneWord) : Words.Statement (.vsub w) := rfl
theorem Words.vmulLo (w : LaneWord) : Words.Statement (.vmulLo w) := rfl
theorem Words.vmulHi (w : LaneWord) : Words.Statement (.vmulHi w) := rfl
theorem Words.vmad (w : LaneWord) : Words.Statement (.vmad w) := rfl
theorem Words.vdiv (w : LaneWord) : Words.Statement (.vdiv w) := rfl
theorem Words.vrem (w : LaneWord) : Words.Statement (.vrem w) := rfl
theorem Words.vmin (w : LaneWord) : Words.Statement (.vmin w) := rfl
theorem Words.vmax (w : LaneWord) : Words.Statement (.vmax w) := rfl
theorem Words.vabs (w : LaneWord) : Words.Statement (.vabs w) := rfl
theorem Words.vneg (w : LaneWord) : Words.Statement (.vneg w) := rfl
theorem Words.vand (w : LaneWord) : Words.Statement (.vand w) := rfl
theorem Words.vor (w : LaneWord) : Words.Statement (.vor w) := rfl
theorem Words.vxor (w : LaneWord) : Words.Statement (.vxor w) := rfl
theorem Words.vandn (w : LaneWord) : Words.Statement (.vandn w) := rfl
theorem Words.vnot (w : LaneWord) : Words.Statement (.vnot w) := rfl
theorem Words.vshl (w : LaneWord) : Words.Statement (.vshl w) := rfl
theorem Words.vshr (w : LaneWord) : Words.Statement (.vshr w) := rfl
theorem Words.vrol (w : LaneWord) : Words.Statement (.vrol w) := rfl
theorem Words.vpopc (w : LaneWord) : Words.Statement (.vpopc w) := rfl
theorem Words.vclz (w : LaneWord) : Words.Statement (.vclz w) := rfl
theorem Words.vctz (w : LaneWord) : Words.Statement (.vctz w) := rfl
theorem Words.vmov (w : LaneWord) : Words.Statement (.vmov w) := rfl
theorem Words.vaddF (w : LaneWord) : Words.Statement (.vaddF w) := rfl
theorem Words.vsubF (w : LaneWord) : Words.Statement (.vsubF w) := rfl
theorem Words.vmul (w : LaneWord) : Words.Statement (.vmul w) := rfl
theorem Words.vdivF (w : LaneWord) : Words.Statement (.vdivF w) := rfl
theorem Words.vfma (w : LaneWord) : Words.Statement (.vfma w) := rfl
theorem Words.vfnma (w : LaneWord) : Words.Statement (.vfnma w) := rfl
theorem Words.vfms (w : LaneWord) : Words.Statement (.vfms w) := rfl
theorem Words.vminF (w : LaneWord) : Words.Statement (.vminF w) := rfl
theorem Words.vmaxF (w : LaneWord) : Words.Statement (.vmaxF w) := rfl
theorem Words.vabsF (w : LaneWord) : Words.Statement (.vabsF w) := rfl
theorem Words.vnegF (w : LaneWord) : Words.Statement (.vnegF w) := rfl
theorem Words.vsqrt (w : LaneWord) : Words.Statement (.vsqrt w) := rfl
theorem Words.vround (w : LaneWord) : Words.Statement (.vround w) := rfl
theorem Words.vrcp (w : LaneWord) : Words.Statement (.vrcp w) := rfl
theorem Words.vrsqrt (w : LaneWord) : Words.Statement (.vrsqrt w) := rfl
theorem Words.vexp2 (w : LaneWord) : Words.Statement (.vexp2 w) := rfl
theorem Words.vlog2 (w : LaneWord) : Words.Statement (.vlog2 w) := rfl
theorem Words.vsin (w : LaneWord) : Words.Statement (.vsin w) := rfl
theorem Words.vcos (w : LaneWord) : Words.Statement (.vcos w) := rfl
theorem Words.vtanh (w : LaneWord) : Words.Statement (.vtanh w) := rfl
theorem Words.vcvt (w : LaneWord) : Words.Statement (.vcvt w) := rfl
theorem Words.vpack (w : LaneWord) : Words.Statement (.vpack w) := rfl
theorem Words.vunpk (w : LaneWord) : Words.Statement (.vunpk w) := rfl
theorem Words.vqdec (w : LaneWord) : Words.Statement (.vqdec w) := rfl
theorem Words.vqenc (w : LaneWord) : Words.Statement (.vqenc w) := rfl
theorem Words.vrand (w : LaneWord) : Words.Statement (.vrand w) := rfl
theorem Words.vtab (w : LaneWord) : Words.Statement (.vtab w) := rfl
theorem Words.vcmp (cond : BitVec 3) (w : LaneWord) : Words.Statement (.vcmp cond w) := rfl
theorem Words.vsel (w : LaneWord) : Words.Statement (.vsel w) := rfl
theorem Words.vpand (w : LaneWord) : Words.Statement (.vpand w) := rfl
theorem Words.vpor (w : LaneWord) : Words.Statement (.vpor w) := rfl
theorem Words.vpxor (w : LaneWord) : Words.Statement (.vpxor w) := rfl
theorem Words.vpandn (w : LaneWord) : Words.Statement (.vpandn w) := rfl
theorem Words.vpnot (w : LaneWord) : Words.Statement (.vpnot w) := rfl
theorem Words.vpmov (w : LaneWord) : Words.Statement (.vpmov w) := rfl
theorem Words.vpset (w : LaneWord) : Words.Statement (.vpset w) := rfl
theorem Words.vpclr (w : LaneWord) : Words.Statement (.vpclr w) := rfl
theorem Words.vpnz (w : LaneWord) : Words.Statement (.vpnz w) := rfl
theorem Words.vpget (w : LaneWord) : Words.Statement (.vpget w) := rfl
theorem Words.vballot (w : LaneWord) : Words.Statement (.vballot w) := rfl
theorem Words.vedge (w : LaneWord) : Words.Statement (.vedge w) := rfl
theorem Words.vlaneFrom (w : LaneWord) : Words.Statement (.vlaneFrom w) := rfl
theorem Words.vlaneSwap (w : LaneWord) : Words.Statement (.vlaneSwap w) := rfl
theorem Words.vlaneLag (w : LaneWord) : Words.Statement (.vlaneLag w) := rfl
theorem Words.vlaneLead (w : LaneWord) : Words.Statement (.vlaneLead w) := rfl
theorem Words.vscan (w : LaneWord) : Words.Statement (.vscan w) := rfl
theorem Words.vred (w : LaneWord) : Words.Statement (.vred w) := rfl
theorem Words.vxs (w : LaneWord) : Words.Statement (.vxs w) := rfl
theorem Words.laneBra (w : LaneWord) : Words.Statement (.laneBra w) := rfl
theorem Words.join (w : LaneWord) : Words.Statement (.join w) := rfl
theorem Words.regang (w : LaneWord) : Words.Statement (.regang w) := rfl
theorem Words.lstop (w : LaneWord) : Words.Statement (.lstop w) := rfl
theorem Words.lyield (w : LaneWord) : Words.Statement (.lyield w) := rfl
theorem Words.ltrap (w : LaneWord) : Words.Statement (.ltrap w) := rfl
theorem Words.vld (w : LaneWord) : Words.Statement (.vld w) := rfl
theorem Words.vldRo (w : LaneWord) : Words.Statement (.vldRo w) := rfl
theorem Words.vst (w : LaneWord) : Words.Statement (.vst w) := rfl
theorem Words.vldg (w : LaneWord) : Words.Statement (.vldg w) := rfl
theorem Words.vsct (w : LaneWord) : Words.Statement (.vsct w) := rfl
theorem Words.vsctAdd (w : LaneWord) : Words.Statement (.vsctAdd w) := rfl
theorem Words.vamo (w : LaneWord) : Words.Statement (.vamo w) := rfl
theorem Words.vprefetch (w : LaneWord) : Words.Statement (.vprefetch w) := rfl
theorem Words.vfence (w : LaneWord) : Words.Statement (.vfence w) := rfl
theorem Words.vinter (w : LaneWord) : Words.Statement (.vinter w) := rfl
theorem Words.vpfx (w : LaneWord) : Words.Statement (.vpfx w) := rfl
theorem Words.vbmapAnd (w : LaneWord) : Words.Statement (.vbmapAnd w) := rfl
theorem Words.vbmapAndn (w : LaneWord) : Words.Statement (.vbmapAndn w) := rfl
theorem Words.vbmapOr (w : LaneWord) : Words.Statement (.vbmapOr w) := rfl
theorem Words.vbmapKeep (w : LaneWord) : Words.Statement (.vbmapKeep w) := rfl
theorem Words.vbmapRank (w : LaneWord) : Words.Statement (.vbmapRank w) := rfl
theorem Words.vbmapSel (w : LaneWord) : Words.Statement (.vbmapSel w) := rfl
theorem Words.eld (w : LaneWord) : Words.Statement (.eld w) := rfl
theorem Words.est (w : LaneWord) : Words.Statement (.est w) := rfl
theorem Words.epin (w : LaneWord) : Words.Statement (.epin w) := rfl
theorem Words.eunpin (w : LaneWord) : Words.Statement (.eunpin w) := rfl
theorem Words.ecvt (w : LaneWord) : Words.Statement (.ecvt w) := rfl
theorem Words.ecvtRad (w : LaneWord) : Words.Statement (.ecvtRad w) := rfl
theorem Words.eadd (w : LaneWord) : Words.Statement (.eadd w) := rfl
theorem Words.esub (w : LaneWord) : Words.Statement (.esub w) := rfl
theorem Words.emul (w : LaneWord) : Words.Statement (.emul w) := rfl
theorem Words.efma (w : LaneWord) : Words.Statement (.efma w) := rfl
theorem Words.ediv (w : LaneWord) : Words.Statement (.ediv w) := rfl
theorem Words.esqrt (w : LaneWord) : Words.Statement (.esqrt w) := rfl
theorem Words.eneg (w : LaneWord) : Words.Statement (.eneg w) := rfl
theorem Words.ecmp (w : LaneWord) : Words.Statement (.ecmp w) := rfl
theorem Words.esever (w : LaneWord) : Words.Statement (.esever w) := rfl
theorem Words.emid (w : LaneWord) : Words.Statement (.emid w) := rfl
theorem Words.erad (w : LaneWord) : Words.Statement (.erad w) := rfl
theorem Words.sliceQueuePush (q off : Nat) (data : List Byte) : Words.Statement (.sliceQueuePush q off data) := rfl
theorem Words.schedulerTakeRecord : Words.Statement (.schedulerTakeRecord) := rfl
theorem Words.prerequisiteRead (q i n : Nat) : Words.Statement (.prerequisiteRead q i n) := rfl
theorem Words.placeTeam (job team die : Nat) : Words.Statement (.placeTeam job team die) := rfl
theorem Words.crewSwitch (out inn : CrewKey) : Words.Statement (.crewSwitch out inn) := rfl
theorem Words.laneRunComplete (k : CrewKey) : Words.Statement (.laneRunComplete k) := rfl
theorem Words.gridComplete (job : Nat) : Words.Statement (.gridComplete job) := rfl
theorem Words.digestCompute (job : Nat) : Words.Statement (.digestCompute job) := rfl
theorem Words.completionWordStore (job : Nat) : Words.Statement (.completionWordStore job) := rfl
theorem Words.eventRecordWrite (secure : Bool) : Words.Statement (.eventRecordWrite secure) := rfl
theorem Words.deadlineMiss (ref : JobRef) : Words.Statement (.deadlineMiss ref) := rfl
theorem Words.budgetExhausted (job : Nat) : Words.Statement (.budgetExhausted job) := rfl
theorem Words.schedulerPreempt (job team : Nat) : Words.Statement (.schedulerPreempt job team) := rfl
theorem Words.teamContextSave (job team : Nat) : Words.Statement (.teamContextSave job team) := rfl
theorem Words.teamRestore (job team core : Nat) : Words.Statement (.teamRestore job team core) := rfl
theorem Words.graftMove (job team : Nat) : Words.Statement (.graftMove job team) := rfl
theorem Words.deferredTrap (k : CrewKey) : Words.Statement (.deferredTrap k) := rfl
theorem Words.loadReturn (k : CrewKey) : Words.Statement (.loadReturn k) := rfl
theorem Words.storePerformed (k : CrewKey) : Words.Statement (.storePerformed k) := rfl
theorem Words.amoExecute (k : CrewKey) : Words.Statement (.amoExecute k) := rfl
theorem Words.gatherComplete (k : CrewKey) : Words.Statement (.gatherComplete k) := rfl
theorem Words.scatterPerformed (k : CrewKey) : Words.Statement (.scatterPerformed k) := rfl
theorem Words.scatterAddApply (k : CrewKey) : Words.Statement (.scatterAddApply k) := rfl
theorem Words.copyComplete (k : CrewKey) : Words.Statement (.copyComplete k) := rfl
theorem Words.copyAbandon (k : CrewKey) (cause : Nat) : Words.Statement (.copyAbandon k cause) := rfl
theorem Words.weightLoadComplete (core : Nat) : Words.Statement (.weightLoadComplete core) := rfl
theorem Words.weightGranuleRefill (job team granule : Nat) : Words.Statement (.weightGranuleRefill job team granule) := rfl
theorem Words.matrixStep (core : Nat) : Words.Statement (.matrixStep core) := rfl
theorem Words.matZeroExecute (core : Nat) : Words.Statement (.matZeroExecute core) := rfl
theorem Words.matDrainExecute (core : Nat) : Words.Statement (.matDrainExecute core) := rfl
theorem Words.spTmulExecute (core : Nat) : Words.Statement (.spTmulExecute core) := rfl
theorem Words.accDeadlockBreak (core : Nat) : Words.Statement (.accDeadlockBreak core) := rfl
theorem Words.espalierCompile (cluster : Nat) : Words.Statement (.espalierCompile cluster) := rfl
theorem Words.espalierCompileDone (cluster : Nat) : Words.Statement (.espalierCompileDone cluster) := rfl
theorem Words.whetstoneDecide (k : CrewKey) : Words.Statement (.whetstoneDecide k) := rfl
theorem Words.walkerReclaim (job team : Nat) : Words.Statement (.walkerReclaim job team) := rfl
theorem Words.spPartComplete (k : CrewKey) : Words.Statement (.spPartComplete k) := rfl
theorem Words.vedgeDelivery (k : CrewKey) (east : Bool) : Words.Statement (.vedgeDelivery k east) := rfl
theorem Words.translationAck (i : Nat) : Words.Statement (.translationAck i) := rfl
theorem Words.faultRecordWrite (secure : Bool) : Words.Statement (.faultRecordWrite secure) := rfl
theorem Words.frespRetry (secure io : Bool) (merge : Nat) : Words.Statement (.frespRetry secure io merge) := rfl
theorem Words.frespFail (secure io : Bool) (merge : Nat) : Words.Statement (.frespFail secure io merge) := rfl
theorem Words.monitorWindowEnd (die : Nat) (advice : List MonAdvice) : Words.Statement (.monitorWindowEnd die advice) := rfl
theorem Words.replicaCreate (die : Nat) (page : MonAdvice) : Words.Statement (.replicaCreate die page) := rfl
theorem Words.pageCollapse (frame : Nat) : Words.Statement (.pageCollapse frame) := rfl
theorem Words.bankModeWrite (cluster bank : Nat) (v : W32) : Words.Statement (.bankModeWrite cluster bank v) := rfl
theorem Words.bankTransitionComplete (cluster bank : Nat) : Words.Statement (.bankTransitionComplete cluster bank) := rfl
theorem Words.qctlWrite (q : Nat) (v : W64) : Words.Statement (.qctlWrite q v) := rfl
theorem Words.dqctlWrite (n : Nat) (v : W64) : Words.Statement (.dqctlWrite n v) := rfl
theorem Words.qstatClear (q : Nat) (v : W64) : Words.Statement (.qstatClear q v) := rfl
theorem Words.ringHeadWrite (ring : Nat) (v : W64) : Words.Statement (.ringHeadWrite ring v) := rfl
theorem Words.ringBaseSizeWrite (ring : Nat) (isSize : Bool) (v : W64) : Words.Statement (.ringBaseSizeWrite ring isSize v) := rfl
theorem Words.asidinvWrite (v : W64) : Words.Statement (.asidinvWrite v) := rfl
theorem Words.preemptWrite (second : Bool) (v : W64) : Words.Statement (.preemptWrite second v) := rfl
theorem Words.slcabortWrite (second : Bool) (v : W64) : Words.Statement (.slcabortWrite second v) := rfl
theorem Words.pstateEnterD3 : Words.Statement (.pstateEnterD3) := rfl
theorem Words.pstateRun : Words.Statement (.pstateRun) := rfl
theorem Words.pcapWrite (v : W64) : Words.Statement (.pcapWrite v) := rfl
theorem Words.attgoWrite (v : W64) : Words.Statement (.attgoWrite v) := rfl
theorem Words.attestationReportDone : Words.Statement (.attestationReportDone) := rfl
theorem Words.errorLogClear (word : Nat) (v : W64) : Words.Statement (.errorLogClear word v) := rfl
theorem Words.registerWrite (off : W32) (v : W64) : Words.Statement (.registerWrite off v) := rfl
theorem Words.sensorThresholdCrossed (die temp power : Nat) : Words.Statement (.sensorThresholdCrossed die temp power) := rfl
theorem Words.p1EscalateTimeout : Words.Statement (.p1EscalateTimeout) := rfl
theorem Words.powerStateRelax : Words.Statement (.powerStateRelax) := rfl
theorem Words.dramTempHot (die temp : Nat) : Words.Statement (.dramTempHot die temp) := rfl
theorem Words.dramCoolTimeout (die temp : Nat) : Words.Statement (.dramCoolTimeout die temp) := rfl
theorem Words.thermalTrip (die : Nat) : Words.Statement (.thermalTrip die) := rfl
theorem Words.coldReset (image : List Byte) (setup : BootSetup) : Words.Statement (.coldReset image setup) := rfl
theorem Words.kalbyFlitRetry (port : Nat) : Words.Statement (.kalbyFlitRetry port) := rfl
theorem Words.kalbyPortDown (port : Nat) : Words.Statement (.kalbyPortDown port) := rfl
theorem Words.fabricIngressAccess (va : W64) (kind : IngressKind) : Words.Statement (.fabricIngressAccess va kind) := rfl
theorem Words.fabricOpComplete (k : CrewKey) (data : List Byte) : Words.Statement (.fabricOpComplete k data) := rfl
theorem Words.fabricOpAbandon (k : CrewKey) (reason : Nat) : Words.Statement (.fabricOpAbandon k reason) := rfl
theorem Words.fxReduceCombine (c : Contribution) : Words.Statement (.fxReduceCombine c) := rfl
theorem Words.hostCxlMemAccess (addr : Nat) (n : Nat) (write : Option (List Byte)) : Words.Statement (.hostCxlMemAccess addr n write) := rfl
theorem Words.flush (job : Nat) : Words.Statement (.flush job) := rfl
theorem Words.illegalInstruction (lane : Bool) (w : W96) : Words.Statement (.illegalInstruction lane w) := rfl
theorem Words.solveRecordFinished (k : CrewKey) : Words.Statement (.solveRecordFinished k) := rfl
theorem Words.cmoComplete (k : CrewKey) : Words.Statement (.cmoComplete k) := rfl
theorem Words.segmentSpillComplete (job team : Nat) : Words.Statement (.segmentSpillComplete job team) := rfl
theorem Words.dieLinkFailure (die : Nat) : Words.Statement (.dieLinkFailure die) := rfl
theorem Words.softError (place : ErrorPlace) (bit : Nat) (double : Bool) : Words.Statement (.softError place bit double) := rfl

end Sys2Proof.Laws
end

