-- ==== Sys2Proof/Tests/Slice0.lean ====
section
/-! SUPPORT. Tests of the model: the words that the spec assembles by hand, ill-formed terms, single steps whose results are
worked out from the spec, and for every statement with hypotheses a concrete state and operands that meet them. -/

namespace Sys2Proof.Tests

-- one theorem at a time: many kernel evaluations at once ask for too many threads
set_option Elab.async false

open Sys2Proof.Machine

/-! ## Ill-formed terms (WellFormed) -/

/-- A write of c0 is illegal (R44). -/
theorem test_wf_c0 : [Instr.cmp 0 1 2 0, .cmpF64 0 1 2 0, .cmpF32 0 1 2 0, .cmpi 0 1 0 0, .predAnd 0 1 2, .predOr 0 1 2,
    .predXor 0 1 2, .predAndn 0 1 2, .predOrn 0 1 2, .predNand 0 1 2, .predNor 0 1 2, .predXnor 0 1 2, .predMov 0 1,
    .predNot 0 1, .predSet 0, .predClr 0, .predNz 0 1, .spawnTry 0 1 2, .hBind 1 2 0, .hTry 1 0, .barAlloc 0 1 2,
    .qPushTry 0 1 2 0, .qPopTry 1 2 0 0, .matTokenQuery 0, .tabLoad 0 1 0, .slcExtend 0 1, .fxWaitTry 0 1 2].all
    (fun i => !i.wf) = true := by decide +kernel

/-- Condition and selector codes that no table assigns (R105, R114, R115). -/
theorem test_wf_codes : [Instr.cmp 1 1 2 12, .cmpF64 1 1 2 7, .cmpF32 1 1 2 7, .cmpi 1 1 12 0, .xrd 1 0x0C, .xrd 1 0x15,
    .xwr 1 0, .xwr 1 5, .xwr 1 0x13, .ld 1 2 7 0, .ldRo 1 2 7 0, .amo 1 2 3 11 0 0, .amo 1 2 3 0 0 7, .fence 0 0, .fence 0 7,
    .ewait 0 7, .qPush 1 2 7, .qPop 1 2 7, .qPushTry 1 1 2 7, .qPopTry 1 2 1 7].all (fun i => !i.wf) = true := by
  decide +kernel

/-- Immediates and names outside their ranges (R45, R110, R112, R117, R203, R213, R216, R225, R267, R330). -/
theorem test_wf_ranges : [Instr.lrunFar 2, .lrunFarReg 1 1, .cpYield 1 3, .lsnapPair 1 2 15, .trap 0x7F, .cmoWb 1 2 1,
    .cmoWbinv 1 2 7, .cmoInv 1 2 0, .cmoIinv 1 2 7, .cmoRodrop 1 2 1, .accAlloc 0 0, .accAlloc 15 2, .accFree 0 0,
    .accFree 1 16, .mloop 0 8 0 7 0 1, .mloop 0 8 6 0 0 1, .mloop 0 62 0 0 0 1, .mloop 0 8 1 2 0 1, .mloop 0 8 0 0 0 0,
    .spTmul 0 63 0 0, .spTmul 0 8 0 6, .svLu 62, .svChol 63, .svTrs 62, .svRef 62].all (fun i => !i.wf) = true := by
  decide +kernel

/-- A lane word with every field zero but those given. -/
def word (ty : BitVec 4) (d : BitVec 10) (a b c : BitVec 12) (x : BitVec 14) : LaneWord :=
  ⟨false, ty, d, 0, a, b, c, 0, 0, 0, 0, 0, x⟩

/-- A floating lane word rounding by the crew default. -/
def wordF (ty : BitVec 4) (d : BitVec 10) (a b c : BitVec 12) : LaneWord := ⟨false, ty, d, 0, a, b, c, 0, 0, 0, 5, 0, 0⟩

/-- The static rules of lane words, one broken in each term: a type not listed, a destination pair not aligned, p0 as a
destination, a source encoding that R49 calls illegal, an immediate form where none is accepted, a source field that is to
be zero, U outside lane branches, NW without a destination, a rounding mode above 101 or where nothing rounds, MOD and X
bits that are to be zero, a neighbour where none is accepted, NW and a latch in the certified range, and a predicated
lane control (R47 to R56, R65, R127, R155). -/
theorem test_wf_lane : [Instr.vadd (word 8 4 1 2 0 0), .vadd (word 2 5 2 4 0 0), .vcmp 0 (word 0 0 1 2 0 0),
    .vadd (word 0 4 0x404 2 0 0), .vsel ⟨true, 0, 4, 0, 1, 2, 0, 0, 0, 0, 0, 0, 1⟩, .vadd (word 0 4 1 2 3 0),
    .vadd ⟨false, 0, 4, 0, 1, 2, 0, 0, 0, 1, 0, 0, 0⟩, .vst ⟨false, 0, 0, 1, 2, 0, 4, 0, 0, 0, 0, 0, 0⟩,
    .vaddF ⟨false, 9, 4, 0, 1, 2, 0, 0, 0, 0, 6, 0, 0⟩, .vadd ⟨false, 0, 4, 0, 1, 2, 0, 0, 0, 0, 1, 0, 0⟩,
    .vadd ⟨false, 0, 4, 0, 1, 2, 0, 0, 0, 0, 0, 2, 0⟩, .vadd (word 0 4 1 2 0 1), .vmad (word 0 4 1 2 0x801 0),
    .eadd ⟨false, 8, 16, 1, 8, 12, 0, 0, 0, 0, 0, 0, 0⟩, .eadd (word 8 16 0x400 12 0 0),
    .join ⟨false, 0, 0, 0, 0, 0, 0, 1, 0, 0, 0, 0, 0⟩].all (fun i => !i.wf) = true := by decide +kernel

/-- The pairing rules of R59: two destinations in one bank, two A sources in one bank, two special functions, two compares
of one predicate; and a half-opcode that R60 does not list. -/
theorem test_wf_pair : [Instr.lanePairWord ⟨0x20, 4, 8, 1, 2, 0⟩ ⟨0x20, 4, 16, 3, 4, 0⟩,
    .lanePairWord ⟨0x20, 4, 8, 1, 2, 0⟩ ⟨0x20, 4, 17, 9, 4, 0⟩, .lanePairWord ⟨0x60, 4, 8, 1, 0, 0⟩ ⟨0x61, 4, 17, 3, 0, 0⟩,
    .lanePairWord ⟨0x40, 0, 3, 1, 2, 0⟩ ⟨0x41, 0, 3, 4, 5, 0⟩, .lanePairWord ⟨0x02, 0, 8, 1, 2, 0⟩ ⟨1, 0, 0, 0, 0, 0⟩].all
    (fun i => !i.wf) = true := by decide +kernel

/-- Well-formed neighbours of the terms above. -/
theorem test_wf_good : [Instr.cmp 1 1 2 11, .ld 1 2 6 0, .lrunFar 4, .lsnapPair 1 2 14, .trap 0x80, .accAlloc 14 2,
    .mloop 0 8 5 0 0 1, .svLu 61, .vadd (word 2 4 2 4 0 0), .vcmp 0 (word 0 1 1 2 0 0), .vaddF (wordF 9 4 1 2 0),
    .eadd (word 8 16 8 12 0 0), .lanePairWord ⟨0x20, 4, 8, 1, 2, 0⟩ ⟨0x20, 4, 17, 3, 4, 0⟩].all Instr.wf = true := by
  decide +kernel

/-! ## Words that the spec assembles by hand -/

/-- The table at the end of the scalar chapter, and the examples of the encoding chapter's notes. -/
theorem test_decode_scalar : decodeScalar 0x04310520 0 = some (.addW 3 4 5) ∧ decodeScalar 0x2421C864 0 = some (.cmpi 2 7 2 100) ∧
    decodeScalar 0x34028200 0 = some (.jr 10 0 2) ∧ decodeScalar 0x34000001 0 = some (.ret 0 0) ∧
    decodeScalar 0x48000040 0 = some (.lrun 0x40) ∧ decodeScalar 0xF8900300 0x12345678 = some (.liW 9 0x12345678) ∧
    decodeScalar 0x5C008501 0 = some (.trap 0x85) ∧ decodeScalar 0x5C000004 0 = some .exit ∧
    decodeScalar 0x1C5FFFFD 0 = some (.li 5 0xFFFFD) ∧ decodeScalar 0x2CFFFFF0 0 = some (.bra 3 1 0x1FFFF0) := by decide +kernel

/-- The tables of the memory chapter and of its program. -/
theorem test_decode_memory : decodeScalar 0x3C415002 0 = some (.ld 4 5 4 2) ∧ decodeScalar 0x40417FFE 0 = some (.st 4 5 3 0xFFE) ∧
    decodeScalar 0x44414608 0 = some (.amo 4 5 6 0 1 0) ∧ decodeScalar 0x6000001D 0 = some (.fence 3 5) ∧
    decodeScalar 0x64000102 0 = some (.ewait 1 2) ∧ decodeScalar 0x68322200 0 = some (.cpIssueBar 3 2 2) ∧
    decodeScalar 0x70000102 0 = some (.barMeet 1) ∧ decodeScalar 0x7C72400D 0 = some (.qPop 7 9 5) ∧
    decodeScalar 0x70424100 0 = some (.barAlloc 4 9 1) ∧ decodeScalar 0x70000101 0 = some (.barMark 1) ∧
    decodeScalar 0x70000105 0 = some (.barFree 1) ∧ decodeScalar 0x60000002 0 = some (.fence 0 2) ∧
    decodeScalar 0x6000000A 0 = some (.fence 1 2) ∧ decodeScalar 0x40807006 0 = some (.st 8 1 3 6) ∧
    decodeScalar 0x3C805806 0 = some (.ld 8 1 6 6) := by decide +kernel

/-- The examples of the matrix, the sparse and the region instructions. -/
theorem test_decode_engines : decodeScalar 0x74000008 0 = some .matTokenTake ∧ decodeScalar 0x74000009 0 = some .matTokenPass ∧
    decodeScalar 0x74400210 0 = some (.accAlloc 4 2) ∧ decodeScalar 0x74228B20 0 = some (.matDrain 2 10 11) ∧
    decodeScalar 0xF8220101 0x40 = some (.mloop 2 8 0 0 1 0x40) ∧ decodeScalar 0xF8030118 8 = some (.mloop 0 12 0 6 0 8) ∧
    decodeScalar 0x79410508 0 = some (.spPart 5 4 5) ∧ decodeScalar 0x78340220 0 = some (.spTmul 3 16 2 0) ∧
    decodeScalar 0x78228000 0 = some (.spTload 2 10) ∧ decodeScalar 0x7A900001 0 = some (.spTstat 41 0) ∧
    decodeScalar 0x94020900 0 = some (.irBegin 8 9) ∧ decodeScalar 0x94000001 0 = some .irEnd ∧
    decodeScalar 0x4C010510 0 = some (.lsnapPair 4 5 0) := by decide +kernel

/-- The tables of the scheduling, the solve and the fabric chapters. -/
theorem test_decode_units : decodeScalar 0x84114000 0 = some (.slcExtend 1 5) ∧ decodeScalar 0x84000001 0 = some .slcAbort ∧
    decodeScalar 0x8461C002 0 = some (.slcQfree 6 7) ∧ decodeScalar 0xA080C000 0 = some (.detDigest 2 3) ∧
    decodeScalar 0xA0010501 0 = some (.detOut 4 5) ∧ decodeScalar 0xA0900002 0 = some (.detFlush 9) ∧
    decodeScalar 0xA0000003 0 = some .detSync ∧ decodeScalar 0x44A10999 0 = some (.amo 10 4 9 9 1 1) ∧
    decodeScalar 0x54E00000 0 = some (.xrd 14 0) ∧ decodeScalar 0x44B10C8A 0 = some (.amo 11 4 12 8 1 2) ∧
    decodeScalar 0x8C020000 0 = some (.svLu 8) ∧ decodeScalar 0x8C020001 0 = some (.svChol 8) ∧
    decodeScalar 0x8C020002 0 = some (.svTrs 8) ∧ decodeScalar 0x8C030003 0 = some (.svRef 12) ∧
    decodeScalar 0x8C500004 0 = some (.svStat 5) ∧ decodeScalar 0x88021401 0 = some (.fxPutSet 2 20) ∧
    decodeScalar 0x88020004 0 = some (.fxGet 2) ∧ decodeScalar 0x8801870C 0 = some (.fxWait 6 7) ∧
    decodeScalar 0x88030010 0 = some (.fxReduce 3) := by decide +kernel

/-- Words that R46 and R47 call illegal: OP 0x00, a reserved OP, an FN that no table assigns, and a non-zero unused field. -/
theorem test_decode_illegal : decodeScalar 0 0 = none ∧ decodeScalar 0xA4000000 0 = none ∧ decodeScalar 0xFC000000 0 = none ∧
    decodeScalar 0x5C000006 0 = none ∧ decodeScalar 0x5C100000 0 = none ∧ decodeScalar 0x0400001C 0 = none ∧
    decodeScalar 0x5C000501 0 = none ∧ decodeScalar 0xF8000500 0 = none := by decide +kernel

/-- The lane words of the examples: the branches of absdiff, a load through a snapshot slot, a vfence, certified words, an
intersection, an exchange, an immediate, and the two pairs. -/
theorem test_decode_lane : decodeLane 0x9C0000000600060000000100 = some (.laneBra ⟨true, 0, 0, 0, 3, 0, 0x300, 0, 0, 0, 0, 0, 0x100⟩) ∧
    decodeLane 0x9C0000000000040000000000 = some (.laneBra ⟨true, 0, 0, 0, 0, 0, 0x200, 0, 0, 0, 0, 0, 0⟩) ∧
    decodeLane 0x9C0000000600060002000100 = some (.laneBra ⟨true, 0, 0, 0, 3, 0, 0x300, 0, 0, 1, 0, 0, 0x100⟩) ∧
    decodeLane 0x2009028A00C0000000004000 = some (.vld ⟨false, 9, 10, 0, 0x500, 0x600, 0, 0, 0, 0, 0, 1, 0⟩) ∧
    decodeLane 0x2003010A0000000000004200 = some (.vld ⟨false, 3, 4, 0, 0x500, 0, 0, 0, 0, 0, 0, 1, 0x200⟩) ∧
    decodeLane 0x22000000000000000000001D = some (.vfence ⟨false, 0, 0, 0, 0, 0, 0, 0, 0, 0, 0, 0, 0x1D⟩) ∧
    decodeLane 0x310804001001800000000000 = some (.eadd (word 8 16 8 12 0 0)) ∧
    decodeLane 0x318800402803000000000004 = some (.ecmp (word 8 1 0x14 0x18 0 4)) ∧
    decodeLane 0x280105000801001800000006 = some (.vinter (word 1 20 4 8 12 6)) ∧
    decodeLane 0x198F00000000000000010000 = some (.vedge ⟨false, 15, 0, 0, 0, 0, 0, 0, 0, 0, 0, 4, 0⟩) := by decide +kernel

theorem test_decode_pair : decodeLane 0x504020004008308088018020 = some (.lanePairWord ⟨0x20, 4, 8, 1, 2, 0⟩ ⟨0x30, 4, 17, 3, 4, 0⟩) ∧
    decodeLane 0x61400C02802C3160A0030040 = some (.lanePairWord ⟨0x42, 4, 3, 10, 11, 0⟩ ⟨0x31, 3, 20, 6, 8, 0⟩) ∧
    decodeLane 0xC00000000000000000000000 = none ∧ decodeLane 0 = none := by decide +kernel

/-- vadd.s64 v6, v8, #-2: the immediate is split as B 0xFFF, C 0xFFF and X 0x3F80 (R56). -/
theorem test_immediate_split : imm32 ⟨true, 2, 6, 0, 8, 0xFFF, 0xFFF, 0, 0, 0, 0, 0, 0x3F80⟩ = 0xFFFFFFFE ∧
    immVal ⟨true, 2, 6, 0, 8, 0xFFF, 0xFFF, 0, 0, 0, 0, 0, 0x3F80⟩ .s64 = 0xFFFFFFFFFFFFFFFE := by decide +kernel

/-- The encoder gives the words of the examples back. -/
theorem test_encode : encode (.liW 9 0x12345678) = [0xF8900300, 0x12345678] ∧ encode (.amo 10 4 9 9 1 1) = [0x44A10999] ∧
    encode (.laneBra ⟨true, 0, 0, 0, 3, 0, 0x300, 0, 0, 0, 0, 0, 0x100⟩) = [0x00000100, 0x06000600, 0x9C000000] := by
  decide +kernel

/-! ## Single steps -/

/-- A crew about to issue a scalar instruction: alone in its team and job slice, on core 0, outside a handler. -/
def S : State := placeWord State.reset 32 0

/-- The same with a handler. -/
def T : State := { S with job := { S.job with rcd := { S.job.rcd with handler := 0x2000 } } }

/-- The same on a device that is up. -/
def U : State := { S with dev := { S.dev with bootReady := true } }

/-- The same in deterministic mode. -/
def D : State := { S with job := { S.job with rcd := { S.job.rcd with flags := 1 } } }

/-- The same with values in registers, from s1 on. -/
def withRegs (l : List W64) (s : State) : State := (l.zipIdx 1).foldl (fun t p => wrS p.2 p.1 t) s

/-- The crew in focus changed. -/
def crewOf (s : State) (f : Crew → Crew) : State := { s with crew := f s.crew }

/-- A one-word lane program in a crew of one slice, v1 to v4 of lanes 0 to 3 filled. -/
def L : State :=
  let s := placeWord State.reset 96 0
  let j := { s.job with rcd := { s.job.rcd with slices := 1 } }
  let r := startRun 1 ⟨0x1000, [], 0, false, 0, 0, false, false⟩
  let t := { s with job := j, crew := { s.crew with ln := { s.crew.ln with cur := some r } } }
  [(1, [5, 2, 9, 4]), (2, [3, 7, 9, 8]), (4, [0x3F800000, 0x40000000, 0xC0000000, 0x7FC00000])].foldl (fun u p =>
    (p.2.zipIdx).foldl (fun x q => putV p.1 q.2 q.1 x) u) t

/-- The run and the head gang of L. -/
def run0 : ARun := startRun 1 ⟨0x1000, [], 0, false, 0, 0, false, false⟩
def gang0 : Gang := ⟨0x1000, [0], .ready⟩

/-- A register after an instruction. -/
noncomputable def regAfter (i : Instr) (s : State) (n : Nat) : Option W64 :=
  match exec i s with
  | .next t => some (rdS t n)
  | _ => none

/-- A lane register after an instruction, for lanes 0 to 3. -/
noncomputable def lanesAfter (i : Instr) (s : State) (v : Nat) : Option (List Nat) :=
  match exec i s with
  | .next t => some ((List.range 4).map (rdV t v))
  | _ => none

/-- The scalar pc and the head gang's pc after a step. -/
noncomputable def pcsAfter (s : State) : Option (W64 × Option W64) :=
  match step s with
  | .next t => some (t.crew.sc.pc, (headGang t).map (fun p => p.2.pc))
  | _ => none

/-- The smallest 32-bit number divided by -1 is itself (R78); of 64 bits, divided by zero, the smallest (R79). -/
theorem test_div : regAfter (.divW 3 1 2) (withRegs [0x80000000, 0xFFFFFFFF] S) 3 = some 0xFFFFFFFF80000000 ∧
    regAfter (.div 3 1 2) (withRegs [0xFFFFFFFFFFFFFFF9, 0] S) 3 = some 0x8000000000000000 ∧
    regAfter (.rem 3 1 2) (withRegs [0xFFFFFFFFFFFFFFF9, 2] S) 3 = some 0xFFFFFFFFFFFFFFFF := by decide +kernel

/-- A 32-bit sum wraps and is sign-extended; a saturating one stays at the bound (R101). -/
theorem test_add : regAfter (.addW 3 1 2) (withRegs [0x7FFFFFFF, 1] S) 3 = some 0xFFFFFFFF80000000 ∧
    regAfter (.addSatW 3 1 2) (withRegs [0x7FFFFFFF, 1] S) 3 = some 0x7FFFFFFF ∧
    regAfter (.add 1 1 1) (withRegs [0x8000000000000001] S) 1 = some 2 := by decide +kernel

/-- 1 / 3 in binary64, rounded to nearest, is 0x3FD5555555555555; 0.5 of binary32 is 0x3F000000 (R80, R83). -/
theorem test_fdiv : regAfter (.fdivF64 3 1 2) (withRegs [0x3FF0000000000000, 0x4008000000000000] S) 3 =
    some 0x3FD5555555555555 ∧ regAfter (.fdivF32 3 1 2) (withRegs [0x3F800000, 0x40000000] S) 3 = some 0x3F000000 := by
  decide +kernel

/-- The product (1 + 2^-12)^2 is 1 + 2^-11 + 2^-24, a tie that goes to the even 0x3F801000; with the sum in one rounding
2^-11 + 2^-24 is 0x3A000400 (the worked example of the encoding chapter's notes). -/
theorem test_fma : regAfter (.fmulF32 3 1 2) (withRegs [0x3F800800, 0x3F800800] S) 3 = some 0x3F801000 ∧
    regAfter (.ffmaF32 3 1 2) (withRegs [0x3F800800, 0x3F800800, 0xBF800000] S) 3 = some 0x3A000400 := by decide +kernel

/-- loop from a count of 1 falls through; of 0 it branches with 2^64 - 1 (R109). -/
theorem test_loop : regAfter (.loop 1 0x3FFF) (withRegs [0] S) 1 = some 0xFFFFFFFFFFFFFFFF ∧
    regAfter (.loop 1 0x3FFF) (withRegs [1] S) 1 = some 0 := by decide +kernel

/-- calli s63, s63 jumps to the old s63 (R108). -/
theorem test_calli : pcsAfter { withRegs [] (wrS 63 0x1040 (State.reset.withFetchWord 32 0x37FFC002)) with
    turns := [.scalar hostKey] } = some (0x1040, none) := by decide +kernel

/-- A step runs the word at the pc: li s5, #-3 and the scalar stream goes on by 4, and li.w by 8 (R42). -/
theorem test_step_scalar : pcsAfter (State.reset.withFetchWord 32 0x1C5FFFFD) = some (0x1004, none) ∧
    pcsAfter (State.reset.withFetchWord 64 0x12345678F8900300) = some (0x1008, none) := by decide +kernel

/-- A step of the lane stream runs the word at the gang's pc, which goes on by 12 (R42). -/
theorem test_step_lane : pcsAfter (State.reset.withFetchWord 96 0x198F00000000000000010000) ≠ none ∧
    (pcsAfter (State.reset.withFetchWord 96 0x001003000000000000000000)).isSome = true := by decide +kernel

/-- A trap code at or above 0x80 with no handler fails the job slice with REASON 6 (R295). -/
theorem test_trap_fails : (match exec (.trap 0x85) S with
    | .next t => some (t.job.failReason, t.job.failCause)
    | _ => none) = some (6, 0x85) := by decide +kernel

/-- trap.pc after trap is the following instruction (R118). -/
theorem test_trap_pc : (match exec (.trap 0x85) T with
    | .next t => some (t.crew.sc.pc, t.crew.sc.trap.cause, t.crew.sc.trap.pc)
    | _ => none) = some (0x2000, 0x85, 0x1004) := by decide +kernel

/-- jr to an address with bits [1:0] set traps 0x07, and outside the apertures 0x06 (R42, R108). -/
theorem test_jr_traps : (match exec (.jr 1 0 0) (withRegs [0x1002] T) with
    | .next t => some (t.crew.sc.trap.cause, t.crew.sc.trap.info)
    | _ => none) = some (7, 0x1002) ∧
    (match exec (.jr 1 0 0) (withRegs [0x4000000000001002] T) with
    | .next t => some (t.crew.sc.trap.cause, t.crew.sc.trap.info)
    | _ => none) = some (6, 0x4000000000001002) := by decide +kernel

/-- absdiff of the lane chapter: vsub.s32 over four lanes, 5 - 3, 2 - 7, 9 - 9, 4 - 8. -/
theorem test_vsub : lanesAfter (.vsub (word 0 3 1 2 0 0)) L 3 = some [2, 0xFFFFFFFB, 0, 0xFFFFFFFC] := by decide +kernel

/-- vmul.f32 of 1, 2, -2 and a NaN by themselves: 1, 4, 4 and the canonical quiet NaN (R81, R82). -/
theorem test_vmul : lanesAfter (.vmul (wordF 9 5 4 4 0)) L 5 = some [0x3F800000, 0x40800000, 0x40800000, 0x7FC00000] := by
  decide +kernel

/-- vcmp.lt.s32 sets the lanes where v1 < v2: 1 and 3 (the worked routine). -/
theorem test_vcmp : (match exec (.vcmp 2 (word 0 3 1 2 0 0)) L with
    | .next t => some ((List.range 4).map (rdP t 3))
    | _ => none) = some [false, true, false, true] := by decide +kernel

/-- A neighbour source reads the lane before, and the edge register at lane 0 (R147). -/
theorem test_neighbour : lanesAfter (.vadd (word 0 3 0x801 0x801 0 0)) L 3 = some [0, 10, 4, 18] := by decide +kernel

/-- SHAKE256 of the empty message begins 46 b9 dd 2b (FIPS 202). -/
theorem test_shake : (shake256 4 []).map (·.toNat) = [0x46, 0xB9, 0xDD, 0x2B] := by decide +kernel

/-! ## Witnesses: the scalar stream

Each theorem gives a state and operands that meet every hypothesis of a clause together. -/

theorem witness_IntegerOperations : Expect.intOp (.divW 3 1 2) = some (.div, true, 3, 1, 2) ∧ liveIn S (3 : BitVec 6).toNat = false ∧
    Expect.intOp (.popc 63 0) = some (.popc, false, 63, 0, 0) := by decide +kernel

theorem witness_FloatOperations : Expect.floatOp (withRegs [0x3FF0000000000000, 0x4008000000000000] S) (.fdivF64 3 1 2) =
    some (3, 0x3FD5555555555555, fNX) ∧ liveIn S 3 = false := by decide +kernel

theorem witness_RepresentableValues : fmtF8b ∈ [fmtF64, fmtF32, fmtF16, fmtBf16, fmtF8a, fmtF8b] ∧
    0x7B < 2 ^ (1 + fmtF8b.e + fmtF8b.m) ∧ isNanC fmtF8b 0x7B = false ∧ isNanC fmtF64 0 = false := by decide +kernel

theorem witness_Immediates : Expect.immOp (withRegs [5] S) (.addi 3 1 0x3FFF) = some (3, 4, 4) ∧
    Expect.immOp S (.liWh 3 0x80000000) = some (3, 0x8000000000000000, 8) ∧ liveIn S 3 = false := by decide +kernel

theorem witness_Predicates : Expect.predOp (withRegs [5, 6] S) (.cmp 1 1 2 2) = some (1, true, 0) ∧
    Expect.predOp S (.predSet 15) = some (15, true, 0) ∧ liveIn S (0 : BitVec 6).toNat = false := by decide +kernel

theorem witness_RegisterTransfers : Expect.transfer (withRegs [0x1040] S) (.calli 63 1 0 0) = some (some 63, 0x1040) ∧
    Expect.target (withRegs [0x1040] S) (.calli 63 1 0 0) = some 0x1040 ∧ Expect.inCode 0x1040 = true ∧
    Expect.onWord 0x1040 = true ∧ liveIn S 63 = false ∧
    Expect.target (withRegs [0x3000000000000000] S) (.jr 1 0 0) = some 0x3000000000000000 ∧
    Expect.inCode 0x3000000000000000 = false ∧ Expect.target (withRegs [0x2000000000000003] S) (.jr 1 0 0) =
    some 0x2000000000000003 ∧ Expect.inCode 0x2000000000000003 = true ∧ Expect.onWord 0x2000000000000003 = false := by
  decide +kernel

theorem witness_BranchAndCall : (rdC S (0 : BitVec 4).toNat ^^ decide ((0 : BitVec 1) = 1)) = true ∧ liveIn S 63 = false ∧
    (rdC S (1 : BitVec 4).toNat ^^ decide ((0 : BitVec 1) = 1)) = false := by decide +kernel

theorem witness_LoopCounts : liveIn S (1 : BitVec 6).toNat = false ∧ rdS (withRegs [2] S) 1 ≠ 1 ∧ rdS (withRegs [1] S) 1 = 1 ∧
    rdS (withRegs [0] S) 1 = 0 := by decide +kernel

/-- A crew with a run in execution and one queued. -/
def R1 : State := crewOf S (fun c => { c with ln := { c.ln with cur := some run0, queue := [run0.run] } })

theorem witness_LaneRuns : Expect.runTarget S (.lrun 0x40) = some (0x1100, 4) ∧ roleMay (roleOf S) .lanes = true ∧
    Expect.inCode 0x1100 = true ∧ Expect.onWord 0x1100 = true ∧ S.crew.handler = none ∧ S.crew.ln.cur = none ∧
    S.crew.ln.queue = [] ∧ R1.crew.ln.cur = some run0 ∧ R1.crew.ln.queue.length < 15 ∧ R1.crew.handler = none ∧
    Expect.runTarget R1 (.lrunFar 0x100) = some (0x1100, 8) := by decide +kernel

theorem witness_LaneWaits : runsOut S.crew = 0 ∧ runsOut R1.crew ≤ (2 : BitVec 4).toNat ∧ (1 : BitVec 4).toNat < runsOut R1.crew := by
  decide +kernel

theorem witness_SpecialRegisters : Expect.selector S 0x0B = some 0x102001 ∧ Expect.selector S 0x06 = some 0 ∧
    liveIn S 3 = false ∧
    (Expect.selectorWrite (rdS (withRegs [0xD] S) 1) S.crew.sc 0x03).isSome = true ∧
    (Expect.selectorWrite 5 S.crew.sc 0x12).isSome = true := by decide +kernel

/-- A core with another ready crew that is not active. -/
def Y : State := { S with crews := [{ S.crew with key := ⟨1, 0, 1⟩, active := false }] }

theorem witness_Yield : (isDet D = true ∨ pendingReady D = false) ∧ isDet Y = false ∧ pendingReady Y = true := by
  decide +kernel

theorem witness_canTrap : Expect.canTrap T := by unfold Expect.canTrap; decide +kernel
theorem witness_quiet : Expect.quiet T := by unfold Expect.quiet; decide +kernel
theorem witness_inFocus : Expect.inFocus S := by unfold Expect.inFocus; decide +kernel
theorem witness_canTrap_L : Expect.canTrap { L with job := { L.job with rcd := { L.job.rcd with handler := 0x2000 } } } := by
  unfold Expect.canTrap; decide +kernel

theorem witness_SoftwareTraps : (∃ c : BitVec 8, Instr.trap 0xFF = .trap c ∧ 0xFF = c.toNat) ∧ (Instr.brk = .brk ∧ 0x18 = 0x18) :=
  ⟨⟨0xFF, rfl, rfl⟩, rfl, rfl⟩

/-- A crew of the copy role. -/
def copyRole : State := { T with job := { T.job with rcd := { T.job.rcd with roles := 1 } } }

theorem witness_RoleViolations : Expect.engineClass (.lrun 0) = some .lanes ∧ roleMay (roleOf copyRole) .lanes = false ∧
    Expect.engineClass (.svRef 61) = some .solve ∧ roleMay (roleOf copyRole) .solve = false := by decide +kernel

/-- A crew in its handler, a lane trap's, with addresses to return to. -/
def H : State := crewOf T (fun c => { c with
  handler := some ⟨[0], true⟩
  sc := { c.sc with trap := ⟨0x80, 0x1008, 0x100C, 1, 0⟩ }
  ln := { c.ln with cur := some run0 } })

theorem witness_TrapEntry : S.job.rcd.handler = 0 ∧ H.crew.handler.isSome = true := by decide +kernel

theorem witness_Resume : H.crew.handler = some ⟨[0], true⟩ ∧ H.crew.ln.hcur = none ∧ H.crew.ln.hqueue = [] ∧
    codeBad H.crew.sc.trap.pc = false ∧ codeBad H.crew.sc.trap.lpc = false ∧ T.crew.handler = none := by decide +kernel

/-- A crew with a store in flight. -/
def flight : State := crewOf S (fun c => { c with ops := [⟨.store, .store [.spad 0], [], false, false, false, 0⟩] })

theorem witness_EndingStreams : S.job.phase ≠ .done ∧ S.job.failReason = 0 ∧ S.crew.key.job = S.job.take ∧
    S.crew.region = none ∧ anyOps flight.crew = true ∧ flight.crew.region = none ∧ anyOps R1.crew = false ∧
    R1.crew.handler = none ∧ R1.crew.ln.cur.isSome = true ∧ (coreAt R1 (coreOf R1)).token ≠ some R1.crew.key ∧
    R1.crew.region = none := by decide +kernel

theorem witness_Retirement : S.job.budgetOwner = S.job.take := by decide +kernel

/-- Queue 9 enabled with a capacity and some records; the code page's address and 9 in s1 and s2. -/
def spawner (cap used depth : Nat) : State :=
  let q : QRec := { uid := 1, rcd := Rec.zero, parent := none, pushDie := 0, secure := false, pre0 := .met, pre1 := .met, missed := false }
  let x := { SliceQueue.reset with qctl := BitVec.ofNat 64 (2 ^ 63 + cap), recs := List.replicate used q }
  let s := withRegs [0x1080, 9] S
  { s with queues := smSet SliceQueue.reset s.queues 9 x, job := { s.job with rcd := { s.job.rcd with depth := depth } } }

/-- Whether spawn.try's record can be read at a state, and the queue's state then. -/
def spawnReads (s : State) : Option (Nat × Bool × Bool) :=
  match readRec (rdS s 1) s with
  | .ok (_, t) => some (t.job.rcd.depth, qEn (sliceQ t 9).qctl, qFull t 9)
  | .error _ => none

theorem witness_ChildPushes : (spawner 64 0 0).crew.key.crew = 0 ∧ (spawner 64 0 0).crew.region = none ∧
    spawnReads (spawner 64 0 0) = some (0, true, false) ∧ spawnReads (spawner 64 64 0) = some (0, true, true) ∧
    spawnReads (spawner 64 0 10) = some (10, true, false) ∧ isDet (spawner 64 64 0) = false ∧
    qSecure (sliceQ (spawner 64 0 0) 9).qctl = false := by decide +kernel

theorem witness_Graft : S.crew.region = none ∧ runsOut S.crew = 0 ∧ S.crew.wait = .none ∧ S.crew.key.crew = 0 ∧
    S.team.place = .resident 0 ∧ clockOn U = true ∧ teamCrews U = [U.crew] ∧
    graftReady (crewOf U (fun c => { c with wait := .graft 0 })) = true ∧
    graftTarget 0 (crewOf U (fun c => { c with wait := .graft 0 })) = none := by decide +kernel

/-- An access's place. -/
def placeOf (s : State) (p : W64) (n kind : Nat) : Option Loc :=
  match locate s 32 p n kind with
  | .ok l => some l.loc
  | .error _ => none

theorem witness_LoadsAndStores : placeOf S (rdS (withRegs [0x1000] S) 1) 8 0 = some (.phys 0x200000 0) ∧
    placeOf S 0x4000000000000000 4 1 = some (.spad 0) ∧ placeOf S 0x1000 8 2 = some (.phys 0x200000 0) ∧
    opCount S.crew .load < 4095 ∧ opCount S.crew .store < 4095 ∧ Expect.isLocal (.phys 0x200000 0) = true ∧ S.l1 = [] := by
  decide +kernel

theorem witness_Fences : runsOut S.crew = 0 ∧ S.crew.ops = [] ∧ S.crew.sieve = [] ∧ ackSieve S = [] ∧ ackWaits S = [] ∧
    (∃ x ∈ flight.crew.ops, fenceHolds 5 true true x = true) ∧ opCount flight.crew (classOf 1) = 1 ∧
    rdS (withRegs [0x1000, 64] S) 2 ≠ 0 ∧ S.crew.wait ≠ .cmo ∧ (match cmoCheck 0 0x1000 64 S with
      | .ok _ => true
      | .error _ => false) = true := by decide +kernel

/-- A handle in each state: 0 free, 1 filling, 2 full, 3 draining. -/
def handle (n : Nat) (st : HandleState) (s : State) : State :=
  { s with team := { s.team with handles := smSet none s.team.handles n (some ⟨256 * n, 256, st, 0, false⟩) } }
def G : State := handle 3 .draining (handle 2 .full (handle 1 .filling (handle 0 .free S)))

/-- A copy of two rows of 64 bytes from the code page to the buffer of handle 0, in s4 to s7; a ring of handle 0 in s1. -/
def C : State := withRegs [64, 0, 0, 0x1000, 0x4000000000000000, 0x3000100000000040, 0x0000004000000040] G

theorem witness_Copies : roleMay (roleOf C) .copy = true ∧ C.crew.region = none ∧ copyOk (copyCmd C 4) = true ∧
    badRow C (copyCmd C 4).src (copyCmd C 4).sstride (copyCmd C 4).rows (copyCmd C 4).len = none ∧
    badRow C (copyCmd C 4).dst (copyCmd C 4).dstride (copyCmd C 4).rows (copyCmd C 4).len = none ∧
    handleOf C 0 = some ⟨0, 256, .free, 0, false⟩ ∧ firstOfTeam (.handleFree 0) C = true ∧
    inBuffer (copyCmd C 4) ⟨0, 256, .free, 0, false⟩ = true ∧ opCount C.crew .copy < 4095 ∧ (match ringDesc (rdS C 1) with
      | .ok r => some (r.first + r.idx)
      | .error _ => none) = some 0 ∧ handleOf C 2 = some ⟨512, 256, .full, 0, false⟩ := by decide +kernel

theorem witness_Handles : handleOf G 7 = none ∧ handlesUsed G (coreOf G) < 64 ∧ 2 ^ 32 * 256 + 1024 = 0x10000000400 ∧
    1024 + 256 ≤ G.job.rcd.spad * 1024 ∧ handleOf G 3 = some ⟨768, 256, .draining, 0, false⟩ ∧
    (∀ c ∈ teamCrews G, c.ops.any (readsHandle 3) = false) ∧ releaseReady ⟨768, 256, .draining, 0, false⟩ G = true ∧
    G.crew.ops.any (fenceHolds 2 false true) = false ∧ (match ringDesc 66 with
      | .ok r => some (r.first + r.idx, r.ph)
      | .error _ => none) = some (2, false) ∧ (0x4040 : W64).toNat / 2 ^ 14 % 64 = 1 ∧ (0x4040 : W64).toNat / 2 ^ 6 % 128 = 1 := by decide +kernel

theorem witness_HandlesFull : 64 ≤ handlesUsed { S with team := { S.team with
    handles := (List.range 64).map (fun n => (n, some ⟨0, 16, .free, 0, false⟩)) } } 0 := by decide +kernel

/-- Barrier 1 expects two arrivals. -/
def barState (exp : Nat) (arrs : List Nat) (ph : Bool) : State :=
  { S with team := { S.team with barriers := [(1, some ⟨exp, arrs, 0, ph, false, 0⟩)] } }

theorem witness_Barriers : barrierOf S 1 = none ∧ barsUsed S (coreOf S) < 32 ∧ barrierOf (barState 2 [] false) 1 =
    some ⟨2, [], 0, false, false, 0⟩ ∧ S.l1 = [] ∧ S.crew.region = none ∧ S.crew.wait = .none ∧ S.crew.barKept = none ∧
    barWaiters 1 (barState 2 [] false) = 0 ∧ S.crew.ops.any (fenceHolds 2 true true) = false ∧ 32 ≤ barsUsed { S with team := { S.team with
      barriers := (List.range 32).map (fun n => (n, some ⟨1, [], 0, false, false, 0⟩)) } } 0 := by decide +kernel

/-- Data queue 5 enabled with a capacity and entries; its name in s1. -/
def dqState (cap : Nat) (e : List W64) : State :=
  { withRegs [0x7000000000000005] S with dataQueues := [(5, ⟨BitVec.ofNat 64 (2 ^ 63 + cap), e, []⟩)] }

theorem witness_DataQueues : (queueName (rdS (dqState 64 [7]) 1) = some (.data 5)) ∧ qEn (dataQ (dqState 64 [7]) 5).ctl = true ∧
    dqFull (dqState 64 [7]) 5 = false ∧ firstOfAll (.qPush (fld (rdS (dqState 64 [7]) 1) 15 0)) (dqState 64 [7]) = true ∧
    dqFull (dqState 64 (List.replicate 64 7)) 5 = true ∧ qRefused (dqState 64 [7]) (dataQ (dqState 64 [7]) 5).ctl 8 = false ∧
    firstOfAll (.qPop (fld (rdS (dqState 64 [7]) 1) 15 0)) (dqState 64 [7]) = true ∧ qSecure (dataQ (dqState 64 [7]) 5).ctl = false ∧
    (dataQ (dqState 64 []) 5).entries = [] := by decide +kernel
/-! ## Witnesses: engines, regions, deterministic mode, fabric, sparse, solve -/

/-- The crew in focus holds its core's token. -/
def tok (s : State) : State := modCore 0 (fun x => { x with token := some s.crew.key }) s

/-- Bank 0 bound. -/
def bank (kind : BankKind) (sh : Option Nat) (s : State) : State :=
  crewOf s (fun c => { c with banks := [(0, some ⟨kind, 0, sh, 0, 0, []⟩)] })

theorem witness_Token : (coreAt (tok S) (coreOf S)).token = some (tok S).crew.key ∧ (coreAt S (coreOf S)).token = none ∧
    isDet S = false ∧ (∀ c ∈ coreCrews S (coreOf S), wantsToken c = false) ∧
    (coreAt (modCore 0 (fun x => { x with token := some ⟨1, 0, 3⟩ }) S) 0).token = some ⟨1, 0, 3⟩ ∧
    (⟨1, 0, 3⟩ : CrewKey) ≠ S.crew.key ∧ roleMay (roleOf S) .matrix = true ∧ S.crew.region = none := by decide +kernel

theorem witness_Banks : S.crew.spilled = [] ∧ (∀ c ∈ S.crews, accNeed c = 0) ∧ (∀ i ∈ List.range 16, bankOf S i = none) ∧
    banksUsed S 0 + 16 ≤ 16 ∧ S.team.place = .resident 0 ∧ (∀ c ∈ allCrews (bank .fp none S), accNeed c = 0) ∧
    bankOf (bank .fp none S) 0 = some ⟨.fp, 0, none, 0, 0, []⟩ ∧ (bank .fp none S).crew.ops = [] := by decide +kernel

/-- A weight image of one block row and 16 columns without blocks, format F32: its header and its bitmap. -/
def imgBytes : List Byte := [1, 0, 0, 0, 1, 0, 16, 0] ++ List.replicate 40 0

/-- The image in the code page, at 0x1100, with its address and a place in the weight space in s1 and s2. -/
def W : State := tok (memWr none 0x200100 imgBytes (withRegs [0x1100, 0] S))

theorem witness_Wload : (match memRead 32 0x1100 32 W with
      | .ok (b, _) => some (imageOk (imageOf b), bitmapBytes (imageOf b), imageLen (imageOf b) (List.replicate 16 0))
      | .error _ => none) = some (true, 16, 48) ∧
    apBad W 32 0x1100 32 = false ∧ (match memRead 32 0x1120 16 W with
      | .ok (b, _) => some b
      | .error _ => none) = some (List.replicate 16 0) ∧ (apRange W 0x1100).1 ≤ 0x1100 ∧
    (0x1100 : Int) + 48 ≤ (apRange W 0x1100).2 ∧ weightUsers W = [] ∧ opCount W.crew .matrix < 4095 := by decide +kernel

/-- The image in the weight space; an A side at the scratchpad's start, in s8 to s10. -/
def Ml : State := tok (bank .fp (some 2) (wtWr 0 imgBytes (wrS 8 0x4000000000000000 S)))

theorem witness_Mloop : Expect.mayIssue Ml .matrix ∧ rdS Ml 9 = 0 ∧ aInside ⟨0, 0, spadBytes Ml⟩ 0 0 64 8 1 = true ∧
    Expect.imageFits Ml 0 0 0 0 16 2 ∧ weightSound { Ml with team := { Ml.team with weightBad := [(3, true)] } } 0 32 = false ∧
    (bankView Ml.crew 0 ⟨.fp, 0, some 2, 0, 0, []⟩).kind = .fp ∧
    (bankView Ml.crew 0 ⟨.fp, 0, some 2, 0, 0, []⟩).shape = some 2 ∧ bankOf Ml 0 = some ⟨.fp, 0, some 2, 0, 0, []⟩ ∧
    shWidth 2 * mSize 0 ≤ 128 ∧ 63 * 128 + 128 ≤ spadBytes Ml := by
  unfold Expect.mayIssue Expect.holdsToken Expect.imageFits; decide +kernel

/-- A region open with the live-ins s1 and v2. -/
def inRegion (s : State) : State := crewOf s (fun c => { c with region := some ⟨2, 2, 1, 0x1000, 0, 0, 0⟩ })

theorem witness_Regions : fld (BitVec.ofNat 64 (2 ^ 10 + 2)) 63 21 = 0 ∧ fld (BitVec.ofNat 64 (2 ^ 10 + 2)) 20 10 = 1 ∧
    (inRegion S).crew.region.isSome = true ∧ regionRuns (inRegion S).crew = false ∧ liveIn (inRegion S) 1 = true ∧
    opCount (inRegion S).crew .gather = 0 ∧ apBad S 32 0x4000000000000000 1040 = false ∧ (match memRead 32 0x4000000000000000 1040 S with
      | .ok (b, _) => b.length == 1040
      | .error _ => false) = true := by decide +kernel

/-- A crew in its handler that draws on its own job slice's budget. -/
def B : State := { H with job := { H.job with rcd := { H.job.rcd with budget := 100 } } }

theorem witness_Slices : B.crew.handler.isSome = true ∧ (findJob B B.job.budgetOwner).isSome = true ∧ B.job.rcd.budget ≠ 0 ∧
    S.crew.handler = none ∧ qSecure (sliceQ S 0).qctl = false ∧ H.crew.handler.isSome = true ∧
    (findJob H H.job.budgetOwner).map (·.rcd.budget) = some 0 := by decide +kernel

theorem witness_Det : isDet D = true ∧ isDet S = false ∧ isGlobal 0x1000 = true ∧ mbzBad 0x1000 = false ∧
    S.job.regionCount < 64 ∧ liveIn S 0 = false ∧ runsOut S.crew = 0 ∧ ackSieve S = [] ∧ ackWaits S = [] := by decide +kernel

/-- A transfer of 64 bytes between the scratchpad and device 1, with a signal word, in s4 to s7. -/
def F (sig : Bool) : State := withRegs [0, 0, 0, 0x4000000000000000, 0x3001000000002000, 64,
  if sig then 0x3001000000003000 else 0] S

theorem witness_Transfers : Expect.transferFits (F false) 4 false ∧ Expect.transferFits (F true) 4 true ∧
    remoteOk 0x3001000000003000 = true ∧ fld 0x3001000000003000 47 0 + 8 ≤ 2 ^ 48 ∧ opCount S.crew .fabric < 4095 := by
  unfold Expect.transferFits; decide +kernel

/-- The word at 0x1100, as fx.wait reads it. -/
theorem witness_Waits : (match memRead 32 0x1100 8 (memWr none 0x200100 [7] S) with
    | .ok (b, _) => some (bytesToNat b)
    | .error _ => none) = some 7 := by decide +kernel

/-- A plan of one device, which is this one, reducing one binary32 number; its peers follow it. Plan, input and output in s4
to s6. -/
def planBytes : List Byte := [1, 0, 0, 0, 1, 0, 0, 0, 1, 0, 0, 0] ++ List.replicate 54 0
def P : State := memWr none 0x200100 planBytes (withRegs [0, 0, 0, 0x1100, 0x4000000000000000, 0x4000000000000008, 1] S)

theorem witness_Reduce : (match memRead 32 0x1100 64 P with
      | .ok (b, _) => some (planOk (planOf b), (planOf b).p, (planOf b).count, tyWidth (tyOf (planOf b).ty) / 8)
      | .error _ => none) = some (true, 1, 1, 4) ∧ (match memRead 32 0x1140 2 P with
      | .ok (b, _) => planPeers b 1
      | .error _ => none) = some [0] ∧ fxSelf P = 0 ∧ apBad P 32 0x4000000000000000 4 = false ∧
    mbzBad 0x4000000000000008 = false ∧ (match memRead 32 0x4000000000000000 4 P with
      | .ok _ => true
      | .error _ => false) = true := by decide +kernel

/-- A tile header in the code page and its compiled entry; the header's address in s1. -/
def tileBytes : List Byte := [1, 0, 0, 0] ++ List.replicate 12 0 ++ natToBytes 8 0x1200 ++ natToBytes 8 0x1800 ++ List.replicate 32 0
def Ti : State := { memWr none 0x200100 tileBytes (withRegs [0x1100] S) with
  espalier := [⟨0, false, asidOf S.job.root, 0x1100, 0, 0, 0, 0, 0, [], 0x1800, [], true, true, true⟩] }
def boundTile : Tile := ⟨0x1100, 0, 0, 0, 0, 0, true⟩

theorem witness_Tiles : roleMay (roleOf Ti) .spt = true ∧ (match memRead 32 0x1100 64 Ti with
      | .ok (b, t) => tileHdrOk (tileHdr b) && (espFind t 0x1100 (BitVec.ofNat 32 (tileHdr b).gen)).any (·.compiled)
      | .error _ => false) = true ∧ Ti.crew.ops.any isTload = false ∧ smGet none S.crew.tiles 3 = none ∧
    (crewOf Ti (fun c => { c with ops := [⟨.matrix, .mzero 0 none, [], false, false, false, 0⟩] })).crew.ops.any
      (fun o => o.cls == .matrix && opLive o && !isTload o) = true ∧
    espPending Ti 0x1100 0 = false ∧ (placeOf S (rpAt 0x1000 4) 4 0).isSome = true ∧ (placeOf S 0x1000 4 0).isSome = true ∧
    isGlobal (rpAt 0x1000 4) = true ∧ isSpad (rpAt 0x1000 4) = false ∧ fld 0x0000000400000004 47 32 ≠ 0 ∧
    fld 0x0000000400000004 63 48 < fld 0x0000000400000004 47 32 := by decide +kernel

theorem witness_Tmul : Expect.mayIssue Ml .spt ∧ 63 * 64 + denseRow 0 ≤ spadBytes Ml ∧ denseRow 0 = 128 ∧
    smGet none (crewOf Ml (fun c => { c with tiles := [(3, some boundTile)] })).crew.tiles 3 = some boundTile := by
  unfold Expect.mayIssue Expect.holdsToken; decide +kernel

/-- A solve command of two systems of four equations with one right side, arithmetic from its argument, in s1 to s3. -/
def Sv (arith : Nat) : State := withRegs [0x4000000000000000, BitVec.ofNat 64 (1024 * 2 ^ 32 + 2), BitVec.ofNat 64 (arith * 2 ^ 12 + 4)] S

theorem witness_Solve : roleMay (roleOf S) .solve = true ∧ svOk (Sv 0) 1 (svCmd (Sv 0) 0 1) = true ∧
    svOk (Sv 1) 1 (svCmd (Sv 1) 3 1) = true ∧ (svCmd (Sv 1) 3 1).arith = 1 ∧ svOutside (Sv 0) (svCmd (Sv 0) 0 1) = false ∧
    (svCmd (Sv 0) 0 1).mptr.toNat % 16 = 0 ∧ S.crew.solve = none := by decide +kernel
/-! ## Witnesses: the lane stream -/

/-- The head gang of s may issue i, whose word is w. -/
def ready (s : State) (i : Instr) (w : LaneWord) (r : ARun) (g : Gang) : Bool :=
  match laneFmt i with
  | some (f, v) => decide (v = w ∧ headGang s = some (r, g) ∧ g.members ≠ [] ∧ laneOk f w = true ∧
      laneTop f w ≤ 64 * s.job.rcd.regg ∧ (∀ b ∈ latchesOf f w, ∀ l ∈ activeLanes s r g w, (latch s l b).isSome = true) ∧
      (f.dn = 0 ∨ f.dpred = true ∨ liveInV s r w.d.toNat f.dn = false))
  | none => false

theorem issues_of_ready {s : State} {i : Instr} {w : LaneWord} {r : ARun} {g : Gang} (h : ready s i w r g = true) :
    ∃ f, Expect.issues s i f w r g := by
  unfold ready at h
  split at h
  · next f v e =>
    obtain ⟨rfl, h1⟩ := of_decide_eq_true h
    exact ⟨f, e, h1⟩
  · cases h

/-- Every lane access of i is checked and translated. -/
def reaches (s : State) (i : Instr) (w : LaneWord) (r : ARun) (g : Gang) (n kind : Nat) (cls : OpClass) : Bool :=
  ready s i w r g && match lanesAt (dropGang g s) n kind (laneAddr (dropGang g s) w n) (activeLanes s r g w) with
    | .ok accs => decide (activeLanes s r g w ≠ [] ∧ (∀ a ∈ accs, Expect.isLocal a.place.loc = true) ∧ outstanding s.crew cls < 4095)
    | .error _ => false

theorem accesses_of_reaches {s : State} {i : Instr} {w : LaneWord} {r : ARun} {g : Gang} {n kind : Nat} {cls : OpClass}
    (h : reaches s i w r g n kind cls = true) : ∃ f accs, Expect.accesses s (dropGang g s) i f w r g n kind cls accs := by
  unfold reaches at h
  obtain ⟨hr, h⟩ := Bool.and_eq_true_iff.mp h
  obtain ⟨f, hf⟩ := issues_of_ready hr
  split at h
  · next accs e =>
    obtain ⟨h1, h2, h3⟩ := of_decide_eq_true h
    exact ⟨f, accs, hf, rfl, h1, e, h2, h3⟩
  · cases h

theorem witness_Operands : latch (pushLatch 0 7 L) 0 0 = some 7 ∧ curRun L.crew = some run0 ∧ (3 : Nat) < 32 ∧
    L.job.rcd.slices ≤ 8 ∧ (⟨true, 0, 4, 0, 1, 2, 0, 0, 0, 0, 0, 0, 0⟩ : LaneWord).imm = true := by decide +kernel

theorem witness_LaneInteger : (∃ f, Expect.issues L (.vadd (word 0 3 1 2 0 0)) f (word 0 3 1 2 0 0) run0 gang0) ∧
    ∀ l, Expect.laneInt .s32 false (opA L (word 0 3 1 2 0 0) l) (opB L (word 0 3 1 2 0 0) l) (opC L (word 0 3 1 2 0 0) l)
      (.vadd (word 0 3 1 2 0 0)) = some (Expect.narrow .s32 false
        (Expect.int .s32 (opA L (word 0 3 1 2 0 0) l) + Expect.int .s32 (opB L (word 0 3 1 2 0 0) l))) :=
  ⟨issues_of_ready (by decide +kernel), fun _ => rfl⟩

/-- A word of type s32 whose B is the crew's number, 0. -/
def byZero : LaneWord := word 0 3 1 0x603 0 0

theorem witness_Division : (∃ f, Expect.issues L (.vdiv byZero) f byZero run0 gang0) ∧
    (∃ f, Expect.issues L (.vrem byZero) f byZero run0 gang0) ∧ (∀ l, BitVec.ofNat (tyWidth .s32) (opB L byZero l) = 0) ∧
    liveIn S 3 = false ∧ rdS S 2 = 0 :=
  ⟨issues_of_ready (by decide +kernel), issues_of_ready (by decide +kernel), fun _ => rfl, by decide +kernel⟩

theorem witness_LaneFloat : (∃ f, Expect.issues L (.vmul (wordF 9 5 4 4 0)) f (wordF 9 5 4 4 0) run0 gang0) ∧ tyFmt .f32 = some fmtF32 ∧
    ∀ l, Expect.laneFloat fmtF32 32 (Expect.laneRm (wordF 9 5 4 4 0) run0) (opA L (wordF 9 5 4 4 0) l) (opB L (wordF 9 5 4 4 0) l)
      (opC L (wordF 9 5 4 4 0) l) (.vmul (wordF 9 5 4 4 0)) =
      some (fMul fmtF32 (Expect.laneRm (wordF 9 5 4 4 0) run0) (opA L (wordF 9 5 4 4 0) l) (opB L (wordF 9 5 4 4 0) l)) :=
  ⟨issues_of_ready (by decide +kernel), rfl, fun _ => rfl⟩

theorem witness_LanePredicates : (∃ f, Expect.issues L (.vpnot (word 15 3 0 0 0 0)) f (word 15 3 0 0 0 0) run0 gang0) ∧
    ∀ l, Expect.lanePred L (word 15 3 0 0 0 0) l (.vpnot (word 15 3 0 0 0 0)) = some (!Expect.pr L 0 l, 0) :=
  ⟨issues_of_ready (by decide +kernel), fun _ => rfl⟩

theorem witness_LaneMoves : (∃ f, Expect.issues L (.vmov (word 0 3 1 0 0 0)) f (word 0 3 1 0 0 0) run0 gang0) ∧
    ∀ l, Expect.laneMoves L (word 0 3 1 0 0 0) run0 (activeLanes L run0 gang0 (word 0 3 1 0 0 0)) l (.vmov (word 0 3 1 0 0 0)) =
      some (opA L (word 0 3 1 0 0 0) l, 0) :=
  ⟨issues_of_ready (by decide +kernel), fun _ => rfl⟩

/-- L with a run whose format errors trap. -/
def runX : ARun := { run0 with run := { run0.run with fmte := true } }
def LX : State := crewOf L (fun c => { c with ln := { c.ln with cur := some runX } })
/-- v8 to v10 of lane 0 hold a Q4X block that breaks the format. -/
def badBlock (s : State) : State := putV 8 0 0x88888888 (putV 9 0 0x88888888 s)

theorem witness_Blocks : (∃ f, Expect.issues L (.vqdec (wordF 9 3 8 0 0)) f (wordF 9 3 8 0 0) run0 gang0) ∧ tyFmt .f32 = some fmtF32 ∧
    (∃ f, Expect.issues (badBlock LX) (.vqdec (wordF 9 3 8 0 0)) f (wordF 9 3 8 0 0) runX gang0) ∧
    (∃ f, Expect.issues L (.vqenc (wordF 14 12 4 1 0)) f (wordF 14 12 4 1 0) run0 gang0) ∧
    (∃ f, Expect.issues L (.vrand (word 1 3 0 0 0 0)) f (word 1 3 0 0 0 0) run0 gang0) ∧
    (∃ f, Expect.issues L (.vinter (word 1 6 1 2 1 3)) f (word 1 6 1 2 1 3) run0 gang0) ∧
    (∃ f, Expect.issues L (.vxs (word 0 3 1 0 0 0)) f (word 0 3 1 0 0 0) run0 gang0) :=
  ⟨issues_of_ready (by decide +kernel), rfl, issues_of_ready (by decide +kernel), issues_of_ready (by decide +kernel),
    issues_of_ready (by decide +kernel), issues_of_ready (by decide +kernel), issues_of_ready (by decide +kernel)⟩

theorem witness_BlocksLanes : (activeLanes L run0 gang0 (word 0 3 1 0 0 0)) = [0, 1, 2, 3] ∧ runX.run.fmte = true ∧
    (q4Decode (rdVs (badBlock LX) 0 3 8 % 2 ^ 80)).2 = true ∧ run0.run.region = false := by decide +kernel
/-! ## Witnesses: lane control, memory, certified values, pairs -/

/-- p1 holds in lanes 1 and 3. -/
def Lp : State := wrP 1 1 true (wrP 1 3 true L)
/-- A branch on p1, plain and with U. -/
def braW (u : BitVec 1) : LaneWord := ⟨true, 0, 0, 0, 1, 0, 0, 0, 0, u, 0, 0, 0⟩

theorem witness_LaneBranches : (∃ f, Expect.issues Lp (.laneBra (braW 0)) f (braW 0) run0 gang0) ∧
    (∃ f, Expect.issues Lp (.laneBra (braW 1)) f (braW 1) run0 gang0) :=
  ⟨issues_of_ready (by decide +kernel), issues_of_ready (by decide +kernel)⟩

theorem witness_Branching : (∀ i ∈ gang0.members, i < run0.slices.length ∧ i < 8 ∧ 0 < (sliceAt run0 i).mask ∧ (sliceAt run0 i).mask < 16 ∧
      (sliceAt run0 i).stack.length < 16) ∧ Expect.tookMask Lp (braW 0) 0 15 = 10 ∧ Expect.tookMask L (braW 0) 0 15 = 0 ∧
    (∃ l ∈ activeLanes Lp run0 gang0 (braW 1), Expect.took Lp (braW 1) l = true) ∧
    (∃ l ∈ activeLanes Lp run0 gang0 (braW 1), Expect.took Lp (braW 1) l = false) ∧
    (∀ l ∈ activeLanes L run0 gang0 (braW 1), Expect.took L (braW 1) l = false) := by decide +kernel

/-- A run of two slices in two gangs, the second at an address and with a wait of its own. -/
def runOf (st : List MaskEntry) (gs : List Gang) : ARun :=
  { run0 with gangs := gs, slices := [⟨15, st, true⟩, ⟨15, [], true⟩] }
/-- L in that run, with a handler. -/
def L2 (st : List MaskEntry) (gs : List Gang) : State :=
  { crewOf L (fun c => { c with ln := { c.ln with cur := some (runOf st gs) } }) with
    job := { L.job with rcd := { L.job.rcd with slices := 2, handler := 0x2000 } } }
def other (pc : W64) (w : GangWait) : Gang := ⟨pc, [1], w⟩
/-- A word of zeros. -/
def bare : LaneWord := word 0 0 0 0 0 0

theorem witness_Join : (∃ f, Expect.issues (L2 [⟨0x1000, 0x100C, 5, 15, false⟩] [gang0]) (.join bare) f bare
      (runOf [⟨0x1000, 0x100C, 5, 15, false⟩] [gang0]) gang0) ∧
    (∃ f, Expect.issues (L2 [⟨0x1000, 0x100C, 5, 15, true⟩] [gang0]) (.join bare) f bare
      (runOf [⟨0x1000, 0x100C, 5, 15, true⟩] [gang0]) gang0) ∧
    (∃ f, Expect.issues L (.join bare) f bare run0 gang0) ∧
    (∀ i ∈ gang0.members, i < (runOf [] [gang0]).slices.length ∧ i < 8) :=
  ⟨issues_of_ready (by decide +kernel), issues_of_ready (by decide +kernel), issues_of_ready (by decide +kernel), by decide +kernel⟩

theorem witness_Regang : (∃ f, Expect.issues (L2 [] [gang0, other 0x1000 .regang]) (.regang bare) f bare
      (runOf [] [gang0, other 0x1000 .regang]) gang0) ∧
    (∃ f, Expect.issues (L2 [] [gang0, other 0x2000 .ready]) (.regang bare) f bare (runOf [] [gang0, other 0x2000 .ready]) gang0) ∧
    (∃ f, Expect.issues (L2 [] [gang0, other 0x2000 .regang]) (.regang bare) f bare (runOf [] [gang0, other 0x2000 .regang]) gang0) ∧
    lowSlice gang0 < lowSlice (other 0x2000 .regang) ∧ Expect.canTrap (L2 [] [gang0, other 0x2000 .regang]) ∧
    Expect.quiet (L2 [] [gang0, other 0x2000 .regang]) :=
  ⟨issues_of_ready (by decide +kernel), issues_of_ready (by decide +kernel), issues_of_ready (by decide +kernel), by decide +kernel,
    by unfold Expect.canTrap; decide +kernel, by unfold Expect.quiet; decide +kernel⟩

theorem witness_LaneEnds : (∃ f, Expect.issues (L2 [] [gang0, other 0x2000 .ready]) (.lstop bare) f bare
      (runOf [] [gang0, other 0x2000 .ready]) gang0) ∧
    (∃ f, Expect.issues (L2 [] [gang0]) (.lyield bare) f bare (runOf [] [gang0]) gang0) ∧
    ((L2 [] [gang0]).crew.handler = none ∧ (L2 [] [gang0]).crew.ln.queue = [] ∧ (L2 [] [gang0]).crew.status = .running ∧
      (runOf [] [gang0]).run.handler = false ∧ (L2 [] [gang0]).crew.ops = []) :=
  ⟨issues_of_ready (by decide +kernel), issues_of_ready (by decide +kernel), by decide +kernel⟩

/-- ltrap #0x85, in every lane and where p1 holds. -/
def trapW (p : BitVec 6) : LaneWord := ⟨false, 0, 0, 0, 0, 0, 0, p, 0, 0, 0, 0, 0x85⟩

theorem witness_Ltrap : (∃ f, Expect.issues (L2 [] [gang0]) (.ltrap (trapW 0)) f (trapW 0) (runOf [] [gang0]) gang0) ∧
    (∃ f, Expect.issues (L2 [] [gang0]) (.ltrap (trapW 1)) f (trapW 1) (runOf [] [gang0]) gang0) ∧
    activeLanes (L2 [] [gang0]) (runOf [] [gang0]) gang0 (trapW 0) ≠ [] ∧
    activeLanes (L2 [] [gang0]) (runOf [] [gang0]) gang0 (trapW 1) = [] :=
  ⟨issues_of_ready (by decide +kernel), issues_of_ready (by decide +kernel), by decide +kernel, by decide +kernel⟩

/-- v6 and v7 of lanes 0 to 3 hold four addresses, 16 bytes apart from a base on. -/
def addrs (base : W64) (s : State) : State :=
  (List.range 4).foldl (fun t l => putV 6 l ((base.toNat + 16 * l) % 2 ^ 32)
    (putV 7 l ((base.toNat + 16 * l) / 2 ^ 32) t)) s
/-- In the code page and in the scratchpad. -/
def La : State := addrs 0x1100 L
def Ls : State := addrs 0x4000000000000100 L

theorem witness_Prefetch : (∃ f, Expect.issues La (.vprefetch (word 15 0 6 0 0 0)) f (word 15 0 6 0 0 0) run0 gang0) ∧
    (∃ f, Expect.issues L (.vfence (word 0 0 0 0 0 21)) f (word 0 0 0 0 0 21) run0 gang0) ∧
    (∃ f, Expect.issues L (.vedge (word 15 0 1 0 0 0)) f (word 15 0 1 0 0 0) run0 gang0) ∧
    (L.job.rcd.crews = 1 ∧ L.job.rcd.slices = 1 ∧ gang0.members = List.range 1 ∧ run0.slices.length = 1 ∧ (sliceAt run0 0).live = true ∧
      L.crew.ln.edge.sent = false ∧ L.crew.ln.edge.stageW = none ∧ L.crew.ln.edge.stageE = none ∧ run0.gangs = [gang0]) :=
  ⟨issues_of_ready (by decide +kernel), issues_of_ready (by decide +kernel), issues_of_ready (by decide +kernel), by decide +kernel⟩

theorem witness_LaneLoads : (∃ f accs, Expect.accesses La (dropGang gang0 La) (.vld (word 0 3 6 0 0 0)) f (word 0 3 6 0 0 0) run0 gang0
      4 0 .load accs) ∧
    (∃ f accs, Expect.accesses Ls (dropGang gang0 Ls) (.vldg (word 0 3 6 0 0 0)) f (word 0 3 6 0 0 0) run0 gang0 4 0 .gather accs) :=
  ⟨accesses_of_reaches (by decide +kernel), accesses_of_reaches (by decide +kernel)⟩

theorem witness_LaneStores : (∃ f accs, Expect.accesses La (dropGang gang0 La) (.vst (word 0 0 6 0 1 0)) f (word 0 0 6 0 1 0) run0 gang0
      4 1 .store accs) ∧
    (∃ f accs, Expect.accesses La (dropGang gang0 La) (.vsct (word 0 0 6 0 1 0)) f (word 0 0 6 0 1 0) run0 gang0 4 1 .scatter accs) ∧
    (∃ f accs, Expect.accesses Ls (dropGang gang0 Ls) (.vsctAdd (word 0 0 6 0 1 0)) f (word 0 0 6 0 1 0) run0 gang0 4 2 .scatter accs) :=
  ⟨accesses_of_reaches (by decide +kernel), accesses_of_reaches (by decide +kernel), accesses_of_reaches (by decide +kernel)⟩

theorem witness_LaneAtomics : (∃ f, Expect.issues Ls (.vamo (word 1 3 6 1 0 0)) f (word 1 3 6 1 0 0) run0 gang0) ∧
    (match lanesAt (dropGang gang0 Ls) 4 2 (fun l => BitVec.ofNat 64 (srcVal (dropGang gang0 Ls) 2 6 l)) [0, 1, 2, 3] with
      | .ok l => some (l.map (·.place.loc))
      | .error _ => none) = some [.spad 0x100, .spad 0x110, .spad 0x120, .spad 0x130] :=
  ⟨issues_of_ready (by decide +kernel), by decide +kernel⟩

theorem witness_CertifiedBounds : Expect.within (0 : Rat) 0 0 :=
  ⟨0, 0, by decide +kernel, by decide +kernel, by decide +kernel, by decide +kernel⟩

/-- eadd of two quads. -/
def eaddW : LaneWord := ⟨false, 8, 16, 0, 8, 12, 0, 0, 0, 0, 0, 0, 0⟩

theorem witness_Certified : (∃ f, Expect.issues L (.eadd eaddW) f eaddW run0 gang0) ∧
    (∀ l, Expect.certified L eaddW l (.eadd eaddW) = some (certAdd (readQuad L 8 l) (readQuad L 12 l))) ∧
    certRoom L ((activeLanes L run0 gang0 eaddW).map (fun l => (l, certAdd (readQuad L 8 l) (readQuad L 12 l)))) = .ready :=
  ⟨issues_of_ready (by decide +kernel), fun _ => rfl, by decide +kernel⟩

/-- Words of est, eld, epin and eunpin at the addresses in v6 and v7. -/
def eStW : LaneWord := ⟨false, 8, 0, 0, 6, 0, 12, 0, 0, 0, 0, 0, 0⟩
def eLdW : LaneWord := ⟨false, 8, 12, 0, 6, 0, 0, 0, 0, 0, 0, 0, 0⟩
def eUnW : LaneWord := ⟨false, 8, 0, 0, 6, 0, 0, 0, 0, 0, 0, 0, 0⟩

theorem witness_CertifiedMemory :
    (∃ f accs, Expect.accesses Ls (dropGang gang0 Ls) (.est eStW) f eStW run0 gang0 16 1 .store accs) ∧
    (∃ f accs, Expect.accesses Ls (dropGang gang0 Ls) (.eld eLdW) f eLdW run0 gang0 16 0 .load accs) ∧
    (∃ f accs, Expect.accesses Ls (dropGang gang0 Ls) (.epin eStW) f eStW run0 gang0 16 1 .store accs) ∧
    (∃ f accs, Expect.accesses Ls (dropGang gang0 Ls) (.eunpin eUnW) f eUnW run0 gang0 16 1 .store accs) ∧
    (∃ f, Expect.issues La (.epin eStW) f eStW run0 gang0) :=
  ⟨accesses_of_reaches (by decide +kernel), accesses_of_reaches (by decide +kernel), accesses_of_reaches (by decide +kernel),
    accesses_of_reaches (by decide +kernel), issues_of_ready (by decide +kernel)⟩

theorem witness_CertifiedAddresses : (∀ l ∈ activeLanes Ls run0 gang0 eStW, apOf (Expect.laneAt Ls eStW 16 l) = 4) ∧
    (activeLanes La run0 gang0 eStW).find? (fun k => apOf (Expect.laneAt La eStW 16 k) != 4) = some 0 := by decide +kernel
/-! ## Witnesses: comparisons, pairs, and the events of crews -/

/-- A result of r that a test accepts. -/
def okAnd {e α : Type} (r : Except e α) (p : α → Bool) : Bool :=
  match r with
  | .ok a => p a
  | .error _ => false

theorem exists_of_okAnd {e α : Type} {r : Except e α} {p : α → Bool} (h : okAnd r p = true) : ∃ a, r = .ok a ∧ p a = true := by
  unfold okAnd at h
  split at h
  · exact ⟨_, rfl, h⟩
  · cases h

/-- The crew in focus is the same one, with its team and job slice. -/
def same (s t : State) : Bool :=
  decide (s.team.job = s.crew.key.job ∧ s.team.idx = s.crew.key.team ∧ s.job.take = s.crew.key.job ∧
    t.team.job = t.crew.key.job ∧ t.team.idx = t.crew.key.team ∧ t.job.take = t.crew.key.job ∧ t.crew.key = s.crew.key)

theorem sameFocus_of_same {s t : State} (h : same s t = true) : Expect.sameFocus s t := by
  have h := of_decide_eq_true h
  exact ⟨⟨h.1, h.2.1, h.2.2.1⟩, ⟨h.2.2.2.1, h.2.2.2.2.1, h.2.2.2.2.2.1⟩, h.2.2.2.2.2.2⟩

/-- ecmp with condition <, of the quads at v8 and v12, into p2. -/
def ecmpW : LaneWord := ⟨false, 8, 2, 0, 8, 12, 0, 0, 0, 0, 0, 0, 2⟩
/-- v8 of lane 0 is opaque with radius 1: it straddles zero. -/
def Lq : State := putV 10 0 0x3F800000 (putV 11 0 0xC0000000 L)

theorem witness_Ecmp : (∃ f, Expect.issues L (.ecmp ecmpW) f ecmpW run0 gang0) ∧ (∃ f, Expect.issues Lq (.ecmp ecmpW) f ecmpW run0 gang0) ∧
    (∀ l ∈ activeLanes L run0 gang0 ecmpW, (encDecide 2 (quadEnc (readQuad L 8 l)) (quadEnc (readQuad L 12 l))).isSome = true) ∧
    (readQuad Lq 8 0).kind = .loose ∧ encDecide 2 (quadEnc (readQuad Lq 8 0)) (quadEnc (readQuad Lq 12 0)) = none :=
  ⟨issues_of_ready (by decide +kernel), issues_of_ready (by decide +kernel), by decide +kernel, by decide +kernel, by decide +kernel⟩

/-- Lane 0 holds 1 and 3 in v8 and v12, and the binary64 number below 1/3 in v20; p1 holds there. The crew has a graph log. -/
def Lc : State := putV 9 0 0x3FF00000 (putV 13 0 0x40080000 (putV 20 0 0x55555555 (putV 21 0 0x3FD55555 (wrP 1 0 true
  { D with
    crew := { S.crew with ln := { L.crew.ln with cur := some run0 } }
    job := { D.job with rcd := { D.job.rcd with slices := 1, logsz := 1 } } }))))
/-- The state after an instruction that completes. -/
def after (o : Host.Outcome State Fault Refusal) : State :=
  match o with
  | .next t => t
  | _ => S
def edivW : LaneWord := ⟨false, 8, 16, 0, 8, 12, 0, 1, 0, 0, 0, 0, 0⟩
def straddleW : LaneWord := ⟨false, 8, 2, 0, 16, 20, 0, 1, 0, 0, 0, 0, 2⟩
/-- 1/3 as a certified value in v16, and its comparison with the number below it begun. -/
noncomputable def Lr : State := after (exec (.ediv edivW) Lc)
noncomputable def Lw : State := after (exec (.ecmp straddleW) Lr)

theorem witness_EcmpWaits : ((∀ r g, headGang Lr = some (r, g) → (∃ f, laneFmt (.ecmp straddleW) = some (f, straddleW) ∧
      laneOk f straddleW = true)) ∧ (headGang Lr).isSome = true) ∧ isDet Lr = true ∧ (readQuad Lr 16 0).kind ≠ .loose ∧
    encDecide 2 (quadEnc (readQuad Lr 16 0)) (quadEnc (readQuad Lr 20 0)) = none :=
  ⟨⟨fun _ _ _ => ⟨_, rfl, by decide +kernel⟩, by decide +kernel⟩, by decide +kernel, by decide +kernel, by decide +kernel⟩

theorem witness_Whetstone : (match refining Lw with
    | some (r, g, w, failed) => w == straddleW && (activeLanes Lw r g w == [0]) &&
        okAnd (refineAll failed w (straddling Lw w [0]) Lw) (fun x => x.1.all (fun y => y.2 != .free) && same Lw x.2 &&
          (match ecmpEnd Lw w [0] x.1 with
            | .ok l => l == [(0, false)]
            | .error _ => false))
    | none => false) = true := by decide +kernel

theorem witness_Pairs : headGang L = some (run0, gang0) ∧ pairOk ⟨0x20, 4, 8, 1, 2, 0⟩ ⟨0x30, 4, 17, 3, 4, 0⟩ = true ∧
    max (halfTop ⟨0x20, 4, 8, 1, 2, 0⟩) (halfTop ⟨0x30, 4, 17, 3, 4, 0⟩) ≤ 64 * L.job.rcd.regg ∧ run0.run.region = false ∧
    halfLatches ⟨0x20, 4, 8, 1, 2, 0⟩ = [] ∧ halfLatches ⟨0x30, 4, 17, 3, 4, 0⟩ = [] ∧ curRun L.crew = some run0 ∧
    halfOk ⟨0x20, 4, 8, 1, 2, 0⟩ = true ∧ halfOk ⟨0x40, 0, 3, 1, 2, 0⟩ = true ∧ (wordF 9 0 0 0 0).rm = 5 := by decide +kernel

theorem firstOp_one {s : State} {p : Op → Bool} {o : Op} (h : s.crew.ops = [o]) (hp : p o = true) : Expect.firstOp s p [] o [] :=
  ⟨h, hp, by simp⟩

/-- An operation of S in flight. -/
def flies (k : OpKind) : Op := ⟨.load, k, [], false, false, false, 0⟩
def inFlight (k : OpKind) (s : State) : State := crewOf s (fun c => { c with ops := [flies k] })
/-- An atomic addition in the scratchpad. -/
def amo0 : AmoOp := ⟨0, 4, 0x4000000000000000, .spad 0, 5, 0, 32, 3, 0⟩

theorem witness_MemoryEvents : Expect.inFocus (inFlight (.load 3 5 false 0) S) ∧ isLoadOp (flies (.load 3 5 true 0x1000)) = true ∧
    isLoadOp (flies (.laneLoad [(33, 5)])) = true ∧ isGather (flies (.gather [(33, 5)])) = true ∧ isStoreOp (flies (.store [.spad 0])) = true ∧
    isScatter (flies (.scatter [.spad 0])) = true ∧ isScatAdd (flies (.scatAdd [⟨0, .spad 0, .s32, 0, 1, 0⟩])) = true ∧ isAmoOp (flies (.amo amo0)) = true ∧
    (amoDo amo0 S).1 = some 0 ∧ isAmoOp (flies (.vamo [amo0] 3)) = true ∧ (∀ y ∈ [amo0], amoBad y S = false) ∧
    Expect.firstOp (inFlight (.store [.spad 0]) S) isStoreOp [] (flies (.store [.spad 0])) [] :=
  ⟨by unfold Expect.inFocus; decide +kernel, rfl, rfl, rfl, rfl, rfl, rfl, rfl, by decide +kernel, rfl, by decide +kernel,
    firstOp_one rfl rfl⟩

/-- The copy of C in flight, its handle filling. -/
def copy0 : CopyOp := ⟨0x1000, 0x4000000000000000, 2, 16, 64, 64, 0, none, none⟩
def Cf : State := handle 0 .filling (inFlight (.copy copy0) S)

theorem witness_CopyCompletes : ∃ t, copyMove copy0 Cf = .ok t ∧ Expect.sameFocus Cf t ∧
    (awaitsAck (copyLines copy0 t) t = false ∧ handleOf t 0 = some ⟨0, 256, .filling, 0, false⟩ ∧
      (∀ y ∈ allCrews t, watches 0 y = false ∧ claims 0 y = false)) := by
  obtain ⟨t, h, k⟩ := exists_of_okAnd (r := copyMove copy0 Cf) (p := fun t => same Cf t && decide (awaitsAck (copyLines copy0 t) t = false ∧
    handleOf t 0 = some ⟨0, 256, .filling, 0, false⟩ ∧ (∀ y ∈ allCrews t, watches 0 y = false ∧ claims 0 y = false))) (by decide +kernel)
  obtain ⟨k1, k2⟩ := Bool.and_eq_true_iff.mp k
  exact ⟨t, h, sameFocus_of_same k1, of_decide_eq_true k2⟩

/-- The source is in a frame with uncorrectable data. -/
def Cb : State := { Cf with memBad := [(0x200000 / 8, true)] }

theorem witness_CopyAbandoned : (match copyMove copy0 Cb with
      | .error (.err c) => some c
      | _ => none) = some 0x15 ∧ (firstCopy Cb).isSome = true ∧ copy0.bar = none ∧ handleOf Cb 0 = some ⟨0, 256, .filling, 0, false⟩ := by
  decide +kernel

/-- A crew at a cmo; one with a partition in flight. -/
def Cm : State := crewOf S (fun c => { c with wait := .cmo, cmo := some ⟨0, 5, 0x1000, 64⟩ })
def Pa : State := inFlight (.part 4 0x1000 4 4 0 false) S

theorem witness_Commands : Cm.crew.cmo = some ⟨0, 5, 0x1000, 64⟩ ∧ Cm.crew.wait = .cmo ∧ Pa.crew.park = none ∧
    isPartOp (flies (.part 4 0x1000 4 4 0 false)) = true ∧ okAnd (partResults 0x1000 4 4 0 Pa)
      (fun x => x.1 == [0, 0, 0, 0] && x.2.1 == false && same Pa x.2.2) = true := by decide +kernel

/-- A run that has no gang left. -/
def Rd : State := crewOf S (fun c => { c with ln := { c.ln with cur := some { run0 with gangs := [] } } })
/-- A partner with a value on its way east. -/
def Ve : State :=
  let e := { S.crew.ln.edge with outE := [⟨⟨1, 0, 1⟩, 7, 0⟩], grid := false }
  { S with
    job := { S.job with rcd := { S.job.rcd with crews := 2 } }
    crew := { S.crew with key := ⟨1, 0, 1⟩ }
    crews := [{ S.crew with ln := { S.crew.ln with edge := e } }] }

theorem witness_RunEvents : Rd.crew.handler = none ∧ Rd.crew.ln.cur = some { run0 with gangs := [] } ∧
    Rd.crew.ops.any laneReturning = false ∧ Rd.crew.ln.queue = [] ∧ Rd.crew.status = .running ∧
    (edgeSender Ve Ve.crew.key false).map (fun x => (x.1.key, x.2)) = some (hostKey, 7, 0) ∧ Ve.crew.ln.edge.stageW = none ∧
    hostKey ≠ Ve.crew.key := by decide +kernel

/-- A team whose log has work for the walker; one that is spilling. -/
def Wk : State := { S with team := { S.team with log := { GraphLog.reset with zeros := [0] } } }
def Sp : State := { S with team := { S.team with log := { GraphLog.reset with spilling := some 3 } } }

theorem witness_LogEvents : Wk.crew.key.crew = 0 ∧ (match walkerStep Wk with
      | some r => okAnd r (same Wk)
      | none => false) = true ∧ Sp.team.log.spilling = some 3 ∧ okAnd (spillSeg 3 Sp) (same Sp) = true := by decide +kernel

/-- An operation of the crew in focus is the engine's next. -/
def Eng (k : OpKind) (s : State) : State :=
  modCore 0 (fun x => { x with engine := [s.crew.key] }) (crewOf s (fun c => { c with ops := [⟨.matrix, k, [], false, false, false, 0⟩] }))
def mloop0 : MloopOp := ⟨0, 0, 2, 0, 0, 0, 0, 0, 0, 0, none, 1, 0, 0, false⟩

theorem witness_EngineSteps : (engineNext (Eng (.mloop mloop0) Ml) 0).map (·.1) = some S.crew.key ∧
    stepBad mloop0 (imageOf (wtRd (Eng (.mloop mloop0) Ml) 0 32)) (Eng (.mloop mloop0) Ml) = none ∧
    (bankOf (Eng (.mloop mloop0) Ml) 0).isSome = true ∧ (engineNext (Eng (.mzero 0 none) Ml) 0).isSome = true ∧
    isMzero ⟨.matrix, .mzero 0 none, [], false, false, false, 0⟩ = true ∧
    (engineNext (Eng (.mdrain ⟨0, 0, 128, 0, 0, false⟩) Ml) 0).isSome = true ∧
    (engineNext (Eng (.tmul ⟨0, 3, boundTile, 0, 128, 0, false⟩) Ml) 0).isSome = true ∧
    (wloadNext (Eng (.wload 0x1100 0 48 48) W) 0).map (·.1) = some S.crew.key := by decide +kernel

/-- A team with a context area; a crew that waits for banks; a program that is compiled; a solve command. -/
def Ctx : State := { S with job := { S.job with rcd := { S.job.rcd with ctxbase := 0x1000000 } } }
def Ac : State := crewOf S (fun c => { c with wait := .acc 0 4 0 })
def esp (started : Bool) : EspEntry := ⟨0, false, 0, 0x1100, 0, 0, 0, 0, 0, [], 0, [], true, false, started⟩

theorem witness_EngineEvents : Ctx.job.rcd.ctxbase ≠ 0 ∧ placeCore Ctx.team.place = some 0 ∧ accStuck Ac 0 (fun _ => true) = true ∧
    (∀ c ∈ coreCrews Ac 0, detCrew Ac c = false) ∧ [esp false] = [] ++ esp false :: [] ∧ (esp true).started = true ∧
    (∀ c ∈ allCrews S, c.ops.any isTload = false) ∧ (crewOf S (fun c => { c with wait := .solve })).crew.wait = .solve := by
  decide +kernel

/-- A put of 8 bytes from the scratchpad to device 1, and a get. -/
def fab (get : Bool) : FabOp := ⟨get, 0x4000000000000000, 0x3001000000000000, 8, none, 0, false, 0⟩

def fliesF (k : OpKind) : Op := ⟨.fabric, k, [], false, false, false, 0⟩
def fabS (get : Bool) : State := crewOf S (fun c => { c with ops := [fliesF (.fabric (fab get))] })

theorem witness_FabricEvents : (fabNext (fabS false)) = some (fliesF (.fabric (fab false))) ∧
    fld (fab false).remotePtr 59 48 ≠ fxSelf S ∧
    okAnd (copyGet (fab false).localPtr 8 (fabS false))
      (fun x => x.2.1 == false && same (fabS false) x.2.2) = true ∧
    okAnd (copyPut (fab true).localPtr (List.replicate 8 1) (fabS true)) (same (fabS true)) = true ∧
    isFab (fliesF (.fabric (fab true))) = true ∧ isFab (fliesF (.remote false [⟨0x3001000000000000, .read 8, 32⟩] none)) = true ∧
    (∀ x ∈ allCrews S, x.ops.any isFab = false) ∧ S.dev.d3 = false ∧ (3 : Nat) ∉ S.dev.portsDown := by decide +kernel

/-- Aperture-0x3 accesses of peers reach the address space that FXROOT names. -/
def In : State := { S with dev := { S.dev with fxroot := S.job.root } }

theorem witness_Ingress : okAnd (ingressDo 0x1100 (.write [1, 2, 3, 4, 5, 6, 7, 8]) In) (fun _ => true) = true := by decide +kernel
/-! ## Witnesses: the events of the device -/

/-- A record that a queue of either world may hold. -/
def rec0 : Rec := { hostRec with spad := 0, regg := 1, slices := 1, ctxbase := 0x200000 }
def qrec0 (r : Rec) : QRec :=
  { uid := 1, rcd := r, parent := none, pushDie := 0, secure := false, pre0 := .met, pre1 := .met, missed := false }
/-- Queue 9 with records, on a device that is up. -/
def Q (en : Nat) (l : List QRec) : State := { U with queues := [(9, { SliceQueue.reset with
  qctl := BitVec.ofNat 64 (2 ^ 63 * en + 64), qptroot := S.job.root, recs := l })] }
/-- A prerequisite in the code page that asks for 7. -/
def waiting : QRec := { qrec0 { rec0 with preq0addr := 0x1100, preq0seq := 7 } with pre0 := .unmet }
/-- The same with a word there. -/
def Qp (word : Nat) : State := memWr none 0x200100 (natToBytes 8 word) (Q 1 [waiting])
/-- What the scheduler reads there. -/
def preqWord (s : State) : Option Nat :=
  match readVa (schedAsker (failedJob s 9 (sliceQ s 9) waiting 0)) 0x1100 8 s with
  | .ok (b, false, _) => some (bytesToNat b)
  | _ => none

theorem witness_Queues : Expect.up U ∧ qEn (sliceQ (Q 1 []) 9).qctl = true ∧ qFull (Q 1 []) 9 = false ∧ qEn (sliceQ (Q 0 []) 9).qctl = false ∧
    (List.replicate 128 (0 : Byte)).length = 128 ∧ (sliceQ (Qp 7) 9).recs[0]? = some waiting ∧ waitsIo (Qp 7) (.prereq 1 0) = false ∧
    preqWord (Qp 7) = some 7 ∧ preqWord (Qp (2 ^ 63 + 7)) = some (2 ^ 63 + 7) ∧ preqWord (Qp 6) = some 6 := by
  unfold Expect.up; decide +kernel

theorem witness_Selection : (selectRec (Q 1 [qrec0 rec0]).queues).map (·.2) = some (9, 0) ∧ recFieldsOk rec0 = true ∧
    recWorldOk (sliceQ (Q 1 [qrec0 rec0]) 9) (qrec0 rec0) = true ∧
    (selectRec (Q 1 [qrec0 { rec0 with format := 2 }]).queues).map (·.2) = some (9, 0) ∧
    recFieldsOk { rec0 with format := 2 } = false := by decide +kernel

/-- A job slice whose only team waits; the crew in focus belongs to another. -/
def jobW : Job := { S.job with take := 2, rcd := rec0, budgetOwner := 2, deadline := 5 }
def teamW (p : TeamPlace) : Team := { Team.reset with job := 2, idx := 0, place := p }
def Pl : State := { U with jobs := [jobW], teams := [teamW .waiting] }

theorem witness_Placement : (findJob Pl 2 = some jobW ∧ findTeam Pl 2 0 = some (teamW .waiting)) ∧ nextTeam Pl (teamW .waiting) = true ∧
    heldBack Pl jobW 1 = false ∧ jobW.rcd.flags.testBit 0 = false ∧ (openDies Pl jobW 0 (canTake Pl jobW)).contains 0 = true ∧
    (coreFor Pl (canTake Pl jobW) 0).isSome = true ∧ jobW.phase = .running ∧
    (findJob { Pl with jobs := [{ jobW with exhausted := true, missed := true }] } 2).map (·.exhausted) = some true ∧
    (stopVictims jobW 0 ((victimJobs Pl jobW).flatMap (fun l => (victimsOf Pl
      (fun c => (allowedDies Pl jobW 0).contains (dieOf c)) l).map (fun v => (l.take, v)))) Pl).isSome = true := by decide +kernel

/-- Y on a device that is up. -/
def Yu : State := { U with crews := Y.crews }

theorem witness_Switch : Expect.up Yu ∧ (findCrew Yu ⟨1, 0, 1⟩).isSome = true ∧ (findTeam Yu 1 0).map (·.place) = some (.resident 0) ∧
    (∀ c ∈ Yu.crews, crewOn Yu 0 c = true ∧ c.active = false ∧ crewReady Yu c = true) ∧ activeOn Yu 0 < 8 := by
  unfold Expect.up; decide +kernel

/-- A job slice with nothing left to do but an end of its life. -/
def Ending (p : JobPhase) (r : Rec) (fail : Nat) : State :=
  { U with jobs := [{ S.job with take := 2, rcd := r, phase := p, failReason := fail }], teams := [teamW .done] }
def done0 : Rec := { rec0 with doneaddr := 0x1100, doneseq := 7 }

theorem witness_Completion : teamsOver (Ending .running rec0 0) 2 = true ∧ childrenDone (Ending .running rec0 0) 2 = true ∧
    (∀ c ∈ allCrews (Ending .running rec0 0), c.key.job = 2 → c.sieve = []) ∧ rec0.flags.testBit 14 = false ∧
    rec0.flags.testBit 15 = false ∧ waitsIo (Ending .gridDone rec0 0) (.digest 2) = false ∧
    (match (findJob (Ending .gridDone rec0 0) 2).map (fun j => digestMsg j (Ending .gridDone rec0 0)) with
      | some r => okAnd r (fun x => x.1 == [] && !x.2.1)
      | none => false) = true ∧
    waitsIo (Ending .storing rec0 0) (.completion 2) = false ∧ rec0.doneaddr = 0 ∧ wordPtr 0x1100 = true := by decide +kernel

theorem witness_Stores : (findJob (Ending .storing done0 3) 2).map (·.failReason) = some 3 ∧ childrenDone (Ending .storing done0 3) 2 = true ∧
    okAnd (writeVa (schedAsker { S.job with take := 2, rcd := done0 }) none 0x1100 (natToBytes 8 7) (Ending .storing done0 0)) (fun _ => true) = true ∧
    okAnd (writeVa (schedAsker { S.job with take := 2, rcd := done0 }) none 0x1100 (natToBytes 8 (7 ||| 2 ^ 63)) (Ending .storing done0 3))
      (fun _ => true) = true := by decide +kernel

/-- Ring 2 of 64 records, with an event to be written. -/
def ev0 : Event := ⟨7, 3, 1, 1, 0, 9, 0, 0, 0, false, false, none, false⟩
def Ev : State := { U with rings := [(2, ⟨0x300000, 64, 0, 0⟩)], events := [ev0] }

theorem witness_Events : Expect.up Ev ∧ Ev.events = [] ++ ev0 :: [] ∧ eventReady Ev ev0 = true ∧ ev0.irq = false ∧
    ringRoom (ringOf Ev 2) = true ∧ 2 * (ringUsed (ringOf Ev 2) + 1) < (ringOf Ev 2).size.toNat := by unfold Expect.up; decide +kernel

/-- A job slice past its deadline; one whose budget is spent. -/
def Late : State := { U with fine := 210, job := { S.job with deadline := 5 } }
def Broke : State := { U with job := { S.job with rcd := { S.job.rcd with budget := 5 }, charged := 5 } }

theorem witness_Deadlines : (findJob Late 1) = some Late.job ∧ Late.job.take = 1 ∧ Late.job.phase ≠ .done ∧ Late.job.missed = false ∧
    Late.job.deadline < devTime Late ∧ Late.job.rcd.flags.testBit 2 = false ∧ Late.dev.tripped = false ∧
    findJob Broke 1 = some Broke.job ∧ budgetOut Broke.job = true ∧ Broke.job.rcd.flags.testBit 0 = false ∧
    (∀ c ∈ allCrews Broke, c.handler = none) ∧ drawsOn Broke 1 Broke.crew = true := by decide +kernel

/-- A stopping team with a mapped context area: 2 MiB at 0x200000 mapped by one leaf. -/
def Ctx2 (p : TeamPlace) : State :=
  { U with
    mem := putWord 0x103008 (leafEntry 0x400000) U.mem
    job := { U.job with rcd := rec0 }
    team := { U.team with place := p } }

theorem witness_Saves : Expect.leads (Ctx2 (.stopping 0)) ∧ Expect.up (Ctx2 (.stopping 0)) ∧ teamSavable (Ctx2 (.stopping 0)) = true ∧
    waitsIo (Ctx2 (.stopping 0)) (.context 1 0) = false ∧ 
    okAnd (contextAccess 0 1 (Ctx2 (.stopping 0)))
      (fun p => same (Ctx2 (.stopping 0)) (saveTeam 0 (putHeader 1 (headerPa p.1) p.2))) = true := by
  unfold Expect.leads Expect.inFocus Expect.up; decide +kernel

theorem witness_Restores : Expect.leads (Ctx2 .saved) ∧ canHold (Ctx2 .saved) (Ctx2 .saved).job (Ctx2 .saved).team 3 = true ∧
    heldBack (Ctx2 .saved) (Ctx2 .saved).job (dieOf 3) = false ∧ findJob (Ctx2 .saved) 1 = some (Ctx2 .saved).job ∧
    findTeam (Ctx2 .saved) 1 0 = some (Ctx2 .saved).team ∧ (∀ i ∈ savedTeams (Ctx2 .saved) 1, waitsIo (Ctx2 .saved) (.context 1 i) = false) ∧
    same (Ctx2 .saved) (restoreOn 3 (Ctx2 .saved)) = true := by
  unfold Expect.leads Expect.inFocus; decide +kernel

/-- A deterministic crew at the end of its first interval, the exponent 6. -/
def Fl : State := { U with
  job := { D.job with rcd := { D.job.rcd with detexp := 6 } }
  crew := { S.crew with clock := 64 } }

theorem witness_Flushes : isDet Fl = true ∧ Fl.job.phase = .running ∧ (jobCrews Fl 1).head? = some Fl.crew ∧ flushWanted Fl = true ∧
    flushPlaced Fl = true ∧ flushReady Fl 0 = true ∧ same Fl (flushAll 0 Fl) = true := by decide +kernel

/-- A stale translation that nothing uses; a fault to be recorded, and one answered, with a crew parked in it. -/
def tlb0 : TlbEntry := ⟨.core, 0, 0, false, 5, 0x300000, [], true, [], false⟩
def merge0 (written : Bool) : Merge := ⟨0, 4, 0, false, 5, false, written, 0x5000, 1, 0, 0, 4, 0, 0, 0, [], []⟩
def park0 : Park := ⟨0, 4, false, false, 0x5000, 0, 0⟩
def Tr (written : Bool) : State := { U with
  tlbs := [tlb0]
  merges := [merge0 written]
  rings := [(0, ⟨0x300000, 64, 0, 0⟩)]
  crew := { S.crew with park := if written then some park0 else none }
  job := { S.job with rcd := { S.job.rcd with handler := 0x2000 } } }

theorem witness_Translation : (Tr false).tlbs[0]? = some tlb0 ∧ ackReady (Tr false) tlb0 = true ∧ (Tr false).dev.asidinv = [] ∧
    (Tr false).merges = [] ++ merge0 false :: [] ∧ ringRoom (ringOf (Tr false) 0) = true ∧ answered (Tr true) false false 4 = some (merge0 true) ∧
    (merge0 true).waiters = [] ∧ (Tr true).crew.park = some park0 ∧ (∀ c ∈ allCrews (Tr false), parkedIn 0 4 c = false) ∧
    (∀ c ∈ (Tr true).crews, parkedIn 0 4 c = false) ∧ Expect.canTrap (Tr true) ∧ Expect.quiet (Tr true) := by
  unfold Expect.canTrap Expect.quiet; decide +kernel

/-- The code page is duplicable, with a pool on die 1; a page's advice. -/
def Rp : State := { U with
  mem := putWord 0x104008 (leafEntry codePa + 1024) U.mem
  dev := { U.dev with repbase := [(1, 0x600000)], repsize := [(1, 0x10000)] } }
def adv0 : MonAdvice := ⟨1, asidOf S.job.root, false⟩

theorem witness_Replicas : rootOf Rp adv0.asid false = some S.job.root ∧ okAnd (walk Rp S.job.root 0x1000)
      (fun l => l.e.getLsbD 10 && decide (l.bits ≤ 16) && decide (entryPA l.e = codePa) && decide (l.bits = 12)) = true ∧ poolFrame Rp 1 4096 = some 0x600000 ∧
    Rp.replicas = [] ∧ (∀ r ∈ [(⟨1, 0x200000, 4096, 0x600000, 0, true⟩ : Replica)], r.dead = true) ∧
    (∀ m ∈ U.merges, heldFor 0x200000 m = false) := by decide +kernel

/-- A bank on its way to scratchpad mode. -/
def busyBank : BankReg := { BankReg.reset with busy := true, done := false, mode := 1 }

theorem witness_Registers : Expect.up U ∧ BankReg.reset.busy = false ∧ (1 ≠ BankReg.reset.mode) ∧ busyBank.busy = true ∧ busyBank.cur ≠ 2 ∧
    (∀ j ∈ allJobs { U with dev := { U.dev with abortSeq := 99 } }, j.rcd.doneseq ≠ 99) := by unfold Expect.up; decide +kernel

/-- A host window of 1 GiB at 0. -/
def Hw : State := { U with dev := { U.dev with hdmsize := 1 } }

theorem witness_Device : causeHolds U = false ∧ causeHolds { U with dev := { U.dev with power := 3400 } } = true ∧
    smGet 0 U.dev.temps 9 < 82 ∧ hostMay Hw 0x300000 8 = true ∧ hostMay U 0x300000 8 = false := by decide +kernel

/-- A crew with a deferred trap to take. -/
def Dt : State := crewOf T (fun c => { c with ptraps := [⟨0x0B, 5, .now⟩] })

theorem witness_Traps : budgetDue Dt = Dt ∧ atBoundary Dt = true ∧ trapDue Dt = true ∧ same Dt (takeDeferred (settleLoads Dt)) = true ∧
    S.crew.status = .running ∧ S.crew.park = none := by decide +kernel

/-! ## Witnesses: the whole machine -/

theorem witness_Events_reach : (focus ⟨1, 0, 1⟩ Y).isSome = true ∧ focus ⟨9, 9, 9⟩ Y = none := by decide +kernel

/-- li s5, #-3 on a turn of the scalar stream, an illegal word, and vmov on a turn of the lane stream. -/
def St (w : Nat) : State := State.reset.withFetchWord 32 w
def Sl (w : Nat) : State := State.reset.withFetchWord 96 w

theorem witness_StepScalar : (St 0x1C5FFFFD).dev.tripped = false ∧ scalarMay (St 0x1C5FFFFD) = true ∧ trapFirst (St 0x1C5FFFFD) = false ∧
    okAnd (fetchScalar (St 0x1C5FFFFD)) (fun x => (decodeScalar x.1 x.2).any (fun i => !scalarParity (St 0x1C5FFFFD) i)) = true ∧
    (St 0x1C5FFFFD).crew.ops = [] ∧ okAnd (fetchScalar (St 0)) (fun x => decodeScalar x.1 x.2 == none) = true ∧
    (focus hostKey (St 0)).isSome = true := by decide +kernel

theorem witness_StepLane : (Sl 0x001003000000000000000000).dev.tripped = false ∧
    atCrew hostKey freshLane (Sl 0x001003000000000000000000) = true ∧ (nextGang false (Sl 0x001003000000000000000000)).isSome = true ∧
    trapFirst (Sl 0x001003000000000000000000) = false ∧ okAnd (laneWordAt (Sl 0x001003000000000000000000) 0x1000)
      (fun v => (decodeLane v).isSome) = true ∧ okAnd (laneWordAt (Sl 0xC00000000000000000000000) 0x1000)
      (fun v => decodeLane v == none) = true := by decide +kernel

theorem witness_Encodings : (encFields (.liW 9 0x12345678)).isSome = true ∧ (Instr.liW 9 0x12345678).wf = true ∧
    encImm (.liW 9 0x12345678) = [0x12345678] ∧ (encLane (.join bare)).isSome = true ∧ (Instr.join bare).wf = true := by decide +kernel

theorem witness_Canonical : (St 0x1C5FFFFD).sound = true ∧ pcsAfter (St 0x1C5FFFFD) = some (0x1004, none) := by decide +kernel

/-! ## Witnesses: more clauses of the scalar stream, engines and fabric instructions -/

/-- A child job slice of S. -/
def Fam : State := { S with jobs := [{ S.job with take := 2, parent := some 1 }] }

theorem witness_Children : ∃ j ∈ allJobs Fam, j.parent = some 1 ∧ j.phase ≠ .done ∧ j.failReason = 0 ∧ j.take ≠ 1 := by
  decide +kernel

theorem witness_Exit : Expect.inFocus S ∧ S.crew.region = none ∧ anyOps S.crew = false ∧ S.crew.handler = none ∧
    Expect.noRuns S.crew.ln ∧ S.crew.hadToken = false ∧ Expect.nobodyWaits S ∧ S.crew.key.crew < 16 ∧
    (placeCore S.team.place).isSome = true ∧ S.job.phase = .running ∧
    (∀ x ∈ teamCrews S, x.key ≠ S.crew.key → x.status = .complete ∧ x.ops = []) ∧ Expect.inFocus Y ∧ Expect.nobodyWaits Y ∧
    ∃ x ∈ teamCrews Y, x.key ≠ Y.crew.key ∧ x.status ≠ .complete := by
  unfold Expect.inFocus Expect.noRuns Expect.nobodyWaits; decide +kernel

/-- The state in which spawn.try has read its record. -/
def spawnAt (s : State) : State :=
  match readRec (rdS s 1) s with
  | .ok (_, t) => t
  | .error _ => s
def detOf (s : State) : State := { s with job := { s.job with rcd := { s.job.rcd with flags := 1 } } }

theorem witness_ChildPushesRoom : Expect.settled (spawnAt (spawner 64 0 0)) 5 true false ∧ isDet (spawnAt (spawner 64 0 0)) = false ∧
    Expect.settled (spawnAt (detOf (spawner 64 0 0))) 5 true false ∧ isDet (spawnAt (detOf (spawner 64 0 0))) = true ∧
    firstOfAll (.qPush (2 ^ 15 + 9)) (spawnAt (detOf (spawner 64 0 0))) = true ∧
    spawnReads (detOf (spawner 64 64 0)) = some (0, true, true) ∧ qEn (sliceQ S 9).qctl = false ∧ Y.crews.map (·.key.crew) = [1] := by
  unfold Expect.settled Expect.drained; decide +kernel

/-- A graft whose hint is the code page, which the page table places on die 1. -/
def Gr : State :=
  { U with
    mem := putWord 0x104008 (leafEntry codePa + 2 ^ 55 + 2 ^ 52) U.mem
    crew := { S.crew with wait := .graft 0x1000 } }

theorem witness_GraftMoves : Expect.inFocus Gr ∧ Gr.crew.key.crew = 0 ∧ Gr.team.place = .resident 0 ∧ clockOn Gr = true ∧
    teamCrews Gr = [Gr.crew] ∧ graftReady Gr = true ∧ isDet Gr = false ∧ Gr.crew.graftKept = none ∧ (graftTarget 0 Gr).map dieOf = some 1 ∧
    Gr.l1 = [] ∧ Gr.crew.ops = [] ∧ (graftTarget 0 Gr).any (fun c => decide (banksUsed Gr c + Gr.crew.banks.length ≤ 16)) = true ∧ Gr.crew.spilled = [] ∧ Gr.crew.ptraps = [] ∧ Gr.crew.status = .running ∧
    Gr.crew.hadToken = false ∧ (coreAt Gr 0).token ≠ some Gr.crew.key ∧ Expect.nobodyWaits Gr ∧ S.crew.graftKept = none := by
  unfold Expect.inFocus Expect.nobodyWaits; decide +kernel

theorem witness_RemoteAccesses : (placeOf S (rdS (withRegs [0x3001000000001000] S) 1) 8 0).map Expect.isLocal = some false ∧
    (placeOf S 0x3001000000001000 4 1).map Expect.isLocal = some false ∧ (placeOf S 0x3001000000001000 4 2).map Expect.isLocal = some false ∧
    outstanding S.crew .load < 4095 ∧ outstanding S.crew .store < 4095 ∧ outstanding S.crew .fabric < 4095 ∧
    sentScalar ⟨0x3001000000001000, .read 8, 32⟩ S = false ∧ sentScalar ⟨0x3001000000001000, .write (natToBytes 4 0), 32⟩ S = false ∧
    sentScalar ⟨0x3001000000001000, .amo 0 4 0 0, 32⟩ S = false := by decide +kernel

theorem witness_Atomics : S.crew.region = none ∧ Expect.ordOf 3 = (5, true, true) ∧ Expect.ordered S 5 true true ∧ Expect.ordered S 6 true true ∧
    Expect.ordOf 0 = (0, false, false) ∧ Expect.ordered flight 0 false false ∧ isDet D = true ∧ Expect.ordered D 5 true true ∧
    (placeOf D 0x1000 8 2).isSome = true ∧ (D.crew.sieve.filter (fun e => e.flush == intervalOf D)).length < 1024 ∧
    (inRegion S).crew.region.isSome = true ∧ (0xFFFFFFFF : W64).toNat < 2 ^ 32 := by
  refine ⟨by decide +kernel, rfl, .inr ?_, .inr ?_, rfl, .inl rfl, by decide +kernel, .inr ?_, by decide +kernel, by decide +kernel,
    by decide +kernel, by decide +kernel⟩ <;> (unfold Expect.settled Expect.drained; decide +kernel)

theorem witness_FencesSettled : Expect.settled S 6 true true ∧ S.crew.sieve = [] ∧ runsOut flight.crew = 0 ∧
    (∃ x ∈ flight.crew.ops, fenceHolds 6 true true x = true ∧ behindSieve flight.crew x = false) ∧ opCount S.crew (classOf 0) ≤ 0 ∧
    okAnd (cmoCheck 4 0x1000 64 S) (fun _ => true) = true := by
  unfold Expect.settled Expect.drained; decide +kernel

theorem witness_CopiesMore : barrierOf { C with team := { C.team with barriers := [(1, some ⟨2, [], 0, false, false, 0⟩)] } } 1 =
    some ⟨2, [], 0, false, false, 0⟩ ∧ outstanding C.crew .copy < 4095 ∧ (handleOf C 1).map (·.st) = some .filling ∧
    crewReady (crewOf C (fun c => { c with wait := .cpYield 1 0 })) (crewOf C (fun c => { c with wait := .cpYield 1 0 })).crew = false := by
  decide +kernel

/-- Two crews of a team, the other one waiting at barrier 1, which the next arrival completes. -/
def Two (w : Wait) : State := { barState 2 [0] false with crews := [{ S.crew with key := ⟨1, 0, 1⟩, wait := w }] }
def mate (w : Wait) : Crew := { S.crew with key := ⟨1, 0, 1⟩, wait := w }

theorem witness_BarrierCompletes : Expect.inFocus (Two (.barHold 1)) ∧ (Two (.barHold 1)).crew.region = none ∧ (Two (.barHold 1)).l1 = [] ∧
    barrierOf (Two (.barHold 1)) 1 = some ⟨2, [0], 0, false, false, 0⟩ ∧ [0].length + 1 = 2 ∧ isDet (Two (.barHold 1)) = false ∧
    (Two (.barHold 1)).crew.barKept = none ∧ (Two (.barHold 1)).crew.ops.any (fenceHolds 2 true true) = false ∧
    teamCrews (Two (.barHold 1)) = [S.crew, mate (.barHold 1)] ∧ teamCrews (Two (.barMeet 1 0)) = [S.crew, mate (.barMeet 1 0)] ∧
    (mate (.barHold 1)).key ≠ S.crew.key ∧ (mate (.barHold 1)).barKept = none ∧ S.crew.wait = .none := by
  unfold Expect.inFocus; decide +kernel

theorem witness_BarrierUses : barWaiters 1 (barState 2 [] false) < 16 ∧ barWaiters 1 (Two (.barHold 1)) = 1 ∧
    barrierOf (barState 2 [] true) 1 = some ⟨2, [], 0, true, false, 0⟩ ∧ S.crew.ops.any (fenceHolds 2 false true) = false := by decide +kernel

/-- The name of slice queue 9 and the address of a record. -/
def sliceName (s : State) : State := withRegs [0x7000000000008009, 0x1080] s

theorem witness_DataQueuesOrdered : Expect.ordered (dqState 64 [7]) 6 true false ∧ Expect.ordered (dqState 64 [7]) 6 false true ∧
    (dataQ (dqState 64 [7]) 5).bad.contains 0 = false ∧ isDet (dqState 64 [7]) = false ∧ (dqState 64 [7]).crew.region = none ∧
    isDet (detOf (dqState 64 [7])) = true ∧ Expect.ordered (detOf (dqState 64 [7])) 5 true false ∧
    Expect.ordered (detOf (dqState 64 [7])) 5 false true := by
  refine ⟨.inr ?_, .inr ?_, by decide +kernel, by decide +kernel, by decide +kernel, by decide +kernel, .inr ?_, .inr ?_⟩ <;>
    (unfold Expect.settled Expect.drained; decide +kernel)

theorem witness_SliceQueuePush : queueName (rdS (sliceName (spawner 64 0 0)) 1) = some (.slice 9) ∧
    qEn (sliceQ (sliceName (spawner 64 0 0)) 9).qctl = true ∧ qSecure (sliceQ (sliceName (spawner 64 0 0)) 9).qctl = false ∧
    Expect.ordered (sliceName (spawner 64 0 0)) 0 true false ∧
    okAnd (readRec 0x1080 (fenceLines 0 true false (sliceName (spawner 64 0 0)))) (fun x => !qFull x.2 9) = true ∧
    (sliceName (spawner 64 0 0)).job.rcd.depth < 10 ∧
    firstOfAll (.qPush (fld 0x7000000000008009 15 0)) (sliceName (spawner 64 0 0)) = true :=
  ⟨by decide +kernel, by decide +kernel, by decide +kernel, .inl rfl, by decide +kernel, by decide +kernel, by decide +kernel⟩

/-- The holder of the token and a crew of its team that waits for it. -/
def Tp : State := tok { S with crews := [mate (.token 0)] }

theorem witness_TokenPass : Expect.inFocus Tp ∧ Expect.holdsToken Tp ∧ isDet Tp = false ∧ (mate (.token 0)).key ≠ Tp.crew.key ∧
    (mate (.token 0)).key.job = Tp.crew.key.job ∧ (mate (.token 0)).key.team = Tp.crew.key.team ∧ (mate (.token 0)).hadToken = false ∧
    findCrew Tp (mate (.token 0)).key = some (mate (.token 0)) ∧ (coreCrews Tp (coreOf Tp)).filter wantsToken = [mate (.token 0)] ∧
    Expect.holdsToken (tok D) ∧ isDet (tok D) = true ∧ (coreAt S (coreOf S)).passer = none ∧ ¬ Expect.holdsToken S := by
  unfold Expect.inFocus Expect.holdsToken; decide +kernel

theorem witness_MatrixMore : (∀ g ∈ wtGranules 0 48, W.team.absent.contains g = false) ∧ wtGranules 0 48 ≠ [] ∧
    granulesOn W (coreOf W) + ((wtGranules 0 48).filter (fun g => !(usedGranules W W.team).contains g)).length ≤ 128 ∧
    Ml.crew.spilled.contains 0 = false ∧ outstanding Ml.crew .matrix < 4095 ∧ outstanding W.crew .matrix < 4095 := by decide +kernel

theorem witness_RegionTraps : liveIn (inRegion S) 1 = true ∧ Expect.plainDest (inRegion S) (.addi 1 0 0) 1 ∧
    Expect.barred (.matZeroFp 0) = some (some .matrix) ∧ roleMay (roleOf (inRegion S)) .matrix = true ∧ Expect.barred .exit = some none ∧
    sieveOf .scatter (inRegion S).crew = [] ∧ S.crew.region = none :=
  ⟨by decide +kernel, .inr (.inr (.inl ⟨_, _, rfl⟩)), rfl, by decide +kernel, rfl, by decide +kernel, by decide +kernel⟩

/-- A region open in a crew that holds barrier 1 and a ring's handles; its live-ins are every scalar register. -/
def inAll (s : State) : State := crewOf s (fun c => { c with region := some ⟨BitVec.allOnes 64, 0, 0, 0x1000, 0, 0, 0⟩ })

theorem witness_RegionLiveIns : liveIn (inAll (barState 2 [] false)) 63 = true ∧ Expect.goes (inAll S) 0 0 = true ∧
    Expect.inCode 0x1000 = true ∧ Expect.onWord 0x1000 = true ∧ barrierOf (inAll (barState 2 [] false)) 1 = some ⟨2, [], 0, false, false, 0⟩ ∧
    okAnd (ringDesc (rdS (inAll C) 1)) (fun _ => true) = true ∧ liveIn (inAll C) 2 = true ∧ roleMay (roleOf (inAll S)) .solve = true := by
  decide +kernel

theorem witness_FabricMore : Expect.settled S 6 false true ∧ outstanding S.crew .fabric < 4095 ∧
    (∀ r ∈ S.reduces, r.planid ≠ 5 ∨ r.epoch ≠ 0) ∧ ∃ r ∈ { S with reduces := [⟨5, 0, [], false⟩] }.reduces, r.planid = 5 ∧ r.epoch = 0 := by
  unfold Expect.settled Expect.drained; decide +kernel

/-- Ti with the tile not compiled; without an entry. -/
def Tn (c : Bool) : State := { Ti with espalier := Ti.espalier.map (fun e => { e with compiled := c }) }
def Tm : State := { Ti with espalier := [] }

theorem witness_TilesMore : okAnd (memRead 32 0x1100 64 (Tn false))
      (fun x => (espFind x.2 0x1100 (BitVec.ofNat 32 (tileHdr x.1).gen)).any (fun e => !e.compiled)) = true ∧
    okAnd (memRead 32 0x1100 64 Tm) (fun x => (espFind x.2 0x1100 (BitVec.ofNat 32 (tileHdr x.1).gen)).isNone &&
      okAnd (memRead 32 (tileHdr x.1).sptr (structBytes (tileHdr x.1)) x.2) (fun y => (tileRows (tileHdr x.1) y.1).isSome)) = true ∧
    isDet D = true ∧ espPending D 0x1100 0 = false ∧ espPending (Tn false) 0x1100 0 = true ∧
    espPending (detOf (Tn false)) 0x1100 0 = true ∧ liveIn S 4 = false ∧ Ml.crew.spilled.contains 0 = false := by decide +kernel

/-! ## Witnesses: more clauses of the lane stream -/

theorem witness_VfenceDrained : Expect.drained (dropGang gang0 L) 5 true true ∧ activeLanes L run0 gang0 (word 0 0 0 0 0 21) ≠ [] ∧
    laneX (word 0 0 0 0 0 21) % 8 = 5 ∧ isDet L = false ∧ L.crew.key.crew = 0 := by
  unfold Expect.drained; decide +kernel

/-- Deterministic mode with a lane run in execution. -/
theorem witness_EwaitRuns : isDet { L with job := { L.job with rcd := { L.job.rcd with flags := 1 } } } = true ∧
    runsOut { L with job := { L.job with rcd := { L.job.rcd with flags := 1 } } }.crew ≠ 0 := by decide +kernel

/-- The accesses of a lane word, if they are checked and translated. -/
def accsOf (s : State) (w : LaneWord) (n kind : Nat) : List LaneAcc :=
  match lanesAt (dropGang gang0 s) n kind (laneAddr (dropGang gang0 s) w n) (activeLanes s run0 gang0 w) with
  | .ok l => l
  | .error _ => []

theorem witness_LaneLoadsGood : (accsOf La (word 0 3 6 0 0 0) 4 0).length = 4 ∧
    (∀ x ∈ (readLanes 4 false (accsOf La (word 0 3 6 0 0 0) 4 0) [] (dropGang gang0 La)).1, x.2.2.2 = false) := by decide +kernel

theorem witness_LaneStoresInPages : (accsOf La (word 0 0 6 0 1 0) 4 1).map (·.place.loc) =
      [.phys 0x200100 0, .phys 0x200110 0, .phys 0x200120 0, .phys 0x200130 0] ∧ La.l1 = [] ∧
    placeOf S 0x1000 8 1 = some (.phys 0x200000 0) := by decide +kernel

/-- A schedule with a turn to come at which a store of the crew is performed. -/
noncomputable def Held : State := { withRegs [0x1000, 7] S with turns := [.event (.storePerformed S.crew.key)] }
def lineH : L1Line := ⟨0, 0x200000 / 128, .hwc, List.replicate 128 7, 1, []⟩

/-- Until then the core alone sees it, and after a fence of die scope everyone (R162, R177, R179). -/
theorem test_store_held : (match exec (.st 2 1 0 0) Held with
    | .next t => some (memRd t 0x200000 1, (rdLoc (.phys 0x200000 0) 1 false t).1, t.l1.map (·.kind),
        memRd (fenceLines 3 true false t) 0x200000 1, memRd (fenceLines 4 true false t) 0x200000 1)
    | _ => none) = some ([0], [7], [.hwc], [0], [7]) := by decide +kernel

theorem witness_HeldStores : holdsStores Held = true ∧ holdsStores S = false ∧
    placeOf Held 0x1000 1 1 = some (.phys 0x200000 0) ∧ Held.l1 = [] ∧ lineH.data.length = 128 ∧
    [lineH] = { inFlight (.store [.phys 0x200000 0]) S with l1 := [lineH] }.l1 ∧ lineH.core = coreOf S ∧
    lineH.line = 0x200000 / 128 := by decide +kernel

/-- The contributions of a vsct.add. -/
noncomputable def sumsOf (s : State) (w : LaneWord) : List ScatAdd :=
  match laneFmt (.vsctAdd w) with
  | some (f, _) => ((scatElems (dropGang gang0 s) f w (accsOf s w 4 2)).foldl (fun (acc : List ScatAdd × Flags) x =>
      ((rake x acc.1).1, acc.2 ||| (rake x acc.1).2)) ([], 0)).1
  | none => []

theorem witness_ScatterAdds : (sumsOf Ls (word 0 0 6 0 1 0)).length = 4 ∧ isDet (detOf Ls) = true ∧ run0.run.region = false ∧
    (sumsOf (detOf Ls) (word 0 0 6 0 1 0)).length = 4 ∧ (detOf Ls).crew.sieve = [] ∧
    (∃ f accs, Expect.accesses (detOf Ls) (dropGang gang0 (detOf Ls)) (.vsctAdd (word 0 0 6 0 1 0)) f (word 0 0 6 0 1 0) run0 gang0
      4 2 .scatter accs) :=
  ⟨by decide +kernel, by decide +kernel, rfl, by decide +kernel, by decide +kernel, accesses_of_reaches (by decide +kernel)⟩

/-- vamo.add in order acquire and release at device scope. -/
def amoW : LaneWord := ⟨false, 1, 3, 0, 6, 1, 0, 0, 0, 0, 0, 96, 0⟩

theorem witness_LaneAtomicsOrdered : (∃ f, Expect.issues Ls (.vamo amoW) f amoW run0 gang0) ∧ amoW.md.toNat / 32 = 3 ∧
    Expect.drained (dropGang gang0 Ls) 5 true true ∧ activeLanes Ls run0 gang0 amoW ≠ [] ∧
    (∃ f, Expect.issues (detOf Ls) (.vamo amoW) f amoW run0 gang0) ∧ Expect.drained (dropGang gang0 (detOf Ls)) 5 true true ∧
    (∀ h ∈ run0.gangs.tail, h.members ≠ gang0.members) ∧ Expect.ordOf 3 = (5, true, true) :=
  ⟨issues_of_ready (by decide +kernel), by decide +kernel, by unfold Expect.drained; decide +kernel, by decide +kernel,
    issues_of_ready (by decide +kernel), by unfold Expect.drained; decide +kernel, by decide +kernel, rfl⟩

/-- A run enqueued in a region whose live-in is v3. -/
def runR : ARun := { run0 with run := { run0.run with region := true } }
def LR : State := crewOf Ls (fun c => { c with
  region := some ⟨0, 3, 1, 0x1000, 0, 0, 0⟩
  ln := { c.ln with cur := some runR } })

theorem witness_LaneRegions : (∃ f, Expect.issues LR (.vamo (word 1 5 6 1 0 0)) f (word 1 5 6 1 0 0) runR gang0) ∧
    (∃ f, Expect.issues LR (.vsctAdd (word 0 0 6 0 1 0)) f (word 0 0 6 0 1 0) runR gang0) ∧ runR.run.region = true ∧
    Expect.plainLane LR (word 0 3 1 2 0 0) runR gang0 (.vadd (word 0 3 1 2 0 0)) ∧ headGang LR = some (runR, gang0) ∧
    liveInV LR runR 3 1 = true ∧ activeLanes LR runR gang0 (word 0 3 1 2 0 0) = [0, 1, 2, 3] ∧
    (laneFmt (.vadd (word 0 3 1 2 0 0))).any (fun x => laneOk x.1 x.2 && decide (laneTop x.1 x.2 ≤ 64 * LR.job.rcd.regg) &&
      (latchesOf x.1 x.2).isEmpty && x.1.dn == 1 && !x.1.dpred) = true ∧
    halfLive LR runR ⟨0x20, 4, 3, 1, 2, 0⟩ [0, 1, 2, 3] = true ∧ pairOk ⟨0x20, 4, 3, 1, 2, 0⟩ ⟨0x30, 4, 17, 3, 4, 0⟩ = true ∧ halfLive L run0 ⟨0x20, 4, 8, 1, 2, 0⟩ [0, 1, 2, 3] = false :=
  ⟨issues_of_ready (by decide +kernel), issues_of_ready (by decide +kernel), rfl, .inl ⟨_, rfl⟩, by decide +kernel, by decide +kernel,
    by decide +kernel, by decide +kernel, by decide +kernel, by decide +kernel, by decide +kernel⟩

/-- The same with the live-in s3. -/
def LRs : State := crewOf LR (fun c => { c with region := some ⟨8, 3, 1, 0x1000, 0, 0, 0⟩ })
theorem witness_VxsInRegion : (∃ f, Expect.issues LRs (.vxs (word 0 3 1 0 0 0)) f (word 0 3 1 0 0 0) runR gang0) ∧
    liveIn LRs 3 = true ∧ liveIn LR 3 = false ∧ activeLanes LRs runR gang0 (word 0 3 1 0 0 0) ≠ [] :=
  ⟨issues_of_ready (by decide +kernel), by decide +kernel⟩

theorem witness_LaneBasics : (activeLanes L run0 gang0 (word 1 6 1 2 1 3)).head? = some 0 ∧ (∀ k ∈ gang0.members, k < run0.slices.length) ∧
    (∃ h ∈ (runOf [] [gang0, other 0x2000 .ready]).gangs.tail, h.wait = .ready) := by decide +kernel

theorem witness_EcmpOutside : isDet Lq = false ∧ (∃ l ∈ activeLanes Lr run0 gang0 straddleW,
    encDecide 2 (quadEnc (readQuad Lr 16 l)) (quadEnc (readQuad Lr 20 l)) = none) ∧
    encDecide 0 (.iv 0 1) (.iv 2 3) = some false ∧ ratCond 0 (1 / 2) (5 / 2) = false := by decide +kernel

/-- The comparison of Lw with the nodes of its graphs uncorrectable; and, outside deterministic mode, with one unit left. -/
noncomputable def Lx : State :=
  { Lw with
    team := { Lw.team with spadBad := (List.range 96).map (fun i => (logBase Lw / 8 + i, true)) }
    job := { Lw.job with rcd := { Lw.job.rcd with handler := 0x2000 } } }
noncomputable def Ly : State := { Lw with job := { Lw.job with rcd := { Lw.job.rcd with handler := 0x2000, flags := 0, budget := 1 } } }

/-- Where Whetstone's refinement of s ends: the ends accepted by a test of them, the state after, and the answers. -/
def ended (s : State) (p : List (Nat × LaneEnd) → State → EcmpEnd → Bool) : Bool :=
  match refining s with
  | some (r, g, w, failed) => okAnd (refineAll failed w (straddling s w (activeLanes s r g w)) s) (fun x =>
      x.1.all (fun y => y.2 != .free) && same s x.2 && p x.1 x.2 (ecmpEnd s w (activeLanes s r g w) x.1))
  | none => false
/-- A trap can be taken at once. -/
def trappable (s : State) : Bool :=
  decide (s.job.rcd.handler ≠ 0 ∧ codeBad s.job.rcd.handler = false ∧ s.crew.handler = none ∧ s.crew.ptraps = [] ∧ s.crew.ops = [])

theorem witness_WhetstoneEnds :
    ended Lx (fun _ t e => trappable t && (match e with
      | .error _ => (budgetLeft t t.job).isNone
      | .ok _ => false)) = true ∧
    ended Ly (fun l t _ => trappable t && !isDet t && t.job.budgetOwner == t.job.take && decide (t.job.rcd.budget ≠ 0) &&
      decide (t.job.rcd.budget.toNat + t.job.extended - t.job.charged < (l.map (fun x => endCost 0 x.2)).sum)) = true ∧
    ended Lw (fun _ t _ => (budgetLeft t t.job).isNone) = true := by decide +kernel

/-! ## Witnesses: more clauses of the events of operations, logs and engines -/

/-- An operation alone in flight in the crew in focus. -/
def aloneOp (k : OpKind) (s : State) : Bool :=
  decide ((inFlight k s).team.job = (inFlight k s).crew.key.job ∧ (inFlight k s).team.idx = (inFlight k s).crew.key.team ∧
    (inFlight k s).job.take = (inFlight k s).crew.key.job) && inOrder (inFlight k s).crew (flies k)

/-- A line of the core's L1 with its first byte written. -/
def line0 : L1Line := ⟨0, 0x200000 / 128, .swc, List.replicate 128 7, 1, []⟩
def amoP : AmoOp := ⟨10, 8, 0x1000, .phys 0x200000 0, 5, 0, 32, 3, 5⟩
def badPage (s : State) : State := { s with memBad := [(0x200000 / 8, true)] }

theorem witness_MemoryEventsOrder : (∀ k ∈ [OpKind.load 3 5 false 0, .laneLoad [(33, 5)], .gather [(33, 5)], .store [.phys 0x200000 1],
      .scatter [.phys 0x200000 1], .scatAdd [⟨0, .spad 0, .s32, 0, 1, 0⟩], .amo amo0, .vamo [amo0] 3], aloneOp k S = true) ∧
    [line0] = { inFlight (.store [.phys 0x200000 1]) S with l1 := [line0] }.l1 ∧ line0.core = coreOf S ∧ line0.kind = .swc ∧
    line0.line = 0x200000 / 128 ∧ line0.data.length = 128 ∧ (∀ n, (Loc.spad 0) ≠ .dctl n) :=
  ⟨by decide +kernel, rfl, by decide +kernel, rfl, rfl, by decide +kernel, fun _ h => by cases h⟩

theorem witness_Amo : badAt S.memBad 0x200000 8 = false ∧ badAt (badPage S).memBad 0x200000 8 = true ∧ S.l1 = [] ∧
    ([amoP].find? (fun y => amoBad y (badPage (crewOf L (fun c => { c with ops := [] }))))) = some amoP ∧
    lastGang L = some gang0 ∧ aloneOp (.vamo [amoP] 3) (badPage L) = true ∧
    (vamoLanes [amoP] S).1.length = 1 ∧ amoBad amoP S = false := by decide +kernel

/-- A copy inside the scratchpad. -/
def copyS : CopyOp := ⟨0x4000000000000100, 0x4000000000000200, 1, 16, 64, 64, 0, none, none⟩
def Ca : State := { Cf with tlbs := [⟨.core, 0, 0, false, 5, 0x300000, [0x200000 / 128], true, [], false⟩] }
/-- The copy of Cf to the code page. -/
def copyBack : CopyOp := ⟨0x4000000000000000, 0x1000, 2, 16, 64, 64, 0, none, none⟩
def Cs : State := { handle 0 .filling (inFlight (.copy copyBack) S) with tlbs := Ca.tlbs }

theorem witness_CopiesAwait : okAnd (copyMove copyBack Cs) (fun t => same Cs t && awaitsAck (copyLines copyBack t) t) = true ∧
    (firstCopy Cs).map (·.2) = some copyBack ∧ isSpad copyS.src = true ∧ isSpad copyS.dst = true ∧ S.team.pins = [] ∧
    badAt S.team.spadBad (copyS.src.toNat % 2 ^ 20) copyS.len = false := by decide +kernel

theorem witness_Partition : aloneOp (.part 4 0x1000 4 4 0 false) S = true ∧ okAnd (partResults 0x1000 4 4 0 (inFlight (.part 4 0x1000 4 4 0 false) S))
    (fun x => x.1.length == 4 && !x.2.1 && same (inFlight (.part 4 0x1000 4 4 0 false) S) x.2.2) = true := by decide +kernel

/-- Rd after the end of its scalar stream; a crew whose work is done. -/
def Re : State := crewOf Rd (fun c => { c with status := .exited })
def Dn : State := crewOf S (fun c => { c with status := .complete })

theorem witness_CrewEnds : Re.crew.status = .exited ∧ Re.crew.wait = .none ∧ Re.crew.ln.hcur = none ∧ Re.crew.ln.hqueue = [] ∧
    Re.crew.hadToken = false ∧ Expect.nobodyWaits Re ∧ Expect.inFocus Re ∧ Expect.inFocus Dn ∧ Dn.crew.handler = none ∧ Dn.crew.ln.cur = none ∧
    Dn.crew.key.crew < 16 ∧ (∀ c ∈ teamCrews Dn, c.status = .complete ∧ c.ops = []) ∧ (placeCore Dn.team.place).isSome = true ∧
    Dn.job.phase = .running ∧ (∃ c ∈ teamCrews { Dn with crews := Y.crews }, c.status ≠ .complete ∨ c.ops ≠ []) := by
  unfold Expect.nobodyWaits Expect.inFocus; decide +kernel

/-- Ve with its own slices waiting at a vedge for the west value, the east one there. -/
def Vf : State := crewOf Ve (fun c => { c with ln := { c.ln with
  cur := some { run0 with gangs := [{ gang0 with wait := .vedge }] }
  edge := { c.ln.edge with sent := true, stageE := some (9, 0) } } })

theorem witness_VedgeMeets : Ve.crew.ln.edge.stageE = none ∧ Expect.inFocus Ve ∧ Expect.inFocus Vf ∧ Vf.crew.handler = none ∧ isDet Vf = false ∧
    Vf.crew.ln.edge.sent = true ∧ Vf.crew.ln.edge.stageE = some (9, 0) ∧ Vf.crew.ln.edge.stageW = none ∧
    (edgeSender Vf Vf.crew.key false).isSome = true := by unfold Expect.inFocus; decide +kernel

/-- A log with one open segment: node 0 has no child and node 1 has node 0. -/
def Lg (p : List (Nat × Bool × Nat)) (z : List Nat) : State :=
  { S with
    job := { S.job with rcd := { S.job.rcd with logsz := 1 } }
    team := { S.team with
      log := { GraphLog.reset with segs := [⟨0, false, 0, 0, 2, 0⟩], pend := p, zeros := z }
      spad := smSetMany 0 S.team.spad (768 * 1024 - 16384) (0x01 :: List.replicate 15 0 ++ [0x15, 0, 0, 0] ++ natToBytes 4 (2 ^ 30) ++
        List.replicate 8 0) } }

theorem witness_Walker : Expect.leads (Lg [(1, true, 0)] []) ∧ waitsIo (Lg [(1, true, 0)] []) (.walker 1 0) = false ∧
    (Lg [(1, true, 0)] []).team.log.pend = [(1, true, 0)] ∧ findSeg (Lg [(1, true, 0)] []).team.log 0 = some ⟨0, false, 0, 0, 2, 0⟩ ∧
    (Lg [] [0]).team.log.zeros = [0] ∧ nodeKids (spadRd (Lg [] [0]) (logBase (Lg [] [0])) 16) = [] ∧
    nodeKids (spadRd (Lg [] [1]) (logBase (Lg [] [1]) + 16) 16) = [0] ∧ (Lg [(1, true, 0)] []).team.pins = [] ∧
    (Lg [] [0]).team.pins = [] ∧ (Lg [] [1]).team.pins = [] := by
  unfold Expect.leads Expect.inFocus; decide +kernel

/-- A segment that is being copied out to a mapped context area. -/
def Sg : State :=
  { U with
    mem := putWord 0x103008 (leafEntry 0x400000) U.mem
    job := { U.job with rcd := { hostRec with spad := 0, regg := 1, slices := 1, ctxbase := 0x200000 } }
    team := { U.team with spillsz := 1, log := { GraphLog.reset with segs := [⟨3, false, 0, 0, 2, 0⟩], spilling := some 3 } } }

theorem witness_Spill : Expect.leads Sg ∧ waitsIo Sg (.context 1 0) = false ∧ Sg.l1 = [] ∧ (findSeg Sg.team.log 3).isSome = true ∧
    lowestFree (spillSlots Sg.team.spillsz) (slotsUsed Sg.team.log) = some 0 ∧
    okAnd (translate Sg (ctxAsker (coreOf Sg) Sg) (slotAddr Sg 0) 1) (fun x => decide (0x400000 ≤ x.pa)) = true := by
  unfold Expect.leads Expect.inFocus; decide +kernel

/-- A matrix step of the last count, and one with uncorrectable data in its A rows. -/
def Me : State := Eng (.mloop mloop0) Ml
def Mb : State := { Me with team := { Me.team with spadBad := [(0, true)] } }

theorem witness_EngineBad : (stepBad mloop0 (imageOf (wtRd Mb 0 32)) Mb).isSome = true ∧ mloop0.count ≤ mloop0.done + 1 ∧
    { mloop0 with count := 2 }.done + 1 < { mloop0 with count := 2 }.count ∧ shEntry 0 0 0 = some 0 ∧ shRows 0 ≠ 0 ∧ shCols 0 ≠ 0 ∧
    isMloop ⟨.matrix, .mloop mloop0, [], false, false, false, 0⟩ = true ∧ isMdrain ⟨.matrix, .mdrain ⟨0, 2, 128, 0, 0, false⟩, [], false, false, false, 0⟩ = true ∧
    (bankOf Me 0).bind (·.shape) = some 2 ∧ shWidth 2 * mSize 0 ≤ 128 ∧ Me.team.pins = [] := by decide +kernel

/-- A tile product whose entry is in the cache. -/
def Tx (efmt : Nat) : State := { Eng (.tmul ⟨0, 3, boundTile, 0, 128, 0, false⟩) Ml with
  espalier := [⟨0, false, asidOf S.job.root, 0x1100, 0, efmt, 0, 0, 0, [], 0x1800, [], true, true, true⟩] }

theorem witness_TileProduct : (engineNext (Tx 0) 0).map (·.1) = some S.crew.key ∧ (espFind (Tx 0) 0x1100 0).map (·.efmt) = some boundTile.efmt ∧
    (espFind (Tx 1) 0x1100 0).map (·.efmt) = some 1 ∧ okAnd (tmulRead 3 0x1800 (valueBytes 0 0) (Tx 0))
      (fun x => decide (x.2.crew = (Tx 0).crew ∧ x.2.team = (Tx 0).team ∧ x.2.job = (Tx 0).job)) = true ∧
    (∀ r ∈ List.range 64, badAt (Tx 0).team.spadBad (r * 128) (denseRow 0) = false) := by decide +kernel

/-- A mat.zero behind a weight load of its issuer, which a fault delays or not. -/
def Dw (delayed : Bool) : State :=
  modCore 0 (fun x => { x with engine := [Ml.crew.key, Ml.crew.key] }) (crewOf Ml (fun c => { c with
    ops := [⟨.matrix, .wload 0x1100 0 48 48, [], false, delayed, false, 0⟩, ⟨.matrix, .mzero 0 none, [], false, false, false, 0⟩] }))

theorem witness_EngineOrder : (engineNext (Dw true) 0).map (·.2.kind) = some (.mzero 0 none) ∧ engineNext (Dw false) 0 = none ∧
    (wloadNext (Dw false) 0).isSome = true ∧ (bankOf (Dw true) 0).isSome = true := by decide +kernel

/-- Weight loads from the scratchpad, good and uncorrectable, and from the code page. -/
def Wl (src : W64) (bad : Bool) : State :=
  let s := Eng (.wload src 0 48 64) W
  { s with team := { s.team with spadBad := if bad then [((0x200 + 48) / 8, true)] else [] } }

theorem witness_WeightLoads : (∀ x ∈ [Wl 0x4000000000000200 false, Wl 0x4000000000000200 true, Wl 0x1100 false],
      (wloadNext x 0).map (·.1) = some S.crew.key) ∧ badAt (Wl 0x4000000000000200 true).team.spadBad (0x200 + 48) 16 = true ∧
    badAt (Wl 0x4000000000000200 false).team.spadBad (0x200 + 48) 16 = false ∧
    okAnd (readVa (engineAsker .matrix (Wl 0x1100 false)) (0x1100 + 48) 16 (Wl 0x1100 false)) (fun x => !x.2.1 && decide (x.2.2.crew =
      (Wl 0x1100 false).crew ∧ x.2.2.team = (Wl 0x1100 false).team ∧ x.2.2.job = (Wl 0x1100 false).job)) = true := by decide +kernel

/-- A team with a mapped context area, a granule out of the buffer and one in it. -/
def Wg (absent : List Nat) (w : SMap Byte) : State :=
  { Sg with team := { Sg.team with spillsz := 0, log := GraphLog.reset, absent := absent, weights := w } }

theorem witness_Granules : Expect.leads (Wg [0] []) ∧ waitsIo (Wg [0] []) (.context 1 0) = false ∧ 0 ∈ (Wg [0] []).team.absent ∧
    granulesOn (Wg [0] []) 0 < 128 ∧ okAnd (areaAccess [] 0 (backing (Wg [0] []).job.rcd) 4096 (Wg [0] [])) (fun _ => true) = true ∧
    okAnd (areaAccess [] 1 (backing (Wg [] [(5, 1)]).job.rcd) 4096 (Wg [] [(5, 1)])) (fun p => p.1.length == 1) = true ∧
    (Wg [0] []).team.mesh = [] ∧ (Wg [0] []).job.rcd.ctxbase ≠ 0 ∧ (Wg [0] []).l1 = [] ∧ smWf 0 (Wg [0] []).mem = true ∧ 0 ∈ usedGranules (Wg [] [(5, 1)]) (Wg [] [(5, 1)]).team ∧
    0 ∉ loadGranules (Wg [] [(5, 1)]) (Wg [] [(5, 1)]).team ∧ 0 ∉ usedGranules (Wg [] []) (Wg [] []).team ∧
    128 ≤ granulesOn (Wg [127] ((List.range 128).map (fun k => (4096 * k, 1))) |> fun s => { s with teams :=
      [{ s.team with job := 2, absent := [] }] }) 0 := by
  unfold Expect.leads Expect.inFocus; decide +kernel

/-- Two crews of a team that wait for banks, with two banks short. -/
def Ak : State :=
  { Sg with
    team := { Sg.team with spillsz := 0, log := GraphLog.reset }
    crew := { Sg.crew with wait := .acc 0 8 0 }
    crews := [{ mate (.acc 12 4 0) with banks := (List.range 10).map (fun i => (i, some freshBank)) }] }

theorem witness_Deadlock : accStuck Ak 0 (fun _ => true) = true ∧ (∀ c ∈ coreCrews Ak 0, detCrew Ak c = false) ∧ Expect.inFocus Ak ∧
    coreCrews Ak 0 = [Ak.crew, { mate (.acc 12 4 0) with banks := (List.range 10).map (fun i => (i, some freshBank)) }] ∧
    (∀ i ∈ List.range 8, bankOf Ak i = none) ∧ Ak.job.rcd.ctxbase ≠ 0 ∧ banksHeld Ak.crew = 0 ∧ Ak.crews.map banksHeld = [10] ∧
    waitsIo Ak (.context 1 0) = false ∧ okAnd (areaXlats 1 (accSlots Ak.job.rcd) (16 * 20480) Ak) (fun _ => true) = true ∧ (∀ c ∈ coreCrews S 0, accNeed c = 0) := by
  unfold Expect.inFocus; decide +kernel

/-- A solve command of two systems in progress; one that reads uncorrectable data; one past its deadline. -/
def solve0 (ins : Nat) : SolveCmd := ⟨ins, 0x4000000000000000, 1024, 2, 0, 0, false, 0, 1, 4, 1, 0, 0, 0, 0, 0⟩
def Sw (ins : Nat) (bad : SMap Bool) (late : Bool) : State :=
  { crewOf T (fun c => { c with wait := .solve, solve := some (solve0 ins) }) with
    team := { T.team with spadBad := bad }
    fine := if late then 210 else 0
    job := { T.job with deadline := if late then 1 else 0 } }

theorem witness_SolveRecords : Expect.inFocus (Sw 0 [] false) ∧ deadlinePassed (Sw 0 [] false) (Sw 0 [] false).job = false ∧
    svPoison (solve0 0) 1024 (Sw 0 [] false) = false ∧ same (Sw 0 [] false) (svRecord (solve0 0) 1024 (Sw 0 [] false)).2 = true ∧
    (solve0 0).next + 1 = (solve0 0).count ∧ (solve0 0).unfinished = 0 ∧ (solve0 2).ins = 2 ∧
    bytesToNat (spadRd (Sw 2 [] false) (1024 + 8) 8) % 256 ≠ (solve0 2).n ∧ svPoison (solve0 2) 1024 (Sw 2 [] false) = false ∧
    svPoison (solve0 0) 1024 (Sw 0 ((List.range 128).map (fun i => (128 + i, true))) false) = true ∧
    Expect.canTrap (Sw 0 [] false) ∧ (Sw 0 [] false).crew.ptraps = [] ∧ (Sw 0 [] false).crew.sieve = [] ∧
    deadlinePassed (Sw 0 [] true) (Sw 0 [] true).job = true ∧ (solve0 0).next < (solve0 0).count ∧ 8 ≤ (solve0 0).mstride ∧
    (Sw 0 [] true).team.pins = [] := by unfold Expect.inFocus Expect.canTrap; decide +kernel

/-! ## Witnesses: more clauses of the fabric, the queues, placement, ends and translation -/

/-- A put to this device itself, with FXROOT set. -/
def fabOwn : FabOp := ⟨false, 0x4000000000000000, 0x3000000000001100, 8, none, 0, false, 0⟩
def Fo : State := { crewOf S (fun c => { c with ops := [fliesF (.fabric fabOwn)] }) with dev := { S.dev with fxroot := S.job.root } }
/-- Every port of device 1's route is down. -/
def Fd (get : Bool) : State :=
  { fabS get with dev := { S.dev with fxroute := [(1, 0x83)], portsDown := [3] } }
def sig0 : FabOp := ⟨false, 0x4000000000000000, 0x3001000000000000, 8, some (0x3001000000001000, 1, true), 0, false, 0⟩
def Fs : State := crewOf S (fun c => { c with ops := [fliesF (.fabric sig0)] })
def FsBusy : State := crewOf S (fun c => { c with ops := [⟨.store, .store [.spad 0], [], false, false, false, 0⟩, fliesF (.fabric sig0)] })

theorem witness_FabricOperations : unreachable (fabS false) 1 = false ∧ Expect.inFocus (fabS false) ∧ S.team.pins = [] ∧
    okAnd (copyGet 0x4000000000000000 8 { fabS false with team := { S.team with spadBad := [(0, true)] } }) (fun x => x.2.1) = true ∧
    signalReady sig0 Fs = true ∧ signalReady sig0 FsBusy = false ∧ ackWaits (releaseLines Fs) = [] ∧
    okAnd (copyGet sig0.localPtr sig0.len Fs) (fun x => !x.2.1 && same Fs x.2.2) = true ∧ fld fabOwn.remotePtr 59 48 = fxSelf Fo ∧
    okAnd (copyGet fabOwn.localPtr fabOwn.len Fo) (fun x => !x.2.1 &&
      okAnd (ingressDo (fld fabOwn.remotePtr 47 0) (.write x.1) x.2.2) (fun y => !y.2.1 && same Fo y.2.2)) = true ∧
    unreachable (Fd false) 1 = true ∧ (fabS false).crew.status ≠ .complete := by unfold Expect.inFocus; decide +kernel

/-- Loads of two lanes from devices 1 and 2; a put behind an atomic that a flush has sent to device 1; that atomic behind one
of a lower key for the same place. -/
def twoPeers : List RemAcc := [⟨0x3001000000000000, .read 8, 0⟩, ⟨0x3002000000000000, .read 8, 1⟩]
def farOp (k order : Nat) : Op := ⟨.fabric, .peerAmo k ⟨0x3001000000000000, .amo 0 4 5 0, 32⟩ { amo0 with loc := .remote 1 0 } 0,
  [], false, false, false, order⟩
def Fb (sieve : List SieveEntry) : State :=
  crewOf S (fun c => { c with sieve := sieve, ops := [{ fliesF (.fabric (fab false)) with order := 2 }] })
def Fk : State := crewOf Y (fun c => { c with ops := [farOp 1 0] })
def FkLow : State := { Fk with crews := Fk.crews.map (fun c => { c with ops := [farOp 0 0] }) }

theorem witness_FabricOrder : (∀ z ∈ twoPeers, unreachable S (fld z.ptr 59 48) = false) ∧
    ((twoPeers.map (fun x => fld x.ptr 59 48)).find? (unreachable (Fd false))) = some 1 ∧
    isFab (fliesF (.remote true twoPeers none)) = true ∧ isFab (fliesF (.remote true twoPeers (some (.part 1 [0])))) = true ∧
    ((Fb [⟨0, 32, 1, .amo { amo0 with loc := .remote 1 0 }⟩]).crew.ops.all
      (behindOlder (Fb [⟨0, 32, 1, .amo { amo0 with loc := .remote 1 0 }⟩]).crew)) = true ∧
    (Fb []).crew.ops.any (behindOlder (Fb []).crew) = false ∧ Fk.crew.ops.any isFab = true ∧ Expect.inFocus Fk ∧ Expect.inFocus FkLow ∧
    (match (farOp 1 0).kind with
      | .peerAmo k x a _ => farEarlier FkLow k x a (farOp 1 0) && !farEarlier Fk k x a (farOp 1 0)
      | _ => false) = true := by unfold Expect.inFocus; decide +kernel

/-- A reduction of one participant that waits for a second one's message. -/
def red0 (p : Nat) (peers : List Nat) : ReduceOp := ⟨5, 1, p, 0, 0, 1, 0, peers, 0x4000000000000008⟩
def con0 (rank p : Nat) : Contribution := ⟨5, 1, rank, p, 0, 0, 1, [3]⟩
def Rc : State :=
  { crewOf S (fun c => { c with ops := [fliesF (.reduce (red0 2 [0, 1]))] }) with reduces := [⟨5, 1, [con0 0 2], false⟩] }

theorem witness_Reductions : (reduceOf (red0 2 [0, 1]) (putContribution (con0 1 2) Rc)).any (fun x => !x.bad &&
      (reduceResult (red0 2 [0, 1]) x).isSome) = true ∧ isSpad (red0 2 [0, 1]).out = true ∧ Rc.dev.d3 = false ∧ Expect.inFocus Rc ∧
    (∀ g ∈ [con0 0 2], g.rank ≠ (con0 1 2).rank) ∧ (∃ g ∈ [con0 0 2], g.rank = (con0 0 2).rank) ∧
    (∃ g ∈ [con0 0 2], g.p ≠ (con0 1 3).p ∨ g.ty ≠ (con0 1 3).ty ∨ g.op ≠ (con0 1 3).op ∨ g.count ≠ (con0 1 3).count) ∧
    [0, 1].find? (unreachable (Fd false)) = some 1 := by unfold Expect.inFocus; decide +kernel

theorem witness_IngressFaults : (match ingressDo 0x9000 (.read 8) In with
      | .error (.fault _ _ _) => true
      | _ => false) = true ∧ (∀ m ∈ In.merges, isKey 64 (asidOf In.dev.fxroot) false (0x9000 / 4096) m = false) ∧ freeMerge In 64 = some 0 ∧
    In.l1 = [] ∧ okAnd (translate In (ingressAsker In) (0x1100 % 2 ^ 48) 1) (fun _ => true) = true ∧
    viaPort (Fd false) 3 1 = true ∧ (3 : Nat) ∉ { (Fd false) with dev := { (Fd false).dev with portsDown := [] } }.dev.portsDown := by
  decide +kernel

theorem witness_Prerequisites : hasPreq waiting 0 = true ∧ qFull (Q 1 (List.replicate 64 (qrec0 rec0))) 9 = true ∧
    recWorldOk (sliceQ (Q 1 [qrec0 rec0]) 9) (qrec0 { rec0 with flags := 8 }) = false := by decide +kernel

/-- A deterministic job slice that waits: one that fits, and one that no core takes; and one of the secure world. -/
def Pd (crews : Nat) : State :=
  { U with jobs := [{ jobW with rcd := { rec0 with flags := 1, crews := crews } }], teams := [teamW .waiting] }
def Ps : State := { U with jobs := [{ jobW with secure := true }], teams := [teamW .waiting] }

theorem witness_PlacementWhole : (findJob (Pd 1) 2).any (fun j => (coreAmong (Pd 1) (canTake (Pd 1) j) (freeDies (Pd 1) j ((placeDie (Pd 1) j 0).getD 0))).any
      (fun c => (coreAt (Pd 1) c).world == j.secure)) = true ∧ waitingTeams (Pd 1) 2 = [0] ∧ (Pd 1).l1 = [] ∧
    (findJob (Pd 17) 2).any (fun j => (coreAmong (Pd 17) (canTake (Pd 17) j) (freeDies (Pd 17) j ((placeDie (Pd 17) j 0).getD 0))).isNone) = true ∧
    (findJob Ps 2).any (fun j => (openDies Ps j 0 (canTake Ps j)).contains 0 && (coreFor Ps (canTake Ps j) 0).any
      (fun c => (coreAt Ps c).world != j.secure)) = true ∧ nextTeam Ps (teamW .waiting) = true := by decide +kernel

/-- A full active set whose crew in focus is blocked in hardware, with one more ready crew; a parked crew. -/
def Full (off : Bool) (w : Wait) : State :=
  { U with
    crew := { S.crew with wait := w, offered := off }
    crews := (List.range 8).map (fun i => { S.crew with key := ⟨1, 0, i + 1⟩, active := decide (i < 7) }) }
def Lv : State := crewOf U (fun c => { c with park := some ⟨0, 4, false, false, 0x5000, 0, 0⟩ })

theorem witness_SwitchFull : Expect.up (Full true .none) ∧ Expect.inFocus (Full true .none) ∧ activeOn (Full true .none) 0 = 8 ∧
    (findCrew (Full true .none) ⟨1, 0, 8⟩).any (fun c => !c.active && crewReady (Full true .none) c && crewOn (Full true .none) 0 c) = true ∧
    crewOn (Full true .none) 0 (Full true .none).crew = true ∧ laneAtSwitch (Full true .none) = true ∧ returnsIn (Full true .none) = true ∧
    leaving (Full true .none).crew = false ∧ scalarBlocked (Full false (.token 0)).crew = true ∧ laneBlocked (Full false (.token 0)).crew = true ∧
    scalarBlocked (Full false .none).crew = false ∧ leaving Lv.crew = true ∧ laneAtSwitch Lv = true ∧ returnsIn Lv = true ∧ Lv.crew.active = true ∧
    leaving Yu.crew = false ∧ Expect.inFocus Lv ∧ Expect.up Lv := by
  unfold Expect.up Expect.inFocus; decide +kernel

/-- A die with no room: a team that may give way on one core, and teams without context areas on the others. -/
def jobV : Job := { S.job with take := 3, rcd := { hostRec with ctxbase := 0x200000 }, budgetOwner := 3 }
def jobE : Job := { S.job with take := 2, rcd := { hostRec with placeByte := 1 }, budgetOwner := 2, deadline := 5 }
def Vi (v : Bool) : State := { U with
  jobs := [jobE, if v then jobV else { jobV with rcd := hostRec }, { S.job with take := 4, budgetOwner := 4 }]
  teams := teamW .waiting :: { Team.reset with job := 3, idx := 0, place := .resident 1 } ::
    (List.range 30).map (fun i => { Team.reset with job := 4, idx := i, place := .resident (2 + i) }) }

/-- The victims for the waiting team of jobE. -/
def victimsFor (s : State) : List (Nat × List Nat) :=
  (victimJobs s jobE).flatMap (fun x => (victimsOf s (fun c => (allowedDies s jobE 0).contains (dieOf c)) x).map (fun v => (x.take, v)))

theorem witness_Preemption : fitsLater (Vi true) jobE 0 = false ∧ victimsFor (Vi true) = [(3, [0])] ∧
    (findTeam (Vi true) 3 0).map (·.place) = some (.resident 1) ∧ fitsLater (modTeam 3 0 (stopTeam true) (Vi true)) jobE 0 = true ∧
    findJob (Vi true) 2 = some jobE ∧ nextTeam (Vi true) (teamW .waiting) = true ∧ fitsLater Pl jobW 0 = true ∧
    victimsFor (Vi false) = [] ∧ fitsLater (Vi false) jobE 0 = false ∧ (stopVictims jobE 0 [] (Vi false)).isNone = true ∧
    findTeam (Vi true) 2 0 = some (teamW .waiting) := by decide +kernel

/-- A job slice with its digest; a digest of one region; a failed one with a saved team; one past its deadline. -/
def EndD : State := { Ending .storing rec0 0 with jobs := (Ending .storing rec0 0).jobs.map (fun j => { j with digest := some (List.replicate 32 0) }) }
def jobR : Job := { S.job with take := 2, rcd := rec0, phase := .gridDone, regions := [(0x1100, 8), (0x1104, 8)] }
def EndS : State := { Sgm with
  jobs := [{ S.job with take := 2, rcd := rec0, phase := .storing, failReason := 3 }]
  teams := [{ teamW .done with ctxState := 1 }] }
where Sgm : State := { U with mem := putWord 0x103008 (leafEntry 0x400000) U.mem }

theorem witness_Ends : drained (Ending .storing rec0 0) 2 = true ∧ drained (Ending .storing done0 3) 2 = true ∧
    drained { flight with job := { flight.job with phase := .storing } } 1 = false ∧ (findJob EndD 2).bind (·.digest) = some (List.replicate 32 0) ∧
    (∀ c ∈ allCrews (Ending .running rec0 0), c.key.job = 2 → c.sieve = [] ∧ c.ops = []) ∧
    okAnd (readVa (schedAsker jobR) 0x1100 8 U) (fun x => !x.2.1) = true ∧
    (∀ t ∈ allTeams (Ending .storing done0 3), t.job = 2 → t.ctxState = 0) ∧
    (allTeams EndS).filter (fun y => y.job == 2) = [{ teamW .done with ctxState := 1 }] ∧ drained EndS 2 = true ∧ EndS.l1 = [] ∧
    okAnd (translate EndS (schedAsker { S.job with take := 2, rcd := rec0 }) (ctxAddr rec0 0) 1) (fun _ => true) = true ∧
    (∃ r ∈ jobR.regions, r.1 ≤ 0x110B ∧ 0x110B < r.1 + r.2) ∧ outputRuns jobR = [(0x1100, 12)] ∧
    childrenDone EndS 2 = true ∧ waitsIo EndS (.completion 2) = false ∧ teamsOver Pl 2 = false := by decide +kernel

/-- The completion store of EndD at an address: performed, or stopped by a fault. -/
def endStore (a : W64) : Except (Nat × XFail) State :=
  writeVa (schedAsker { S.job with take := 2, rcd := { rec0 with doneaddr := a } }) none (a.toNat % 2 ^ 56) (natToBytes 8 0) EndD

theorem witness_ChainStores : okAnd (endStore 0x1100) (fun _ => true) = true ∧ wordPtr 0x900000 = true ∧
    (match endStore 0x900000 with
      | .error (_, .fault _ _ _) => true
      | _ => false) = true := by decide +kernel

theorem witness_EventsFull : secureFrame Ev 0x300000 = false ∧ ringRoom (ringOf { Ev with rings := [(2, ⟨0x300000, 64, 0, 64⟩)] } 2) = false ∧
    (ringOf { Ev with rings := [(2, ⟨0x300000, 64, 0, 31⟩)] } 2).size.toNat ≤
      2 * (ringUsed (ringOf { Ev with rings := [(2, ⟨0x300000, 64, 0, 31⟩)] } 2) + 1) ∧ ev0.waited = false := by decide +kernel

/-- Late with the flag that asks to be aborted; records of a queue past their deadline. -/
def LateA : State := { Late with job := { Late.job with rcd := { Late.job.rcd with flags := 4 } } }
def Lq9 (flags : Nat) : State := { Q 1 [qrec0 { rec0 with deadline := 5, flags := flags }] with fine := 210 }

theorem witness_DeadlinesMore : LateA.job.rcd.flags.testBit 2 = true ∧ LateA.job.failReason = 0 ∧ Late.job.deadline ≠ 0 ∧
    (∀ n ∈ [0, 4], (sliceQ (Lq9 n) 9).recs.any (fun r => !r.missed && decide (r.rcd.deadline ≠ 0) &&
      decide (r.rcd.deadline.toNat < devTime (Lq9 n)) && (r.rcd.flags.testBit 2 == decide (n = 4))) = true) ∧ Expect.up (Lq9 4) ∧
    budgetOut U.job = false ∧ Expect.inFocus (crewOf Broke (fun c => { c with handler := some ⟨[], false⟩ })) ∧
    drawsOn Broke 1 { Broke.crew with handler := some ⟨[], false⟩ } = true ∧ Broke.job.failReason = 0 ∧ Broke.job.phase ≠ .done := by
  unfold Expect.up Expect.inFocus; decide +kernel

/-- A stopping team whose context area is a secure page that it may not write. -/
def CtxW : State :=
  { Ctx2 (.stopping 0) with
    mem := putWord 0x103008 (leafEntry 0x400000 + 0x20) U.mem
    dev := { U.dev with secrgn := [(0, 0x400000), (1, 0x600000)] } }

theorem witness_SavesMore : (match contextAccess 0 1 CtxW with
      | .error (_, .world) => true
      | _ => false) = true ∧ teamSavable CtxW = true ∧ waitsIo CtxW (.context 1 0) = false ∧ CtxW.job.failReason = 0 ∧
    isDet (Ctx2 (.stopping 0)) = false ∧ (Ctx2 (.stopping 0)).crew.status = .running ∧ (Ctx2 (.stopping 0)).crew.ops = [] ∧
    (Ctx2 (.stopping 0)).crew.region = none ∧ laneAtSwitch (Ctx2 (.stopping 0)) = true ∧ (Ctx2 (.stopping 0)).crew.wait ≠ .solve ∧
    teamCrews (Ctx2 (.stopping 0)) = [(Ctx2 (.stopping 0)).crew] ∧ walkerIdle (Ctx2 (.stopping 0)).team = true ∧ (Ctx2 (.stopping 0)).l1 = [] ∧
    (coreAt (Ctx2 (.stopping 0)) 0).token ≠ some (Ctx2 (.stopping 0)).crew.key ∧ Expect.nobodyWaits (Ctx2 (.stopping 0)) ∧
    okAnd (contextAccess 0 1 (Ctx2 (.stopping 0))) (fun _ => true) = true := by
  unfold Expect.nobodyWaits; decide +kernel

/-- A saved team whose crew is not active. -/
def Cr : State := crewOf (Ctx2 .saved) (fun c => { c with active := false })

theorem witness_RestoreContents : Expect.leads Cr ∧ Expect.up Cr ∧ Cr.job.phase = .running ∧ canHold Cr Cr.job Cr.team 3 = true ∧
    heldBack Cr Cr.job (dieOf 3) = false ∧ (∀ i ∈ savedTeams Cr 1, waitsIo Cr (.context 1 i) = false) ∧
    Cr.job.rcd.flags.testBit 0 = false ∧ okAnd (contextAccess 3 0 Cr) (fun _ => true) = true ∧
    okAnd (areaXlats 1 0 (spillOff Cr.job.rcd) Cr) (fun _ => true) = true ∧ Cr.l1 = [] ∧ teamCrews Cr = [Cr.crew] ∧
    Cr.crew.wait = .none ∧ Cr.crew.sieve = [] ∧ Cr.crew.park = none ∧ Cr.crew.spilled = [] ∧ Cr.crew.hadToken = false ∧
    Expect.nobodyWaits Cr ∧ (coreAt Cr 3).world = Cr.job.secure ∧ (∀ k ∈ slotsUsed Cr.team.log, k < spillSlots 0) := by
  unfold Expect.leads Expect.inFocus Expect.up Expect.nobodyWaits; decide +kernel

/-- The crew of Fl alone with the machine, with a Sieve and a wait. -/
def Al (es : List SieveEntry) (w : Wait) : State := crewOf Fl (fun c => { c with sieve := es, wait := w })

/-- Al with a data queue 5. -/
def Aq (es : List SieveEntry) (cap : Nat) (l : List W64) : State :=
  { Al es .none with dataQueues := [(5, ⟨BitVec.ofNat 64 (2 ^ 63 + cap), l, []⟩)] }

theorem witness_FlushesAlone : Expect.alone (Al [⟨0, 32, 0, .amo amo0⟩] .none) 0 [⟨0, 32, 0, .amo amo0⟩] ∧
    Expect.alone (Al [⟨0, 32, 0, .push 5 7⟩] .none) 0 [⟨0, 32, 0, .push 5 7⟩] ∧
    Expect.alone (Al [⟨0, 32, 0, .pop 5 3 0 0⟩] .none) 0 [⟨0, 32, 0, .pop 5 3 0 0⟩] ∧ Expect.alone (Al [] (.released 0)) 0 [] ∧
    (amoDo amo0 (Al [⟨0, 32, 0, .amo amo0⟩] .none)).1.isSome = true ∧ dqFull (Aq [] 64 []) 5 = false ∧
    dqFull (Aq [] 64 (List.replicate 64 1)) 5 = true ∧ dqEmpty (Aq [] 64 [1]) 5 = false ∧ dqEmpty (Aq [] 64 []) 5 = true ∧
    (dataQ (Aq [] 64 [1]) 5).bad = [] ∧ areaWaits Fl = false ∧ walked Fl 0 = true ∧ areaWaits (flushAll 0 Fl) = false := by
  refine ⟨?_, ?_, ?_, ?_, by decide +kernel⟩ <;> (unfold Expect.alone Expect.inFocus Expect.up; repeat' apply And.intro) <;>
    first | decide +kernel | exact ⟨0, by decide +kernel⟩

/-- A fault's entry with waiters. -/
def mergeW (l : List IoWaiter) : Merge := { merge0 true with waiters := l }
def Tw (l : List IoWaiter) (p : JobPhase) : State := { Q 1 [qrec0 rec0] with
  merges := [mergeW l]
  jobs := [{ S.job with take := 2, rcd := rec0, phase := p }] }

theorem witness_Answers : (∀ l ∈ [[IoWaiter.completion 2], [.digest 2], [.walker 2 0], [.context 2 0], [.prereq 1 0]],
      answered (Tw l .storing) false false 4 = some (mergeW l)) ∧ (findJob (Tw [] .storing) 2).isSome = true ∧
    findRec (Tw [] .storing) 1 = some (9, 0) ∧ (sliceQ (Tw [] .storing) 9).recs[0]? = some (qrec0 rec0) ∧
    (∀ c ∈ allCrews (Tw [] .storing), parkedIn 0 4 c = false) ∧ (Tr true).dev.answers = [] ∧ (Tr true).dev.hostLines = [] ∧
    Expect.inFocus (Tr true) ∧ (∀ c ∈ (Tr true).crews, parkedIn 0 4 c = false) ∧ (Tr true).crew.park = some park0 ∧ park0.kind = 0 ∧
    answered (Tr true) false false 4 = some (mergeW []) ∧ ringRoom (ringOf { Tr false with rings := [(0, ⟨0x300000, 64, 0, 64⟩)] } 0) = false ∧
    secureFrame (Tr false) 0x300000 = false := by unfold Expect.inFocus; decide +kernel

/-- A crew parked on a fault of a kind that FRESP fail turns into a trap. -/
def Tk (kind : Nat) : State := crewOf (Tr true) (fun c => { c with park := some { park0 with kind := kind } })

theorem witness_AnsweredCrew : (∀ k ∈ [1, 3], (Tk k).crew.park.any (fun p => p.table == 0 && p.entry == 4 && !p.lane && p.kind == k) = true ∧
    answered (Tk k) false false 4 = some (mergeW [])) ∧ Expect.canTrap (Tk 1) ∧ Expect.quiet (Tk 1) ∧ Expect.inFocus (Tk 1) := by
  unfold Expect.canTrap Expect.quiet Expect.inFocus; decide +kernel

/-- A page of which die 1 made 5000 reads in the first window, the second one being under way. -/
def Mw : State :=
  { Rp with
    cycles := 2 ^ 20
    monitor := [⟨0, 1, asidOf S.job.root, false, 1, 5000, 0⟩]
    rings := [(5, ⟨0x300000, 64, 0, 0⟩)] }

theorem witness_Monitor : monWindow Mw = 1 ∧ smGet 0 Mw.dev.monDone 1 = 0 ∧ countOf Mw 0 1 adv0 = (5000, 0) ∧ countOf Rp 0 1 adv0 = (0, 0) ∧
    ringRoom (ringOf Mw 5) = true ∧ secureFrame Mw 0x300000 = false ∧ topDie Mw 0 adv0 = (1, 5000) ∧ Expect.up Mw ∧
    ringRoom (ringOf { Mw with rings := [(5, ⟨0x300000, 64, 0, 64⟩)] } 5) = false ∧ (∀ d ∈ List.range 8, (countOf Mw 0 d adv0).2 = 0) ∧
    poolFrame Mw 1 4096 = some 0x600000 ∧ 4096 ≤ (countOf Mw 0 1 adv0).1 ∧ (countOf Mw 1 1 adv0).1 < 4096 ∧ (countOf Rp 0 1 adv0).1 < 4096 := by
  unfold Expect.up; decide +kernel

/-- The I/O die's merge table with no free entry. -/
def FullIo : State := { U with merges := (List.range 1024).map (fun n => { merge0 true with table := 64, entry := n, asid := 1 }) }

theorem witness_FullTable : FullIo.dev.d3 = false ∧ freeMerge FullIo 64 = none ∧
    (∀ m ∈ FullIo.merges, isKey 64 (asidOf FullIo.dev.fxroot) false 5 m = false) ∧
    (match ingressDo 0x5000 (.read 8) FullIo with
      | .error (.fault _ _ _) => true
      | _ => false) = true := by
  refine ⟨rfl, ?_, ?_, by decide +kernel⟩
  · simp only [freeMerge, FullIo, List.find?_eq_none, List.mem_range]
    intro n hn
    simp
    exact hn
  · simp only [FullIo, List.mem_map]
    rintro m ⟨n, -, rfl⟩
    rfl

/-- The device in D3; a host write to a page that has a replica; and no write to the page that is to have one. -/
theorem witness_Held : ({ U with dev := { U.dev with d3 := true } } : State).dev.bootReady = true ∧ U.dev.tripped = false ∧
    hostMay { U with dev := { U.dev with hdmsize := 1 } } 0x200010 [7].length = true ∧ overlaps 0x200010 [(7 : Byte)].length 0x200000 4096 = true ∧
    onReplica U 0x200010 1 = false ∧ (∀ m ∈ Mw.monitor, m.die ≠ 8) ∧ writeUnderWay Mw 0x200000 4096 = false := by decide +kernel

/-- A write held for a frame whose replica is gone. -/
def Hm : State := { U with merges := [{ merge0 true with held := true, entryPa := 0x200000 }] }

theorem witness_Collapse : Hm.merges.filter (heldFor 0x200000) = Hm.merges ∧ Hm.merges.all (·.waiters.isEmpty) = true ∧
    (∀ r ∈ Hm.replicas, r.master = 0x200000 → r.dead = true) := by decide +kernel

/-! ## Witnesses: more clauses of registers, traps and steps -/

/-- A bank on its way out of FIFO mode, the backing of data queue 5 and slice queue 9, with and without an access begun
before. -/
def Bk (ops : List Op) : State :=
  { crewOf U (fun c => { c with ops := ops }) with
    bankRegs := [(0, ⟨true, false, false, 2, false, 0, true⟩)]
    dataQueues := [(5, ⟨BitVec.ofNat 64 (2 ^ 63 + 64), [7], []⟩)]
    queues := [(9, { SliceQueue.reset with qctl := BitVec.ofNat 64 (2 ^ 63 + 64), recs := [qrec0 rec0] })] }

theorem witness_Banks_leave : Expect.up (Bk []) ∧ (smGet BankReg.reset (Bk []).bankRegs 0).busy = true ∧ bankInUse (Bk []) 0 0 = false ∧
    bankInUse (Bk [⟨.store, .amo ⟨0, 4, 0, .cspad 0 0, 5, 0, 32, 3, 0⟩, [], false, false, false, 0⟩]) 0 0 = true ∧
    (smGet BankReg.reset (Bk []).bankRegs 0).cur = 2 ∧ (qBanks (dataQ (Bk []) 5).ctl 8).contains 0 = true ∧
    (qBanks (sliceQ (Bk []) 9).qctl 128).contains 0 = true ∧ (0x80000040 : Nat) % 4 ≠ 3 := by unfold Expect.up; decide +kernel

/-- An abort's target: a record in queue 9, or the job slice of S in queue 0. -/
def Ab (seq : Nat) : State := { Q 1 [qrec0 { rec0 with doneseq := 7 }] with dev := { U.dev with abortSeq := BitVec.ofNat 64 seq } }

theorem witness_Aborts : Expect.up (Ab 7) ∧ (∀ j ∈ allJobs (Ab 7), j.rcd.doneseq ≠ (Ab 7).dev.abortSeq ∨ j.queue ≠ 9) ∧
    (sliceQ (Ab 7) 9).recs.map (·.rcd.doneseq) = [(Ab 7).dev.abortSeq] ∧ fld (9 : W64) 5 0 = 9 ∧
    (Ab 0).job.rcd.doneseq = (Ab 0).dev.abortSeq ∧ (Ab 0).job.queue = 0 ∧ (Ab 0).job.phase = .running ∧ (Ab 0).job.failReason = 0 ∧
    (Ab 0).jobs = [] ∧ (sliceQ (Ab 0) 0).recs = [] := by unfold Expect.up; decide +kernel

/-- A host write to a line that a stale translation was read through. -/
def Aw : State := { U with
  tlbs := [⟨.core, 0, 0, false, 5, 0x300000, [0x104000 / 128], true, [], false⟩]
  dev := { U.dev with hostLines := [0x104000 / 128] } }

theorem witness_FaultAnswers : U.dev.answers = [] ∧ U.dev.hostLines = [] ∧ fld (0x20004 : W64) 17 16 = 2 ∧ fld (0x10004 : W64) 17 16 = 1 ∧
    fld (4 : W64) 17 16 = 0 ∧ (∃ e ∈ Aw.tlbs, e.stale = true ∧ ∃ n ∈ e.lines, n ∈ Aw.dev.hostLines) ∧ Aw.dev.answers = [] ∧
    (allTeams U).any (fun t => (placeCore t.place).isSome) = true ∧ U.dev.attBusy = false ∧
    Expect.up { U with dev := { U.dev with attBusy := true } } := by unfold Expect.up; decide +kernel

/-- A trap that is due now; one that waits for s3, before an instruction that reads s3 and before one that does not. -/
def Dq (due : Due) (w : Nat) : State :=
  { placeWord State.reset 32 w with
    job := { S.job with rcd := { S.job.rcd with handler := 0x2000 } }
    crew := { S.crew with ptraps := [⟨0x15, 5, due⟩] } }

theorem witness_DeferredTraps : (∀ s ∈ [Dq .now 0, Dq (.touch [3]) 0x040C0000], s.crew.budgetTrap = none ∧ s.crew.status ≠ .complete ∧
      s.crew.park = none ∧ s.crew.wait ≠ .solve ∧ s.crew.ptraps.all (fun x => !atEntry x && x.cause != 0x0A) = true ∧
      returnsOut s.crew = false ∧ s.crew.ops = []) ∧ Expect.canTrap (Dq .now 0) ∧ Expect.inFocus (Dq .now 0) ∧
    nextScalar (Dq (.touch [3]) 0x04310520) = some (.addW 3 4 5) ∧ 3 ∈ scalarRegs (.addW 3 4 5) ∧
    (nextScalar (Dq (.touch [7]) 0x04310520)).all (fun i => !(scalarRegs i).contains 7) = true ∧ headGang L = some (run0, gang0) := by
  unfold Expect.canTrap Expect.inFocus; decide +kernel

/-- A step at an address that no page maps; with an operand whose parity is bad; with a trap due. -/
def Sf : State := crewOf (St 0) (fun c => { c with sc := { c.sc with pc := 0x9000 } })
def Sp9 : State := crewOf (St 0x04310520) (fun c => { c with sc := { c.sc with parity := [4] } })
def Sd : State :=
  { crewOf (St 0x1C5FFFFD) (fun c => { c with ptraps := [⟨0x15, 5, .now⟩] }) with
    job := { S.job with rcd := { S.job.rcd with handler := 0x2000 } } }

theorem witness_StepStops : (match fetchScalar Sf with
      | .error _ => true
      | .ok _ => false) = true ∧ trapFirst Sf = false ∧ scalarMay Sf = true ∧
    okAnd (fetchScalar Sp9) (fun x => (decodeScalar x.1 x.2).any (fun i => scalarParity Sp9 i)) = true ∧ trapFirst Sp9 = false ∧
    trapFirst Sd = true ∧ scalarMay Sd = true := by decide +kernel

/-- A lane step at an address that no page maps; with an operand whose parity is bad. -/
def Slf : State := crewOf (Sl 0) (fun c => { c with ln := { c.ln with cur := some (startRun 8 ⟨0x9000, [], 0, false, 0, 0, false, false⟩) } })
def Slp : State := crewOf (Sl 0x001003000000000000000000) (fun c => { c with ln := { c.ln with regs := { c.ln.regs with parity := List.range 4096 } } })

theorem witness_StepLaneStops : (match laneWordAt Slf 0x9000 with
      | .error _ => true
      | .ok _ => false) = true ∧ atCrew hostKey freshLane Slf = true ∧ (nextGang false Slf).isSome = true ∧ trapFirst Slf = false ∧
    okAnd (laneWordAt Slp 0x1000) (fun v => match headGang Slp with
      | some (r, g) => (decodeLane v).any (laneParity Slp r g)
      | none => false) = true := by decide +kernel

end Sys2Proof.Tests
end

section
namespace Sys2Proof.Machine

variable {α : Type}

/-! ### Sparse maps cut down by key or mapped value by value -/

theorem smGet_filter_key (d : α) (p : Nat → Bool) (m : SMap α) (k : Nat) :
    smGet d (m.filter (fun e => p e.1)) k = if p k then smGet d m k else d := by
  induction m with
  | nil => simp [smGet]
  | cons e r ih =>
    obtain ⟨a, x⟩ := e
    by_cases hk : k = a
    · subst hk
      cases hp : p k <;> simp_all [smGet]
    · cases hp : p a <;> simp_all [smGet]

/-- A map whose values are changed by g, with those that become the default left out, reads as g of what it read. -/
theorem smGet_filterMap_value [DecidableEq α] {d : α} (g : α → α) (m : SMap α) (k : Nat) (hd : g d = d)
    (hk : g (smGet d m k) ≠ d) :
    smGet d (m.filterMap (fun e => if g e.2 = d then none else some (e.1, g e.2))) k = g (smGet d m k) := by
  induction m with
  | nil => exact absurd hd hk
  | cons e r ih =>
    obtain ⟨a, x⟩ := e
    by_cases ha : k = a
    · have hx : g x ≠ d := by simpa [smGet, ha] using hk
      simp [smGet, ha, hx]
    · have ih' := ih (by simpa [smGet, ha] using hk)
      by_cases hx : g x = d <;> simp [smGet, ha, hx, ih']

/-! ### Records that leave their queues to fail -/

theorem nth_none_map_some (l : List α) (i : Nat) : nth none (l.map some) i = l[i]? := by
  induction l generalizing i with
  | nil => rfl
  | cons x r ih => cases i with
    | zero => rfl
    | succ i => simpa [nth] using ih i

theorem failRecord_of_some {s : State} {q i reason : Nat} {r : QRec} (h : (sliceQ s q).recs[i]? = some r) :
    failRecord q i reason s = { s with
      queues := smSet SliceQueue.reset s.queues q { sliceQ s q with recs := (sliceQ s q).recs.eraseIdx i }
      jobs := failedJob s q (sliceQ s q) r reason :: s.jobs
      nextTake := s.nextTake + 1 } := by
  have h' : nth none ((sliceQ s q).recs.map some) i = some r := by rw [nth_none_map_some, h]
  unfold sliceQ at h'
  simp only [failRecord, h']
  rfl

theorem failRecord_of_none {s : State} {q i reason : Nat} (h : (sliceQ s q).recs[i]? = none) :
    failRecord q i reason s = s := by
  have h' : nth none ((sliceQ s q).recs.map some) i = none := by rw [nth_none_map_some, h]
  unfold sliceQ at h'
  simp only [failRecord, h']

/-- The record that `failRecord` takes away fails as R16 and R21 say. -/
theorem recordFails_failRecord {s : State} {q i reason : Nat} {r : QRec} (h : (sliceQ s q).recs[i]? = some r) :
    Expect.recordFails s (failRecord q i reason s) q i reason r := by
  rw [failRecord_of_some h]
  refine ⟨?_, rfl, rfl, rfl, rfl, failedJob s q (sliceQ s q) r reason, rfl, rfl, rfl, rfl, rfl, rfl, rfl, rfl⟩
  simp [sliceQ]

/-- t is s after records have left their queues and become failing job slices; nothing else has changed. -/
def RecordsGone (s t : State) : Prop :=
  ∃ qs js n, t = { s with queues := qs, jobs := js ++ s.jobs, nextTake := n } ∧
    ∀ q, (smGet SliceQueue.reset qs q).recs.Sublist (sliceQ s q).recs

theorem RecordsGone.refl (s : State) : RecordsGone s s := ⟨s.queues, [], s.nextTake, rfl, fun _ => List.Sublist.refl _⟩

theorem RecordsGone.trans {s t u : State} (h : RecordsGone s t) (k : RecordsGone t u) : RecordsGone s u := by
  obtain ⟨qs, js, n, rfl, hq⟩ := h
  obtain ⟨qs', js', n', rfl, hq'⟩ := k
  exact ⟨qs', js' ++ js, n', by simp, fun q => (hq' q).trans (hq q)⟩

theorem recordsGone_failRecord (q i reason : Nat) (s : State) : RecordsGone s (failRecord q i reason s) := by
  cases h : (sliceQ s q).recs[i]? with
  | none => rw [failRecord_of_none h]; exact .refl s
  | some r =>
    rw [failRecord_of_some h]
    refine ⟨_, [_], _, rfl, fun p => ?_⟩
    rw [smGet_smSet]
    split
    next hp => subst hp; exact List.eraseIdx_sublist _ _
    next => exact List.Sublist.refl _

theorem recordsGone_discardRecs (b n : Nat) (s : State) : RecordsGone s (discardRecs b n s) := by
  induction n generalizing s with
  | zero => exact .refl s
  | succ n ih =>
    unfold discardRecs
    split
    · exact .refl s
    · exact (recordsGone_failRecord _ _ _ s).trans (ih _)

theorem recordsGone_failSpawned (takes : List Nat) (n : Nat) (s : State) : RecordsGone s (failSpawned takes n s) := by
  induction n generalizing s with
  | zero => exact .refl s
  | succ n ih =>
    unfold failSpawned
    split
    · exact .refl s
    · exact (recordsGone_failRecord _ _ _ s).trans (ih _)

theorem queuedCount_eq_sum (s : State) : queuedCount s = (s.queues.map (fun p => p.2.recs.length)).sum :=
  List.sum_eq_foldl.symm

/-- A queue of the map counts with the records it holds. -/
theorem length_recs_le_queuedCount (s : State) (q : Nat) : (sliceQ s q).recs.length ≤ queuedCount s := by
  rw [queuedCount_eq_sum, sliceQ]
  induction s.queues with
  | nil => exact Nat.le_refl 0
  | cons p r ih =>
    simp only [smGet, List.map_cons, List.sum_cons]
    split <;> omega

/-! ### Queues whose bank leaves FIFO mode (R171) -/

theorem recInBank_single {s : State} {b q : Nat} {x : SliceQueue} (hs : s.queues = [(q, x)]) (hx : x.recs ≠ [])
    (hb : (qBanks x.qctl 128).contains b = true) : recInBank s b = some (q, 0) := by
  have hm : b ∈ qBanks x.qctl 128 := by simpa using hb
  simp [recInBank, hs, hx, hm]

theorem discardRecs_single {s : State} {b q : Nat} {x : SliceQueue} (hs : s.queues = [(q, x)]) (hx : x.recs ≠ [])
    (hb : (qBanks x.qctl 128).contains b = true) : discardRecs b 1 s = failRecord q 0 10 s := by
  simp only [discardRecs, recInBank_single hs hx hb]

/-- A data queue as a bank leaves FIFO mode: its entries are gone when the bank is behind it. -/
def emptiedBy (b : Nat) (x : DataQueue) : DataQueue :=
  if (qBanks x.ctl 8).contains b then { x with entries := [], bad := [] } else x

theorem emptiedBy_reset (b : Nat) : emptiedBy b DataQueue.reset = DataQueue.reset := by
  unfold emptiedBy
  split <;> rfl

/-- A queue that some bank is behind has a capacity, so it is not the queue at reset. -/
theorem emptiedBy_ne_reset {b : Nat} {x : DataQueue} (h : (qBanks x.ctl 8).contains b = true) :
    emptiedBy b x ≠ DataQueue.reset := by
  intro e
  rw [emptiedBy, if_pos h] at e
  have hc : x.ctl = 0 := congrArg DataQueue.ctl e
  rw [hc] at h
  exact absurd h (by simp [qBanks, qCap, fld, fieldN, ceilDiv, bankBytes])

/-! ### Bank modes (R170) -/

theorem setBankMode_ignored {c b v : Nat} {s : State}
    (h : (smGet BankReg.reset s.bankRegs (64 * c + b)).busy = true ∨ v % 4 = 3) : setBankMode c b v s = s := by
  unfold setBankMode
  rw [if_pos h.symm]

theorem setBankMode_begins {c b : Nat} {w : W32} {r : BankReg} {s : State}
    (hr : smGet BankReg.reset s.bankRegs (64 * c + b) = r) (hb : r.busy = false) (h3 : w.toNat % 4 ≠ 3)
    (h : w.toNat % 4 ≠ r.mode ∨ w.getLsbD 8 ≠ r.nextWorld) :
    setBankMode c b w.toNat s = { s with bankRegs := smSet BankReg.reset s.bankRegs (64 * c + b) { r with
      busy := true
      done := false
      mode := w.toNat % 4
      nextWorld := w.getLsbD 8
      left := r.left || (r.cur == 2 && w.toNat % 4 != 2) } } := by
  subst hr
  unfold setBankMode
  simp only
  rw [if_neg (by simp [h3, hb]), if_neg (fun hs => h.elim (· hs.1) (· hs.2))]
  cases w.toNat.testBit 30 <;> rfl

theorem setBankMode_settled {c b : Nat} {w : W32} {r : BankReg} {s : State}
    (hr : smGet BankReg.reset s.bankRegs (64 * c + b) = r) (hb : r.busy = false) (hm : w.toNat % 4 = r.mode)
    (h3 : r.mode ≠ 3) (hn : w.getLsbD 8 = r.nextWorld) :
    setBankMode c b w.toNat s = { s with
      bankRegs := smSet BankReg.reset s.bankRegs (64 * c + b) (if w.getLsbD 30 then { r with done := false } else r) } := by
  subst hr
  unfold setBankMode
  simp only
  rw [if_neg (by simp [hm, h3, hb]), if_pos ⟨hm, hn⟩]
  rfl

/-! ### The end of a bank's transition (R171) -/

/-- The bank's bytes as a transition leaves them. -/
def bankCleared (c b : Nat) (r : BankReg) (s : State) : State :=
  if r.mode != 0 || r.world != r.nextWorld || r.cur == 1 then
    { s with
      cspad := s.cspad.filter (fun p =>
        !(decide (2 ^ 23 * c + bankBytes * b ≤ p.1) && decide (p.1 < 2 ^ 23 * c + bankBytes * b + bankBytes)))
      cspadBad := s.cspadBad.filter (fun p =>
        !(decide (2 ^ 23 * c + bankBytes * b ≤ 8 * p.1) && decide (8 * p.1 < 2 ^ 23 * c + bankBytes * b + bankBytes))) }
  else s

/-- The data queues as bank n leaves FIFO mode. -/
def dataEmptied (n : Nat) (s : State) : State :=
  { s with dataQueues := s.dataQueues.filterMap (fun p =>
      if emptiedBy n p.2 = DataQueue.reset then none else some (p.1, emptiedBy n p.2)) }

/-- The queues as a transition of bank n leaves them. -/
def bankUnqueued (n : Nat) (r : BankReg) (s : State) : State :=
  if r.cur = 2 then discardRecs n (queuedCount s) (dataEmptied n s) else s

/-- A bank's register after its transition. -/
def bankArrived (r : BankReg) : BankReg :=
  { r with cur := r.mode, world := r.nextWorld, busy := false, done := true, left := r.left && r.mode != 2 }

theorem finishBank_waits {c b : Nat} {s : State}
    (h : (smGet BankReg.reset s.bankRegs (64 * c + b)).busy = false ∨ bankInUse s c b = true) : finishBank c b s = s := by
  unfold finishBank
  rw [if_pos (by simpa using h)]

theorem finishBank_completes {c b : Nat} {r : BankReg} {s : State} (hr : smGet BankReg.reset s.bankRegs (64 * c + b) = r)
    (hb : r.busy = true) (hu : bankInUse s c b = false) :
    finishBank c b s = { bankUnqueued (64 * c + b) r (bankCleared c b r s) with
      bankRegs := smSet BankReg.reset (bankUnqueued (64 * c + b) r (bankCleared c b r s)).bankRegs (64 * c + b)
        (bankArrived r) } := by
  subst hr
  unfold finishBank
  rw [if_neg (by simp [hb, hu])]
  rfl

/-- The bytes outside a bank keep their values; those inside read zero when it was cleared. -/
theorem smGet_bankCleared (c b : Nat) (r : BankReg) (s : State) (k : Nat) :
    smGet 0 (bankCleared c b r s).cspad k =
      if (r.mode ≠ 0 ∨ r.world ≠ r.nextWorld ∨ r.cur = 1) ∧
        2 ^ 23 * c + 131072 * b ≤ k ∧ k < 2 ^ 23 * c + 131072 * b + 131072 then 0 else smGet 0 s.cspad k := by
  unfold bankCleared
  split
  next h =>
    rw [smGet_filter_key 0 (fun a => !(decide (2 ^ 23 * c + bankBytes * b ≤ a) &&
      decide (a < 2 ^ 23 * c + bankBytes * b + bankBytes)))]
    have h' : r.mode ≠ 0 ∨ r.world ≠ r.nextWorld ∨ r.cur = 1 := by simpa [or_assoc] using h
    simp only [← Bool.decide_and, Bool.not_eq_true', decide_eq_false_iff_not, ite_not, h', true_and]
    rfl
  next h =>
    have h' : ¬(r.mode ≠ 0 ∨ r.world ≠ r.nextWorld ∨ r.cur = 1) := by simpa [or_assoc] using h
    rw [if_neg (fun hk => h' hk.1)]

/-- Beside data queues, emptying the queues of a bank only lets records fail. -/
theorem bankUnqueued_frame (n : Nat) (r : BankReg) (s : State) :
    ∃ dqs, RecordsGone { s with dataQueues := dqs } (bankUnqueued n r s) := by
  unfold bankUnqueued
  split
  · exact ⟨_, recordsGone_discardRecs n _ _⟩
  · exact ⟨s.dataQueues, .refl s⟩

theorem bankUnqueued_of_not_fifo {n : Nat} {r : BankReg} {s : State} (h : r.cur ≠ 2) : bankUnqueued n r s = s :=
  if_neg h

theorem dataQ_bankUnqueued {b n : Nat} {r : BankReg} {s : State} (h : r.cur = 2)
    (hb : (qBanks (dataQ s n).ctl 8).contains b = true) :
    dataQ (bankUnqueued b r s) n = { dataQ s n with entries := [], bad := [] } := by
  unfold bankUnqueued
  rw [if_pos h]
  obtain ⟨qs, js, m, e, -⟩ := recordsGone_discardRecs b (queuedCount s) (dataEmptied b s)
  rw [e]
  calc _ = emptiedBy b (dataQ s n) :=
        smGet_filterMap_value (emptiedBy b) s.dataQueues n (emptiedBy_reset b) (emptiedBy_ne_reset hb)
    _ = _ := by rw [emptiedBy, if_pos hb]

theorem recordFails_bankUnqueued {b q : Nat} {r : BankReg} {x : SliceQueue} {e : QRec} {s : State} (h : r.cur = 2)
    (hs : s.queues = [(q, x)]) (hx : x.recs = [e]) (hb : (qBanks x.qctl 128).contains b = true) :
    Expect.recordFails s (bankUnqueued b r s) q 0 10 e := by
  have hq : queuedCount s = 1 := by simp [queuedCount, hs, hx]
  have he : (sliceQ s q).recs[0]? = some e := by simp [sliceQ, hs, smGet, hx]
  rw [bankUnqueued, if_pos h, hq]
  rw [discardRecs_single (s := dataEmptied b s) hs (by simp [hx]) hb]
  exact recordFails_failRecord (s := dataEmptied b s) he

/-- Clearing a bank's bytes changes nothing else but their poison. -/
theorem bankCleared_frame (c b : Nat) (r : BankReg) (s : State) :
    ∃ bytes bad, bankCleared c b r s = { s with cspad := bytes, cspadBad := bad } := by
  unfold bankCleared
  split
  · exact ⟨_, _, rfl⟩
  · exact ⟨s.cspad, s.cspadBad, rfl⟩

section

variable {c b : Nat} {r : BankReg} {s : State} (hr : smGet BankReg.reset s.bankRegs (64 * c + b) = r)
  (hb : r.busy = true) (hu : bankInUse s c b = false)

include hr hb hu

theorem bankReg_finishBank : smGet BankReg.reset (finishBank c b s).bankRegs (64 * c + b) = bankArrived r := by
  rw [finishBank_completes hr hb hu]
  exact smGet_smSet_same _ _ _ _

theorem finishBank_frame : (finishBank c b s).mem = s.mem ∧ (finishBank c b s).crew = s.crew := by
  obtain ⟨bytes, bad, e1⟩ := bankCleared_frame c b r s
  obtain ⟨dqs, qs, js, m, e2, -⟩ := bankUnqueued_frame (64 * c + b) r (bankCleared c b r s)
  rw [finishBank_completes hr hb hu, e2, e1]
  exact ⟨rfl, rfl⟩

theorem cspad_finishBank (k : Nat) : smGet 0 (finishBank c b s).cspad k =
    if (r.mode ≠ 0 ∨ r.world ≠ r.nextWorld ∨ r.cur = 1) ∧
      2 ^ 23 * c + 131072 * b ≤ k ∧ k < 2 ^ 23 * c + 131072 * b + 131072 then 0 else smGet 0 s.cspad k := by
  obtain ⟨dqs, qs, js, m, e, -⟩ := bankUnqueued_frame (64 * c + b) r (bankCleared c b r s)
  rw [finishBank_completes hr hb hu, e]
  exact smGet_bankCleared c b r s k

/-- A bank that was not in FIFO mode takes nothing of a queue with it. -/
theorem queues_finishBank_of_not_fifo (h : r.cur ≠ 2) :
    (finishBank c b s).dataQueues = s.dataQueues ∧ (finishBank c b s).queues = s.queues := by
  obtain ⟨bytes, bad, e⟩ := bankCleared_frame c b r s
  rw [finishBank_completes hr hb hu, bankUnqueued_of_not_fifo h, e]
  exact ⟨rfl, rfl⟩

theorem dataQ_finishBank_of_fifo (h : r.cur = 2) {n : Nat} (hn : (qBanks (dataQ s n).ctl 8).contains (64 * c + b) = true) :
    dataQ (finishBank c b s) n = { dataQ s n with entries := [], bad := [] } := by
  obtain ⟨bytes, bad, e⟩ := bankCleared_frame c b r s
  rw [finishBank_completes hr hb hu, e]
  exact dataQ_bankUnqueued (s := { s with cspad := bytes, cspadBad := bad }) h hn

theorem recordFails_finishBank {q : Nat} {x : SliceQueue} {e : QRec} (h : r.cur = 2) (hs : s.queues = [(q, x)])
    (hx : x.recs = [e]) (hq : (qBanks x.qctl 128).contains (64 * c + b) = true) :
    Expect.recordFails s (finishBank c b s) q 0 10 e := by
  obtain ⟨bytes, bad, e1⟩ := bankCleared_frame c b r s
  rw [finishBank_completes hr hb hu, e1]
  exact recordFails_bankUnqueued (s := { s with cspad := bytes, cspadBad := bad }) h hs hx hq

end

/-! ### Aborts (R312) -/

theorem failSeq_of_none {s : State} {q : Nat} {seq : W64} (h : ∀ r ∈ (sliceQ s q).recs, r.rcd.doneseq ≠ seq) (n : Nat) :
    failSeq q seq n s = s := by
  have hf : findSeqRec s q seq = none := by simpa [findSeqRec] using h
  cases n with
  | zero => rfl
  | succ n => simp [failSeq, hf]

/-- The only waiting record of a sequence value is the one that fails. -/
theorem failSeq_of_unique {s : State} {q i n : Nat} {seq : W64} {r : QRec} (hi : (sliceQ s q).recs[i]? = some r)
    (hr : r.rcd.doneseq = seq)
    (hu : ∀ k x, k ≠ i → (sliceQ s q).recs[k]? = some x → x.rcd.doneseq ≠ seq) (hn : 0 < n) :
    failSeq q seq n s = failRecord q i 9 s := by
  obtain ⟨n, rfl⟩ : ∃ m, n = m + 1 := ⟨n - 1, by omega⟩
  have hf : findSeqRec s q seq = some i := by
    obtain ⟨hlt, hget⟩ := List.getElem?_eq_some_iff.mp hi
    refine List.findIdx?_eq_some_iff_getElem.mpr ⟨hlt, by simp [hget, hr], fun k hk => ?_⟩
    simpa using hu k _ (by omega) (List.getElem?_eq_getElem (by omega))
  simp only [failSeq, hf]
  refine failSeq_of_none (fun x hx => ?_) n
  obtain ⟨hrecs, -⟩ := recordFails_failRecord (reason := 9) hi
  rw [hrecs] at hx
  obtain ⟨k, hk, hx⟩ := List.mem_eraseIdx_iff_getElem?.mp hx
  exact hu k x hk hx

theorem mem_descendants {x : Nat} {l : List Nat} (h : x ∈ l) (s : State) (n : Nat) : x ∈ descendants s n l := by
  induction n generalizing l with
  | zero => exact h
  | succ n ih =>
    simp only [descendants]
    split
    · exact h
    · exact ih (List.mem_append_left _ h)

/-- An abort lets records fail and then stops job slices, the one named among them. -/
theorem abortJob_stops (take reason cause : Nat) (s : State) : ∃ takes u, take ∈ takes ∧ RecordsGone s u ∧
    abortJob take reason cause s = stopJobs takes take reason cause u :=
  ⟨_, _, mem_descendants (by simp) s _, recordsGone_failSpawned _ _ s, rfl⟩

theorem stopJobs_job_root {takes : List Nat} {reason cause : Nat} {s : State} (h : s.job.take ∈ takes)
    (hp : s.job.phase ≠ .done) (hf : s.job.failReason = 0) :
    (stopJobs takes s.job.take reason cause s).job.failReason = reason ∧
      (stopJobs takes s.job.take reason cause s).job.phase = .storing := by
  simp [stopJobs, h, hp, hf]

theorem stopJobs_crews_complete {takes : List Nat} {root reason cause : Nat} {s : State} {c : Crew}
    (hc : c ∈ allCrews (stopJobs takes root reason cause s)) (h : c.key.job ∈ takes) : c.status = .complete := by
  have hm : c ∈ (allCrews s).map (fun c => if takes.contains c.key.job then stopCrew c else c) := hc
  obtain ⟨d, -, rfl⟩ := List.mem_map.mp hm
  by_cases hd : takes.contains d.key.job = true
  · rw [if_pos hd]; rfl
  · rw [if_neg hd] at h
    exact absurd (List.contains_iff_mem.mpr h) hd

/-- Aborting the running job slice in focus fails it for the reason given and stops its crews. -/
theorem abortJob_focus {reason cause : Nat} {s : State} (hp : s.job.phase ≠ .done) (hf : s.job.failReason = 0) :
    (abortJob s.job.take reason cause s).job.failReason = reason ∧
      (abortJob s.job.take reason cause s).job.phase = .storing ∧
      (∀ c ∈ allCrews (abortJob s.job.take reason cause s), c.key.job = s.job.take → c.status = .complete) ∧
      (abortJob s.job.take reason cause s).mem = s.mem ∧
      ∀ q, (sliceQ (abortJob s.job.take reason cause s) q).recs.Sublist (sliceQ s q).recs := by
  obtain ⟨takes, u, ht, ⟨qs, js, n, rfl, hq⟩, e⟩ := abortJob_stops s.job.take reason cause s
  rw [e]
  obtain ⟨hr, hs⟩ := stopJobs_job_root (s := { s with queues := qs, jobs := js ++ s.jobs, nextTake := n })
    (reason := reason) (cause := cause) ht hp hf
  exact ⟨hr, hs, fun c hc hk => stopJobs_crews_complete hc (by rw [hk]; exact ht), rfl, hq⟩

/-- Job slices of other names or queues are not aborted. -/
theorem filter_abortable_eq_nil {l : List Job} {q : Nat} {seq : W64} (h : ∀ j ∈ l, j.rcd.doneseq ≠ seq ∨ j.queue ≠ q) :
    l.filter (fun j => j.rcd.doneseq == seq && j.queue == q && (j.phase == .running || j.phase == .gridDone)) = [] := by
  refine List.filter_eq_nil_iff.mpr (fun j hj => ?_)
  rcases h j hj with hj | hj <;> simp [hj]

theorem abortSeqs_of_no_job {s : State} {q : Nat} {seq : W64}
    (h : ∀ j ∈ allJobs s, j.rcd.doneseq ≠ seq ∨ j.queue ≠ q) :
    abortSeqs q seq s = failSeq q seq (queuedCount s) s := by
  simp only [abortSeqs, filter_abortable_eq_nil h, List.foldl_nil]

theorem abortSeqs_of_focus {s : State} {q : Nat} {seq : W64} (hs : s.job.rcd.doneseq = seq) (hq : s.job.queue = q)
    (hp : s.job.phase = .running) (h : ∀ j ∈ s.jobs, j.rcd.doneseq ≠ seq ∨ j.queue ≠ q) :
    abortSeqs q seq s = failSeq q seq (queuedCount (abortJob s.job.take 9 0 s)) (abortJob s.job.take 9 0 s) := by
  simp [abortSeqs, allJobs, hs, hq, hp, filter_abortable_eq_nil h]

/-! ### Pre-emption (R296) -/

theorem preemptJobs_team (p : Job → Bool) (s : State) : (preemptJobs p s).team =
    stopTeam ((allJobs s).any (fun j => j.take == s.team.job && (p j && j.phase == .running && j.rcd.ctxbase != 0))) s.team := by
  simp only [preemptJobs, List.any_filter, Bool.and_comm]

theorem stopTeam_place_resident {t : Team} {c : Nat} (h : t.place = .resident c) (b : Bool) :
    (stopTeam b t).place = if b then .stopping c else .resident c := by
  cases b <;> simp [stopTeam, h]

theorem stopTeam_of_not_resident {t : Team} (h : ∀ c, t.place ≠ .resident c) (b : Bool) : stopTeam b t = t := by
  unfold stopTeam
  split
  next => exact absurd ‹_› (h _)
  next => rfl

/-! ### Answers to faults (R286) -/

theorem frespWord_toNat (io fail : Bool) (m : Nat) : (frespWord io fail m).toNat =
    m % 65536 + (if fail then 65536 else 0) + (if io then 262144 else 0) := by
  unfold frespWord
  rw [BitVec.toNat_ofNat, Nat.mod_eq_of_lt] <;> split <;> split <;> omega

theorem fld_frespWord_entry (io fail : Bool) (m : Nat) : fld (frespWord io fail m) 15 0 = m % 65536 := by
  simp only [fld, fieldN, frespWord_toNat]
  split <;> split <;> omega

theorem fld_frespWord_action (io fail : Bool) (m : Nat) : fld (frespWord io fail m) 17 16 = if fail then 1 else 0 := by
  simp only [fld, fieldN, frespWord_toNat, Nat.shiftRight_eq_div_pow]
  split <;> split <;> omega

theorem frespWord_io (io fail : Bool) (m : Nat) : (frespWord io fail m).getLsbD 18 = io := by
  simp only [BitVec.getLsbD, frespWord_toNat, Nat.testBit_eq_decide_div_mod_eq]
  cases io <;> cases fail <;> simp <;> omega

/-- An answer is its action, its table and its entry; no other bit of the word counts. -/
theorem answerNow_frespWord {v : W64} {fail : Bool} (h : fld v 17 16 = if fail then 1 else 0) (secure : Bool) (s : State) :
    answerNow secure (frespWord (v.getLsbD 18) fail (fld v 15 0)) s = answerNow secure v s := by
  have he : fld v 15 0 % 65536 = fld v 15 0 := Nat.mod_mod _ _
  simp only [answerNow, fld_frespWord_action, fld_frespWord_entry, frespWord_io, he, h]

theorem setFresp_ignored {v : W64} (h : 2 ≤ fld v 17 16) (who : Option CrewKey) (secure : Bool) (s : State) :
    setFresp who secure v s = s := by
  have ha : answerNow secure v s = s := by
    unfold answerNow
    split
    next h0 => omega
    next h1 => omega
    next => rfl
  simp [setFresp, ha, h]

theorem writesDone_host {s : State} (hl : s.dev.hostLines = []) (hh : s.dev.hostHeld = []) : writesDone none s = true := by
  simp [writesDone, awaitsAck, hl, hh]

theorem not_writesDone_host {s : State} (h : ∃ e ∈ s.tlbs, e.stale = true ∧ ∃ n ∈ e.lines, n ∈ s.dev.hostLines) :
    writesDone none s = false := by
  have : awaitsAck s.dev.hostLines s = true := by simpa [awaitsAck] using h
  simp [writesDone, this]

theorem setFresp_now {who : Option CrewKey} {s : State} (hw : writesDone who s = true) (hd : s.dev.d3 = false)
    (secure : Bool) (v : W64) : setFresp who secure v s = answerNow secure v s := by
  simp [setFresp, hw, hd]

theorem setFresp_waits {who : Option CrewKey} {v : W64} {s : State} (hw : writesDone who s = false)
    (hv : fld v 17 16 < 2) (secure : Bool) : setFresp who secure v s =
      Expect.devIs { s.dev with answers := s.dev.answers ++ [⟨who, secure, v &&& 0x7FFFF⟩] } s := by
  rw [setFresp, hw, if_neg (by simp), if_neg (by omega)]
  rfl

/-! ### Invalidations, power and attestation -/

/-- The address space invalidated is busy when some holder has a translation of it (R282). -/
theorem mem_asidinv_setAsidinv (v : W64) (a : Nat) (s : State) : a ∈ (setAsidinv v s).dev.asidinv ↔
    a ∈ s.dev.asidinv ∨ (a = fld v 11 0 ∧ ∃ e ∈ s.tlbs, e.asid = fld v 11 0) := by
  have hb : s.tlbs.any (fun e => e.asid == fld v 11 0) = true ↔ ∃ e ∈ s.tlbs, e.asid = fld v 11 0 := by simp
  rw [← hb]
  change a ∈ (if (_ && _) = true then _ else _) ↔ _
  cases s.tlbs.any (fun e => e.asid == fld v 11 0) with
  | false => simp
  | true =>
    by_cases hc : fld v 11 0 ∈ s.dev.asidinv
    · simpa [hc] using fun h : a = fld v 11 0 => h ▸ hc
    · simp [hc, or_comm]

/-- Outside D3 there is nothing to leave. -/
theorem leaveD3_of_running {s : State} (h : s.dev.d3 = false) :
    leaveD3 s = Expect.devIs { s.dev with d3 := false } s := by
  rw [leaveD3, h, if_neg (by simp), ← h]
  rfl

theorem setAttgo_eq (v : W64) (s : State) : setAttgo v s = if v.getLsbD 0 = true ∧ s.dev.attBusy = false
    then Expect.devIs { s.dev with attBusy := true, attDone := false } s else s := by
  unfold setAttgo
  cases v.getLsbD 0 <;> cases s.dev.attBusy <;> rfl

/-! ### Registers and the offsets that name them (R365) -/

theorem newCtl_eq (old v : W64) : newCtl old v =
    if (qEn old = true ∧ qEn v = true) ∨ (qEn v = true ∧ (fld v 16 0 < 64 ∨ 65536 < fld v 16 0)) then old
    else v &&& 0x813F3F000001FFFF := by
  unfold newCtl qCap
  cases qEn old <;> cases qEn v <;> simp

theorem regAt_queue {q off : Nat} (hq : q < 64) (ho : off < 32) :
    regAt (BitVec.ofNat 32 (0x10000 + 8 * off + 0x100 * q)).toNat = .queue q (8 * off) := by
  rw [BitVec.toNat_ofNat, Nat.mod_eq_of_lt (by omega), regAt, if_pos (by omega)]
  congr 1 <;> omega

/-- Below the bank mode registers every register has eight bytes. -/
theorem regSize_regAt_low {off : Nat} (h : off < 0x20000) : regSize (regAt off) = 8 := by
  unfold regAt
  by_cases hq : 0x10000 ≤ off ∧ off < 0x14000
  · rw [if_pos hq]
    rfl
  · iterate 11 rw [if_neg (by omega)]
    generalize off / 8 * 8 = n
    split <;> rfl

/-! ### The host's writes while the device is up -/

theorem deviceUp_of_up {s : State} (h : Expect.up s) : deviceUp s = true := by
  obtain ⟨hb, ht, -⟩ := h
  simp [deviceUp, hb, ht]

theorem d3_of_up {s : State} (h : Expect.up s) : s.dev.d3 = false := h.right.right

theorem clockOn_of_up {s : State} (h : Expect.up s) : clockOn s = true := by
  obtain ⟨-, ht, hd⟩ := h
  simp [clockOn, ht, hd]

theorem hostWrite_up {ok : Bool} {f : State → State} {s : State} (h : Expect.up s) (hok : ok = true) :
    hostWrite ok f s = .next (f s) := by
  rw [hostWrite, deviceUp_of_up h, hok]
  rfl

/-- A write of the register map at a register's own offset writes that register. -/
theorem exec_registerWrite {s : State} (h : Expect.up s) {off : W32} {r : Reg} (hr : regAt off.toNat = r)
    (ho : off.toNat % regSize r = 0) (v : W64) : exec (.registerWrite off v) s = .next (regWrite none r v s) := by
  subst hr
  exact hostWrite_up h (by simpa using ho)

theorem exec_registerWrite_queue {s : State} (h : Expect.up s) {q k : Nat} (hq : q < 64) (hk : k < 32) (v : W64) :
    exec (.registerWrite (BitVec.ofNat 32 (0x10000 + 8 * k + 0x100 * q)) v) s =
      .next (regWrite none (.queue q (8 * k)) v s) := by
  refine exec_registerWrite h (regAt_queue hq hk) ?_ v
  change _ % 8 = 0
  rw [BitVec.toNat_ofNat]
  omega

/-- A write at an offset inside a register is no write of it. -/
theorem exec_registerWrite_inside {s : State} {off : W32} (h : off.toNat % 8 ≠ 0) (hl : off.toNat < 0x20000) (v : W64) :
    exec (.registerWrite off v) s = .next s := by
  change hostWrite (off.toNat % regSize (regAt off.toNat) == 0) _ s = _
  rw [regSize_regAt_low hl]
  simp [hostWrite, h]

/-- An answer event, when no answer waits, is the host's FRESP write of its word. -/
theorem answerEvent_up {s : State} (h : Expect.up s) (ha : s.dev.answers = []) (secure : Bool) (v : W64) :
    (.next (if deviceUp s then answerEvent secure v s else s) : Host.Outcome State Fault Refusal) =
      .next (setFresp none secure v s) := by
  simp [deviceUp_of_up h, answerEvent, ha]

theorem exec_frespRetry {s : State} (h : Expect.up s) (ha : s.dev.answers = []) (secure io : Bool) (n : Nat) :
    exec (.frespRetry secure io n) s = .next (setFresp none secure (frespWord io false n) s) :=
  answerEvent_up h ha secure _

theorem exec_frespFail {s : State} (h : Expect.up s) (ha : s.dev.answers = []) (secure io : Bool) (n : Nat) :
    exec (.frespFail secure io n) s = .next (setFresp none secure (frespWord io true n) s) :=
  answerEvent_up h ha secure _

/-- A write of FRESP writes the answer register of its world. -/
theorem exec_registerWrite_fresp {s : State} (h : Expect.up s) {secure : Bool} {off : W32}
    (ho : off = (if secure then 0x31020 else 0x30020)) (v : W64) :
    exec (.registerWrite off v) s = .next (setFresp none secure v s) := by
  subst ho
  cases secure
  · exact exec_registerWrite h (r := .world 0 0x20) rfl rfl v
  · exact exec_registerWrite h (r := .world 1 0x20) rfl rfl v

theorem exec_bankTransitionComplete {s : State} (h : Expect.up s) {c b : Nat} (hc : c < 64) (hb : b < 64) :
    exec (.bankTransitionComplete c b) s = .next (finishBank c b s) := by
  change Host.Outcome.next (if clockOn s && decide (c < 64) && decide (b < 64) then finishBank c b s else s) = _
  simp [clockOn_of_up h, hc, hb]

theorem exec_slcabort_act {s : State} (h : Expect.up s) (v : W64) :
    exec (.slcabortWrite true v) s = .next (abortSeqs (fld v 5 0) s.dev.abortSeq s) := by
  rw [show exec (.slcabortWrite true v) s = .next (setSlcabort true v s) from hostWrite_up h rfl]
  simp [setSlcabort, d3_of_up h]

end Sys2Proof.Machine
end

section
namespace Sys2Proof

open Machine

/-- Settles O51, register by register: the offset names its register, the device being up lets the host's write reach it,
and the write's own law says what it leaves. Ends of bank transitions rest on `finishBank_completes`, aborts on
`abortJob_focus` and `failSeq_of_unique`, and answers to faults on `setFresp_now` and `setFresp_waits`. -/
theorem registerWrites : Obligations.RegisterWrites := by
  intro s v hup
  refine ⟨fun q x hq hx => ?queue, fun n x hn hx => ?dataQueue, fun c b w r hc hb hr => ?bank, fun n r hn hr => ?ring,
    ?asidinv, hostWrite_up hup rfl, ?preempt, hostWrite_up hup rfl, fun hj => ?abortRecord, ?abortJob,
    fun secure off ho ha => ?fresp, ?d3, ?run, ?pcap, ?attgo, ?errlog, exec_registerWrite hup rfl rfl v,
    exec_registerWrite hup rfl rfl v, exec_registerWrite hup rfl rfl v, exec_registerWrite hup rfl rfl v,
    exec_registerWrite hup rfl rfl v, fun off h hl => exec_registerWrite_inside h hl v⟩
  case queue =>
    subst hx
    refine ⟨?_, ?_, ?_, ?_, ?_, ?_⟩
    · rw [← newCtl_eq]
      exact hostWrite_up hup (decide_eq_true hq)
    · exact hostWrite_up hup (decide_eq_true hq)
    · exact exec_registerWrite_queue hup hq (k := 3) (by omega) v
    · exact exec_registerWrite_queue hup hq (k := 4) (by omega) v
    · exact exec_registerWrite_queue hup hq (k := 5) (by omega) v
    · exact exec_registerWrite_queue hup hq (k := 6) (by omega) v
  case dataQueue =>
    subst hx
    rw [← newCtl_eq]
    exact hostWrite_up hup (decide_eq_true hn)
  case bank =>
    have hw : exec (.bankModeWrite c b w) s = .next (setBankMode c b w.toNat s) :=
      hostWrite_up hup (by simp [hc, hb])
    rw [hw, exec_bankTransitionComplete hup hc hb]
    refine ⟨fun h => ?_, fun h0 h3 h => ?_, fun h0 h h3 hn => ?_, fun h => ?_, fun h1 hu => ?_⟩
    · rw [setBankMode_ignored (hr ▸ h)]
    · rw [setBankMode_begins hr.symm h0 h3 h]
    · rw [setBankMode_settled hr.symm h0 h h3 hn]
    · rw [finishBank_waits (hr ▸ h)]
    · obtain ⟨hmem, hcrew⟩ := finishBank_frame hr.symm h1 hu
      have hk := cspad_finishBank hr.symm h1 hu
      refine ⟨_, rfl, bankReg_finishBank hr.symm h1 hu, hmem, hcrew, fun k ho => ?_, fun k hlo hhi => ?_,
        queues_finishBank_of_not_fifo hr.symm h1 hu, fun hf n hn => ?_, fun q x e => recordFails_finishBank hr.symm h1 hu⟩
      · rw [hk, if_neg (by omega)]
      · rw [hk]
        simp only [hlo, hhi, and_true]
      · rw [dataQ_finishBank_of_fifo hr.symm h1 hu hf hn]
        exact ⟨rfl, rfl⟩
  case ring =>
    subst hr
    exact ⟨hostWrite_up hup (decide_eq_true hn), hostWrite_up hup (decide_eq_true hn), hostWrite_up hup (decide_eq_true hn)⟩
  case asidinv =>
    refine ⟨_, hostWrite_up hup rfl, fun a => ?_, rfl, rfl, rfl, rfl⟩
    exact mem_asidinv_setAsidinv v a s
  case preempt =>
    refine ⟨_, hostWrite_up hup rfl, rfl, rfl, ?_⟩
    change (preemptJobs _ s).team.place = _
    rw [preemptJobs_team]
    cases hp : s.team.place with
    | resident c => simp only [stopTeam_place_resident hp, Bool.and_assoc]
    | _ => rw [stopTeam_of_not_resident (by simp [hp]), hp]
  case abortRecord =>
    rw [exec_slcabort_act hup, abortSeqs_of_no_job hj]
    refine ⟨fun hr => by rw [failSeq_of_none hr], fun i r hi hr hu => ⟨_, rfl, ?_⟩⟩
    have hn : 0 < queuedCount s := by
      have hlt := (List.getElem?_eq_some_iff.mp hi).1
      have hle := length_recs_le_queuedCount s (fld v 5 0)
      omega
    rw [failSeq_of_unique hi hr hu hn]
    exact recordFails_failRecord hi
  case abortJob =>
    intro hs hq hp hf hj hr
    obtain ⟨hreason, hphase, hcrews, hmem, hrecs⟩ :=
      abortJob_focus (reason := 9) (cause := 0) (s := s) (by simp [hp]) hf
    rw [exec_slcabort_act hup, abortSeqs_of_focus hs hq hp hj,
      failSeq_of_none (fun r h => hr r ((hrecs _).subset h))]
    exact ⟨_, rfl, hreason, hphase, hcrews, hmem⟩
  case fresp =>
    rw [exec_registerWrite_fresp hup ho]
    refine ⟨fun h => by rw [setFresp_ignored h], fun hl hh => ?_, fun h he => ?_⟩
    · have hw := writesDone_host hl hh
      refine ⟨fun h => ?_, fun h => ?_⟩
      · rw [exec_frespRetry hup ha, setFresp_now hw (d3_of_up hup), setFresp_now hw (d3_of_up hup),
          answerNow_frespWord (fail := false) h]
      · rw [exec_frespFail hup ha, setFresp_now hw (d3_of_up hup), setFresp_now hw (d3_of_up hup),
          answerNow_frespWord (fail := true) h]
    · rw [setFresp_waits (not_writesDone_host he) h, ha, List.nil_append]
  case d3 =>
    rw [show exec .pstateEnterD3 s = .next (enterD3 s) from hostWrite_up hup rfl]
    rfl
  case run =>
    rw [show exec .pstateRun s = .next (leaveD3 s) from hostWrite_up hup rfl, leaveD3_of_running (d3_of_up hup)]
  case pcap => exact hostWrite_up hup rfl
  case attgo =>
    rw [show exec (.attgoWrite v) s = .next (setAttgo v s) from hostWrite_up hup rfl, setAttgo_eq]
  case errlog => exact fun n hn => hostWrite_up hup (decide_eq_true hn)

end Sys2Proof
end

section
namespace Sys2Proof.Machine

/-! ### Codes by their fields, and the rounding of a value that needs none (R80, R81, R83) -/

theorem bankWord_reset : bankWord BankReg.reset = 2 ^ 30 := by decide

theorem smGetMany_nil {α : Type} (d : α) (k n : Nat) : smGetMany d [] k n = List.replicate n d := by
  induction n generalizing k with
  | zero => rfl
  | succ n ih => rw [smGetMany, ih, List.replicate_succ, smGet]

theorem bitLen_le_iff (n k : Nat) : bitLen n ≤ k ↔ n < 2 ^ k := by
  unfold bitLen
  split
  case isTrue h => exact iff_of_true (Nat.zero_le k) (h ▸ Nat.two_pow_pos k)
  case isFalse h => rw [Nat.succ_le_iff, Nat.log2_lt h]

/-- A multiple of the place of rounding is its own rounding. -/
theorem roundAt_same (rm : Rm) (neg : Bool) (mant : Nat) (q : Int) : roundAt rm neg mant q q = (mant, false) := by
  rw [roundAt, if_pos (Int.le_refl q), Int.sub_self, Int.toNat_zero, Nat.shiftLeft_zero]

theorem fmtSign_false (f : Fmt) : fmtSign f false = 0 := rfl
theorem fmtSign_true (f : Fmt) : fmtSign f true = 2 ^ (f.e + f.m) := rfl

theorem fmtSign_le (f : Fmt) (neg : Bool) : fmtSign f neg ≤ 2 ^ (f.e + f.m) := by
  cases neg
  · exact Nat.zero_le _
  · exact Nat.le_refl _

/-- The magnitude of the code with exponent field e and fraction field fr (R80). -/
def fmtMag (f : Fmt) (e fr : Nat) : Nat := (e <<< f.m) + fr

variable {f : Fmt} {e fr : Nat}

/-- A smaller exponent field is a smaller magnitude, whatever the fraction. -/
theorem fmtMag_lt_shiftLeft {n : Nat} (he : e < n) (hfr : fr < 2 ^ f.m) : fmtMag f e fr < n <<< f.m := by
  rw [fmtMag, Nat.shiftLeft_eq, Nat.shiftLeft_eq]
  calc e * 2 ^ f.m + fr < (e + 1) * 2 ^ f.m := by rw [Nat.succ_mul]; omega
    _ ≤ n * 2 ^ f.m := Nat.mul_le_mul_right _ he

theorem fmtMag_lt (he : e < 2 ^ f.e) (hfr : fr < 2 ^ f.m) : fmtMag f e fr < 2 ^ (f.e + f.m) := by
  rw [Nat.pow_add, ← Nat.shiftLeft_eq]
  exact fmtMag_lt_shiftLeft he hfr

/-- Every code is a sign bit, an exponent field and a fraction field (R80). -/
theorem exists_fields {code : Nat} (h : code < 2 ^ (1 + f.e + f.m)) :
    ∃ neg e fr, e < 2 ^ f.e ∧ fr < 2 ^ f.m ∧ code = fmtSign f neg + fmtMag f e fr := by
  have hmag : code % 2 ^ (f.e + f.m) = fmtMag f (code % 2 ^ (f.e + f.m) / 2 ^ f.m) (code % 2 ^ f.m) := by
    rw [fmtMag, Nat.shiftLeft_eq, ← Nat.mod_mod_of_dvd code (Nat.pow_dvd_pow 2 (Nat.le_add_left f.m f.e)),
      Nat.div_add_mod']
  have hsign : fmtSign f (decide (2 ^ (f.e + f.m) ≤ code)) + code % 2 ^ (f.e + f.m) = code := by
    rw [Nat.add_assoc, Nat.pow_add, Nat.pow_one] at h
    by_cases hc : 2 ^ (f.e + f.m) ≤ code
    · rw [decide_eq_true hc, fmtSign_true, Nat.mod_eq_sub_mod hc, Nat.mod_eq_of_lt (by omega)]
      omega
    · rw [decide_eq_false hc, fmtSign_false, Nat.mod_eq_of_lt (by omega), Nat.zero_add]
  refine ⟨_, _, _, ?_, Nat.mod_lt _ (Nat.two_pow_pos _), by rw [← hmag]; exact hsign.symm⟩
  rw [Nat.div_lt_iff_lt_mul (Nat.two_pow_pos _), ← Nat.pow_add]
  exact Nat.mod_lt _ (Nat.two_pow_pos _)

section

variable (neg : Bool) (he : e < 2 ^ f.e) (hfr : fr < 2 ^ f.m)
include he hfr

theorem mod_sign_fields : (fmtSign f neg + fmtMag f e fr) % 2 ^ (f.e + f.m) = fmtMag f e fr := by
  have hlt := fmtMag_lt he hfr
  cases neg
  · rw [fmtSign_false, Nat.zero_add, Nat.mod_eq_of_lt hlt]
  · rw [fmtSign_true, Nat.add_mod_left, Nat.mod_eq_of_lt hlt]

theorem isNanC_fields :
    isNanC f (fmtSign f neg + fmtMag f e fr) = (!f.finiteOnly && decide (fmtInf f < fmtMag f e fr)) := by
  rw [isNanC, mod_sign_fields neg he hfr]

/-- The value of a code, read from its fields (R80, R81). -/
theorem exOf_fields :
    exOf f (fmtSign f neg + fmtMag f e fr) =
      if !f.finiteOnly && e = 2 ^ f.e - 1 then (if fr = 0 then .inf neg else .nan)
      else if e = 0 then .fin neg fr (fmtEmin f - f.m)
      else .fin neg (fr + 2 ^ f.m) ((e : Int) - f.bias - f.m) := by
  have hlt := fmtMag_lt he hfr
  have hcode : (fmtSign f neg + fmtMag f e fr) % 2 ^ (1 + f.e + f.m) = fmtSign f neg + fmtMag f e fr := by
    refine Nat.mod_eq_of_lt ?_
    rw [Nat.add_assoc, Nat.pow_add, Nat.pow_one]
    have hsign := fmtSign_le f neg
    omega
  have hneg : (fmtSign f neg + fmtMag f e fr).testBit (f.e + f.m) = neg := by
    cases neg
    · rw [fmtSign_false, Nat.zero_add, Nat.testBit_lt_two_pow hlt]
    · rw [fmtSign_true, Nat.testBit_two_pow_add_eq, Nat.testBit_lt_two_pow hlt, Bool.not_false]
  have hexp : ((fmtSign f neg + fmtMag f e fr) >>> f.m) % 2 ^ f.e = e := by
    rw [Nat.shiftRight_eq_div_pow, ← Nat.mod_mul_right_div_self, ← Nat.pow_add, Nat.add_comm f.m,
      mod_sign_fields neg he hfr, fmtMag, Nat.shiftLeft_eq, Nat.mul_comm, Nat.mul_add_div (Nat.two_pow_pos _),
      Nat.div_eq_of_lt hfr, Nat.add_zero]
  have hfrac : (fmtSign f neg + fmtMag f e fr) % 2 ^ f.m = fr := by
    rw [← Nat.mod_mod_of_dvd _ (Nat.pow_dvd_pow 2 (Nat.le_add_left f.m f.e)), mod_sign_fields neg he hfr, fmtMag,
      Nat.shiftLeft_eq, Nat.mul_add_mod_self_right, Nat.mod_eq_of_lt hfr]
  simp only [exOf, hcode, hneg, hexp, hfrac]

end

/-- A value whose last place is the format's own at its magnitude, and that is no larger than the greatest, is its own
rounding: the place of rounding is the value's own, so no mode has anything to round (R83). -/
theorem roundTo_of_place {rm : Rm} {neg : Bool} {mant : Nat} {exp : Int} (h0 : mant ≠ 0)
    (hq : max (exp + bitLen mant - 1 - f.m) (fmtEmin f - f.m) = exp)
    (hmax : fmtMag f (exp - (fmtEmin f - f.m)).toNat mant ≤ fmtMax f) :
    roundTo f rm (.fin neg mant exp) = (fmtSign f neg + fmtMag f (exp - (fmtEmin f - f.m)).toNat mant, fNone) := by
  obtain ⟨k, rfl⟩ := Nat.exists_eq_succ_of_ne_zero h0
  simp only [fmtMag] at hmax ⊢
  simp only [roundTo, hq, roundAt_same, Bool.and_false, if_neg (Nat.not_lt.mpr hmax)]
  rfl

theorem roundTo_subnormal {rm : Rm} {neg : Bool} (hfr : fr < 2 ^ f.m) (hmax : fmtMag f 0 fr ≤ fmtMax f) :
    roundTo f rm (.fin neg fr (fmtEmin f - f.m)) = (fmtSign f neg + fmtMag f 0 fr, fNone) := by
  by_cases h0 : fr = 0
  · subst h0
    simp only [roundTo, fmtMag, Nat.zero_shiftLeft, Nat.add_zero]
  · have hlen : bitLen fr ≤ f.m := (bitLen_le_iff _ _).mpr hfr
    have hplace : (fmtEmin f - f.m - (fmtEmin f - f.m)).toNat = 0 := by omega
    have h := roundTo_of_place (f := f) (rm := rm) (neg := neg) (exp := fmtEmin f - f.m) h0 (by omega)
      (by rwa [hplace])
    rwa [hplace] at h

theorem roundTo_normal {rm : Rm} {neg : Bool} (h0 : e ≠ 0) (hfr : fr < 2 ^ f.m) (hmax : fmtMag f e fr ≤ fmtMax f) :
    roundTo f rm (.fin neg (fr + 2 ^ f.m) ((e : Int) - f.bias - f.m)) = (fmtSign f neg + fmtMag f e fr, fNone) := by
  have hle : bitLen (fr + 2 ^ f.m) ≤ f.m + 1 := (bitLen_le_iff _ _).mpr (by rw [Nat.pow_succ]; omega)
  have hge : ¬ bitLen (fr + 2 ^ f.m) ≤ f.m := by rw [bitLen_le_iff]; omega
  have hmin : fmtEmin f = 1 - (f.bias : Int) := rfl
  have hplace : ((e : Int) - f.bias - f.m - (fmtEmin f - f.m)).toNat = e - 1 := by omega
  have hmag : fmtMag f (e - 1) (fr + 2 ^ f.m) = fmtMag f e fr := by
    obtain ⟨k, rfl⟩ := Nat.exists_eq_succ_of_ne_zero h0
    simp only [fmtMag, Nat.shiftLeft_eq, Nat.succ_eq_add_one, Nat.add_sub_cancel, Nat.succ_mul]
    omega
  have h := roundTo_of_place (f := f) (rm := rm) (neg := neg) (mant := fr + 2 ^ f.m)
    (exp := (e : Int) - f.bias - f.m) (by have := Nat.two_pow_pos f.m; omega) (by omega) (by rwa [hplace, hmag])
  rwa [hplace, hmag] at h

/-- A magnitude below the infinities and NaNs of the format is at most its greatest finite one (R81). -/
theorem fmtMag_le_fmtMax (he : e < 2 ^ f.e) (hfr : fr < 2 ^ f.m) (hfin : f.finiteOnly = false → e ≠ 2 ^ f.e - 1) :
    fmtMag f e fr ≤ fmtMax f := by
  unfold fmtMax
  split
  case isTrue => exact Nat.le_sub_one_of_lt (fmtMag_lt he hfr)
  case isFalse h =>
    have htop : e ≠ 2 ^ f.e - 1 := hfin (Bool.not_eq_true _ ▸ h)
    exact Nat.le_sub_one_of_lt (fmtMag_lt_shiftLeft (by omega) hfr)

/-- RoundTo undoes the reading of every code that is no NaN, in every format. -/
theorem roundTo_exOf (f : Fmt) (rm : Rm) {code : Nat} (hc : code < 2 ^ (1 + f.e + f.m)) (hn : isNanC f code = false) :
    roundTo f rm (exOf f code) = (code, fNone) := by
  obtain ⟨neg, e, fr, he, hfr, rfl⟩ := exists_fields hc
  rw [exOf_fields neg he hfr]
  rw [isNanC_fields neg he hfr] at hn
  by_cases htop : f.finiteOnly = false ∧ e = 2 ^ f.e - 1
  · obtain ⟨hinf, rfl⟩ := htop
    have h0 : fr = 0 := by
      simp only [hinf, Bool.not_false, Bool.true_and, decide_eq_false_iff_not] at hn
      rw [fmtInf, fmtMag] at hn
      omega
    simp only [roundTo, hinf, h0, fmtMag, fmtInf, Bool.not_false, Bool.true_and, decide_true, if_true,
      Bool.false_eq_true, if_false, Nat.add_zero]
  · have hmax : fmtMag f e fr ≤ fmtMax f := fmtMag_le_fmtMax he hfr fun hinf h => htop ⟨hinf, h⟩
    rw [if_neg (by simpa only [Bool.and_eq_true, Bool.not_eq_true', decide_eq_true_eq] using htop)]
    by_cases h0 : e = 0
    · subst h0
      exact roundTo_subnormal hfr hmax
    · rw [if_neg h0]
      exact roundTo_normal h0 hfr hmax

end Sys2Proof.Machine
end

section
namespace Sys2Proof

open Machine

/-- Settles O3, for every format at once: a code is a sign bit and a magnitude, and a magnitude that stands for a number
has its last place where RoundTo rounds. -/
theorem representableValuesRoundToThemselves : Obligations.RepresentableValuesRoundToThemselves :=
  fun f _ rm _ hc hn => roundTo_exOf f rm hc hn

/-- Settles O60: every map of the reset state is empty, so a read of it gives what is read where nothing is listed. -/
theorem resetState : Obligations.ResetState :=
  ⟨rfl, fun _ _ => smGetMany_nil .., rfl, rfl, fun _ => rfl, fun _ _ => rfl, fun _ _ => bankWord_reset, fun _ => rfl,
    fun _ => ⟨rfl, BitVec.getLsbD_zero, rfl⟩, rfl⟩

end Sys2Proof
end
